-- ==== Sys2Proof/Word.lean ====
section
/-!
DEFINITION. The word types of the adapter and the plainest arithmetic on them.
-/
namespace Sys2Proof

/-- A register is 32 bits wide (00_scope.md, Registers). -/
abbrev Word := BitVec 32

/-- A byte of a flit, a packet or host memory. -/
abbrev Byte := BitVec 8

/-- One 16-byte payload slot of a flit (R129). -/
abbrev Slot := BitVec 128

/-- A die ID: LAYER in bits 17 to 6, SITE in bits 5 to 0 (R184). -/
abbrev Die := BitVec 18

/-- A pair sequence number (R187). -/
abbrev Txid := BitVec 20

/-- A flit sequence number (R136). -/
abbrev Seq := BitVec 16

end Sys2Proof
end

