-- ==== Sys2Proof/Syntax.lean ====
section
/-!
DEFINITION. The commands the adapter takes: one constructor per row of spec/opcode_table.json, with the
unit it names and what the event brings with it. The docstrings carry the table's rule and summary.
-/
namespace Sys2Proof

abbrev PortId := Fin 64
abbrev LaneId := Fin 320
abbrev IpId := Fin 16
abbrev QuadId := Fin 4
abbrev ChanId := Fin 128
abbrev WbId := Fin 8
abbrev StreamId := Fin 1024
abbrev PaceLine := Fin 256
abbrev ThreadId := Fin 8
abbrev EngineId := Fin 17
/-- A transfer tag of an inner port (R31). -/
abbrev Tag := BitVec 10

/-- The units that report through an event block (R487). -/
inductive EvtUnit where
  | glb | tb | mgt | pro | cal | pwr
  | qd (q : QuadId)
  | prt (p : PortId)
  | ln (l : LaneId)
  | dma
  | dmaCh (c : ChanId)
  | wb | atm | tst
  deriving DecidableEq, Repr

/-- The four channels of an inner port (R28). -/
inductive IpChannel where
  | hreq | hrsp | freq | frsp
  deriving DecidableEq, Repr

/-- One data beat of an inner-port channel: data, parity and the last-beat mark (R28). -/
structure Beat where
  data : BitVec 2048
  par : BitVec 32
  last : Bool
  deriving DecidableEq, Repr

/-- The outputs of an inner port that the wrapper's boundary register covers: VALID of HREQ and FRSP, READY of HRSP and FREQ, each header
before data, and the header and data beats (R28, R54). -/
structure IpPins where
  valid : BitVec 4 := 0
  ready : BitVec 4 := 0
  hreqHdr : BitVec 128 := 0
  frspHdr : BitVec 128 := 0
  hreqData : Beat := ⟨0, 0, false⟩
  frspData : Beat := ⟨0, 0, false⟩
  deriving DecidableEq, Repr

/-- The outputs that the wrapper's boundary register covers: of the management port, the interrupts, ADP_STATE, and of every inner port
(R26, R54). -/
structure WrapPins where
  mready : Bool := false
  mrvalid : Bool := false
  mrerr : Bool := false
  mrdata : BitVec 32 := 0
  irq : BitVec 4 := 0
  adp : BitVec 4 := 0
  ips : List IpPins := []
  deriving DecidableEq, Repr

/-- What waits on a channel of an inner port: its header, or with `data` its data beat (R28, R37). -/
structure IpWait where
  chan : IpChannel
  data : Bool
  deriving DecidableEq, Repr

/-- What FRSP of an inner port transfers: its header, or with `data` its data beat (R28, R30). -/
structure FrspBeat where
  ip : IpId
  data : Bool
  deriving DecidableEq, Repr

/-- A marker as the 272 bytes of its flit, and as the 272 bytes the words of the spare lane's burst stand for, where one came (R95). -/
structure MarkerFlits where
  flit : List Byte
  spare : List Byte
  deriving DecidableEq, Repr

/-- A lane whose CDR loses lock; with `pattern` the peer's CDR pattern is seen on it (R379). -/
structure CdrLoss where
  lane : LaneId
  pattern : Bool
  deriving DecidableEq, Repr

/-- A unit that a command names; with `bad` the SRAM word read for the command is uncorrectable (R388). -/
structure Checked (α : Type) where
  on : α
  bad : Bool
  deriving DecidableEq, Repr

/-- A wrapper instruction (SAFE, INTEST or EXTEST by number) and the cells shifted in with it (R54). -/
structure WspLoad where
  wir : Fin 3
  cells : WrapPins
  deriving DecidableEq, Repr

/-- What a Lectern thread asks of another die (R239). -/
inductive AccessKind where
  | read | write | atomic
  deriving DecidableEq, Repr

/-- The central units that have no pair (R382). -/
inductive CentralUnit where
  | crossbar | atomic | protection | keyStore
  deriving DecidableEq, Repr

/-- A command to the adapter: an event at its boundary or inside it, a register access that does something,
or a Plovirko request the Lectern takes up. -/
inductive Instr where
  /-- PORST_ASSERT (R50). Power-on reset asserted: PLL reset, CTS zeroed, protection zeroised, fault log and soft repairs cleared, lanes dark. -/
  | porstAssert
  /-- WARM_RESET (R49). Filtered WARM_N falls (or stays low after FREEZE release) and begins an adapter reset that keeps the PLL, fault log and soft repairs. -/
  | warmReset
  /-- VDDC_LOW_RESET (R46). VDD_C stays below 0.68 V for 1 µs and the adapter resets as for PORST_N, recording VDDC_LOW. -/
  | vddcLowReset
  /-- SUPPLY_A (R46). VDD_A stays out of range for 1 µs; SUPPLY_A is raised and GLB_BSTS.VDD_A_OK falls. -/
  | supplyA
  /-- SUPPLY_H (R46). VDD_H stays out of range for 1 µs; SUPPLY_H is raised and GLB_BSTS.VDD_H_OK falls. -/
  | supplyH
  /-- FREEZE (R53). Filtered FREEZE rises; outputs drop, lanes go dark, BLSB_CK and all internal clocks stop and ADP_STATE becomes FROZEN. -/
  | freeze
  /-- REFCLK_LOSS (R43). REFCLK has no edge for 8 nominal periods; REFCLK_LOSS is raised and the PLL holds its frequency. -/
  | refclkLoss
  /-- REFCLK_LOSS_EXPIRY (R43). REFCLK has not returned within 64 ticks and the adapter enters FAULT. -/
  | refclkLossExpiry
  /-- PLL_UNLOCK (R43). The PLL loses lock; PLL_UNLOCK is raised, the adapter enters FAULT and PLL_LOCK falls. -/
  | pllUnlock
  /-- PLL_LOCK (R52). The PLL locks after PORST_N release; PLL_LOCK rises and CLKC_OUT runs. -/
  | pllLock
  /-- EFUSE_LOAD (R456). eFuse load completes; repair records with a correct CHK are applied and bad slots counted. -/
  | efuseLoad
  /-- SRAM_INIT_DONE (R52). SRAM initialisation of all arrays completes with every word written with a valid code. -/
  | sramInitDone
  /-- LECTERN_START (R52). The Lectern starts from ROM and passes its lockstep check; the adapter enters BOOT and MREADY may rise. -/
  | lecternStart
  /-- RESET_STEP_OVERRUN (R52). A reset-to-BOOT step overruns its bound and the adapter enters FAULT. -/
  | resetStepOverrun
  /-- PACE_EDGE (R40). A qualified rising edge appears on a filtered PACE line. -/
  | paceEdge (line : PaceLine)
  /-- MGT_TIMEOUT (R39). A management access is unanswered 1,024 cc after acceptance and finishes with MRERR 1. -/
  | mgtTimeout
  /-- REGISTER_WRITE (R490). A software write to a register with no behaviour of its own is checked for agent, lock and range and then takes effect. -/
  | registerWrite (agent : Bool) (addr : BitVec 17) (value : Word)
  /-- EVT_CLR_WRITE (R11). A write to EVT_CLR clears EVT_RAW bits, losing to a same-cycle hardware set. -/
  | evtClrWrite (u : EvtUnit) (value : Word)
  /-- EVT_SET_WRITE (R10). A write to EVT_SET sets EVT_RAW bits and increments their counters as if the events occurred. -/
  | evtSetWrite (u : EvtUnit) (value : Word)
  /-- EVT_CNT_WRITE (R11). A write to EVT_CNT stores counter values, plus any same-cycle hardware increment. -/
  | evtCntWrite (u : EvtUnit) (k : Fin 8) (value : Word)
  /-- TB_CTS_LO_READ (R67). Reading TB_CTS_LO returns CTS [31:0] and latches CTS [63:32] into TB_CTS_HI. -/
  | tbCtsLoRead
  /-- LN_CTS_LO_READ (R125). Reading a lane CTS_LO register latches the high half of the recorded stamp into its CTS_HI. -/
  | lnCtsLoRead (l : LaneId) (dcal : Bool)
  /-- FREQ_TRANSFER (R33). A FREQ header and its data beats are taken whole and checked, then built into a fabric request or answered on FRSP. -/
  | freqTransfer (ip : IpId) (hdr : Option (BitVec 128)) (beats : List Beat)
  /-- HRSP_TRANSFER (R34). An HRSP response is taken whole, matched by TAG and completes the host access it answers. -/
  | hrspTransfer (ip : IpId) (hdr : Option (BitVec 128)) (beats : List Beat)
  /-- HREQ_TIMEOUT (R35). An HREQ has no HRSP by cycle t + 4,096; it completes POISON and its TAG is quarantined. -/
  | hreqTimeout (ip : IpId) (tag : Tag)
  /-- QUARANTINE_EXPIRY (R36). A quarantined TAG is released 65,536 cc after its timeout. -/
  | quarantineExpiry (ip : IpId) (tag : Tag)
  /-- IP_STALL (R37). A receiver holds READY low against VALID for 2^STALL_LOG2 cc and IP_STALL is raised once. -/
  | ipStall (ip : IpId) (ch : IpWait)
  /-- FRSP_DELIVERY (R236). An FRSP data beat is transferred to the host, completing a response to a host request. -/
  | frspDelivery (ip : FrspBeat)
  /-- BLSB_FRAME_RX (R58). A BLSB frame is received from the layer and matched to its request. -/
  | blsbFrameRx (f : BitVec 64)
  /-- BLSB_REQUEST_TIMEOUT (R58). A BLSB request has no answer within 8 ticks and is reissued with the same SEQ. -/
  | blsbRequestTimeout (seq : BitVec 8)
  /-- LASER_STATUS_READ (R58). The adapter issues its periodic LASER_STATUS_READ frame. -/
  | laserStatusRead
  /-- LASER_UNKNOWN (R58). Laser status cannot be read for 1,600 ticks and GLB_BSTS.LASER becomes UNKNOWN. -/
  | laserUnknown
  /-- TICK_BOUNDARY (R21). Cycle 0 of a tick arrives, at which decided, agreed and staged changes take effect. -/
  | tickBoundary
  /-- MARKER_BUILD (R85). At cycle 960 the port engine builds the marker for the next tick. -/
  | markerBuild (p : PortId)
  /-- LEDGER_BUILD (R85). At cycle 448 the port engine builds the ledger of the tick. -/
  | ledgerBuild (p : PortId)
  /-- CALENDAR_READ (R85). At cycle 0 the port engine reads the 256 calendar entries for the next tick. -/
  | calendarRead (p : PortId) (bad : List (Fin 256)) (badFlows : List (Fin 4096))
  /-- POWER_TASK (R260). At cycle 928 the port sets PROP, AGREE and AVALID for the next marker and decides entry to a deeper state. -/
  | powerTask (p : PortId)
  /-- GAP_CAL_STEP (R116). An active or spare lane takes one equaliser, bias and possibly heater gap-calibration step. -/
  | gapCalStep (l : LaneId) (bias : BitVec 12) (heater : Option (BitVec 16)) (atEnd : Bool)
  /-- TICK_OVERRUN (R86). A periodic task is not complete at its start plus budget; the overrun outcome applies and TICK_OVERRUN is raised. -/
  | tickOverrun (item : Fin 8) (unit : BitVec 14)
  /-- BAD_FLIT_RX (R134). A received flit fails FEC, CRC or the header check and is discarded whole; a NAK may become due. -/
  | badFlitRx (p : PortId) (slot : Fin 256) (flit : List Byte)
  /-- DATA_FLIT_RX (R137). A data flit passes the checks and is accepted, held or discarded by sequence, with control fields acted on. -/
  | dataFlitRx (p : PortId) (slot : Fin 256) (flit : List Byte)
  /-- IDLE_FLIT_RX (R135). An idle flit passes the checks and its acknowledgement and credit fields are acted on. -/
  | idleFlitRx (p : PortId) (slot : Fin 256) (flit : List Byte)
  /-- MARKER_RX (R78). A marker flit passes the checks and feeds the time servo, phase check and power handshake. -/
  | markerRx (p : PortId) (flit : MarkerFlits) (ref : Nat)
  /-- LEDGER_RX (R180). A valid ledger is received, its counts latched and the once-per-window credit correction applied. -/
  | ledgerRx (p : PortId) (flit : List Byte) (late : Bool)
  /-- TRAINING_FLIT_RX (R103). A training flit is received and its phase, pass masks and delay exchange are used. -/
  | trainingFlitRx (p : PortId) (slot : Fin 256) (flit : List Byte) (ref : Nat)
  /-- MARKER_LOST (R78). No valid upstream marker arrives by cycle 1,023; the servo holds its trim. -/
  | markerLost
  /-- HOLDOVER_EXPIRED (R80). HOLDOVER has lasted 2^HOLD_MAX_LOG2 ticks and EXPIRED is set. -/
  | holdoverExpired
  /-- FLIT_SLOT (R16). A slot begins and the port sends the marker, ledger, replay copy, scheduled or unscheduled data flit or idle flit. -/
  | flitSlot (p : PortId) (slot : Fin 256) (contended uncorr : Bool)
  /-- PACKET_HANDOFF (R169). A unit hands a whole packet to a port, which starts it against credit and places its slots. -/
  | packetHandoff (p : PortId) (crossed : Nat)
  /-- FLUSH_TIMER (R169). FLUSH_CC cc pass since a flit's first packet slot and the flit is sealed. -/
  | flushTimer (p : PortId)
  /-- ACK_TIMER_EXPIRY (R140). ACK_TIMER cc pass after an acceptance and an acknowledgement becomes due. -/
  | ackTimerExpiry (p : PortId)
  /-- REPLAY_TIMEOUT (R146). The replay timer expires; a replay or selective copy of OLDEST is started unless the direction is dark. -/
  | replayTimeout (p : PortId)
  /-- SEL_ENTER (R149). At the end of a 64-tick window the copy ratio exceeds RATIO_THR and the direction enters selective mode. -/
  | selEnter (p : PortId)
  /-- SEL_EXIT (R151). CLEAN_TICKS clean ticks pass and the direction returns to go-back-N mode. -/
  | selExit (p : PortId)
  /-- DARK_ENTRY (R155). No received flit passes the checks for 1,024 cc and the direction becomes dark. -/
  | darkEntry (p : PortId)
  /-- NO_FLIT_TIMEOUT (R106). The port receives no good flit in 8 whole ticks and a link reset begins. -/
  | noFlitTimeout (p : PortId)
  /-- LOSS_OF_LIGHT (R109). A lane's photocurrent stays below threshold for LOS_CC cc and the lane requests repair. -/
  | lossOfLight (l : LaneId)
  /-- CDR_UNLOCK (R109). A lane's clock recovery loses lock and the lane requests repair. -/
  | cdrUnlock (l : CdrLoss)
  /-- LANE_ERR_WINDOW (R109). A 64-tick window ends with more than ERR_THR corrected bytes on a lane, which requests repair. -/
  | laneErrWindow (l : LaneId)
  /-- SWAP_REQ (R112). A SWAP_REQ lane-control message is received and the peer schedules the swap and answers SWAP_ACK. -/
  | swapReq (p : PortId) (bad : Bool)
  /-- SWAP_ACK (R111). A SWAP_ACK lane-control message is received. -/
  | swapAck (p : PortId) (bad : Bool)
  /-- LANE_SWAP_EFFECTIVE (R112). At cycle 0 of the effective tick both sides switch the failed lane for the spare. -/
  | laneSwapEffective (p : PortId)
  /-- CAL_OUT_REQ (R120). A CAL_OUT_REQ message is received asking to take a lane out for deep calibration. -/
  | calOutReq (p : PortId) (bad : Bool)
  /-- CAL_OUT_ACK (R120). A CAL_OUT_ACK message is received. -/
  | calOutAck (p : PortId) (bad : Bool)
  /-- CAL_IN_REQ (R120). A CAL_IN_REQ message is received asking to return a calibrated lane. -/
  | calInReq (p : PortId) (bad : Bool)
  /-- CAL_IN_ACK (R120). A CAL_IN_ACK message is received. -/
  | calInAck (p : PortId) (bad : Bool)
  /-- CAL_REFUSE (R120). A CAL_REFUSE message is received; the port will retry after 64 ticks. -/
  | calRefuse (p : PortId) (bad : Bool)
  /-- DCAL_RETRY (R120). 64 ticks after a refusal the port retries its deep-calibration request. -/
  | dcalRetry (p : PortId)
  /-- DCAL_DUE (R119). A lane becomes due for deep calibration by period or temperature drift. -/
  | dcalDue (l : LaneId) (temp : BitVec 16)
  /-- DCAL_START (R119). A due lane is chosen within the DCAL_MAX limit and CAL_OUT_REQ is sent. -/
  | dcalStart
  /-- CAL_HANDOVER_EFFECTIVE (R120). At the effective tick a CAL_OUT or CAL_IN hand-over exchanges a lane and the spare. -/
  | calHandoverEffective (p : PortId)
  /-- DCAL_CONVERGED (R120). Both sides report the calibrated lane READY and CAL_IN_REQ is sent. -/
  | dcalConverged (p : PortId) (heater : BitVec 16) (rbias : BitVec 12)
  /-- DCAL_TIMEOUT (R122). A lane in CAL has not converged 12,800 ticks after EFF and becomes FAILED. -/
  | dcalTimeout (p : PortId)
  /-- CAL_OVERDUE (R121). A lane has been due for 1,600,000 ticks without starting. -/
  | calOverdue (l : LaneId)
  /-- LINK_RESET (R106). A link reset begins at cycle 0 and the port starts a warm retraining, with a LINK_RESET record. -/
  | linkReset (p : PortId)
  /-- COLD_TRAINING (R101). A cold training of the port begins, resetting sequence, Sideboard and credit state. -/
  | coldTraining (p : PortId)
  /-- TRAINING_PHASE_END (R101). A training phase ends on completion or budget expiry, lanes drop out and the next phase begins or the training fails. -/
  | trainingPhaseEnd (p : PortId) (done : BitVec 5) (skews : List (BitVec 8))
  /-- LINK_UP (R104). After four agreeing UP flits the link comes up at the computed width and D is published. -/
  | linkUp (p : PortId)
  /-- PEER_TRAINING_JOIN (R379). The CDR pattern or unmodulated light is seen on every active lane for 64 cc and the port joins the peer's training. -/
  | peerTrainingJoin (p : PortId) (light : Bool)
  /-- REQUEST_COMMIT (R194). A request is committed to its route with the next TXID of its pair once the pair window and an entry allow it. -/
  | requestCommit
  /-- TARGET_REQUEST (R193). A request for this die is reassembled and checked for malformation, duplicates, window and permission, then executed or answered. -/
  | targetRequest (p : PortId) (bad chestBad : Bool) (badWins : List (Fin 64))
  /-- RESPONSE_RX (R198). A response arrives at the source, is matched by SRC and TXID range and answers its requester. -/
  | responseRx (p : PortId) (bad : Bool)
  /-- RSP_TIMEOUT (R198). A request has no answer RSP_TIMEOUT ticks after its transmission and is sent again with RETRY or answered TIMEOUT. -/
  | rspTimeout (dst : BitVec 18) (txid : BitVec 20)
  /-- BUSY_RESEND (R198). 64 ticks after a BUSY answer the request is sent again or answered TIMEOUT. -/
  | busyResend (dst : BitVec 18) (txid : BitVec 20)
  /-- RELAY_FORWARD (R207). A packet in transit arrives and is forwarded on the relay reserve or answered UNREACHABLE. -/
  | relayForward (p : PortId)
  /-- PORT_LOST (R205). A port becomes lost at the tick boundary; its Sideboard packets are handed back and routing moves to relay. -/
  | portLost (p : Checked PortId)
  /-- DRAIN_COMPLETE (R209). No request of the affected pairs remains on the relay route and RSTATE becomes DIRECT. -/
  | drainComplete (p : PortId)
  /-- DRAIN_TIMEOUT (R209). Draining outlasts RSP_TIMEOUT × (RETRY_LIM + 1) ticks and RSTATE becomes DIRECT. -/
  | drainTimeout (p : PortId)
  /-- FENCE_GO (R211). GO written to QD_FENCE starts a fence on the named destination, recording NEXT_TXID. -/
  | fenceGo (ip : IpId) (dst : BitVec 18)
  /-- FENCE_COMPLETE (R211). Every earlier write, reduce and atomic of the pair is answered; BUSY falls and RESULT is set. -/
  | fenceComplete (ip : IpId)
  /-- ATOMIC_LANE_ENTRY (R224). An atomic reaches its quad's lane, makes its word live with an HREQ READ or queues on it, waiting while the lane is full. -/
  | atomicLaneEntry (q : QuadId)
  /-- ATOMIC_APPLY (R224). The lane applies one queued atomic to the live word's value in a free cycle. -/
  | atomicApply (q : QuadId)
  /-- ATOMIC_RELEASE_RX (R232). An ATOMIC_RELEASE arrives and frees or marks the matching Chest entry. -/
  | atomicReleaseRx (p : Checked PortId)
  /-- CHEST_AGE_EXPIRY (R232). A filled Chest entry reaches RETAIN ticks of age and becomes free. -/
  | chestAgeExpiry (src : BitVec 18) (txid : BitVec 20)
  /-- LECTERN_REMOTE_ACCESS (R239). A Lectern thread issues a remote access and parks; the next ready thread resumes. -/
  | lecternRemoteAccess (t : ThreadId) (kind : AccessKind) (dst : BitVec 18) (addr : BitVec 48) (bytes : BitVec 13) (data : List Byte)
  /-- SCHED_MODE_CHANGE (R246). At a tick boundary the send direction enters or leaves scheduled mode. -/
  | schedModeChange (p : PortId)
  /-- SCHEDULED_DELIVERY (R252). A scheduled flit's contents are presented at its destination at cycle 1,024T + 4k + D or as soon after as arbitration allows. -/
  | scheduledDelivery (p : PortId) (bad : Bool) (badWins : List (Fin 64))
  /-- EPOCH_ACTIVATION (R256). At cycle 0 of the epoch tick calendars, flow table and groups exchange banks and the epoch and digest take effect. -/
  | epochActivation
  /-- BANK_COPY_BACK (R256). The copy of the banks in force into staging ends and the activation stops being pending. -/
  | bankCopyBack
  /-- POWER_ENTRY (R261). At the tick after agreement the port enters the deeper power state. -/
  | powerEntry (p : PortId)
  /-- POWER_ENTRY_LATE (R262). A side that missed the peer's agreeing marker enters the state one tick later on the peer's CUR or silence. -/
  | powerEntryLate (p : PortId)
  /-- P1_WAKE (R263). A port in P1 returns to P0 at the next tick on traffic, repair, FORCE_WAKE, guard or peer activity. -/
  | p1Wake (p : PortId)
  /-- WAKE_START (R264). A port in P2 or P3 starts a wake on its own trigger, sending the CDR pattern or starting a cold training. -/
  | wakeStart (p : PortId)
  /-- LIGHT_WATCH (R264). The armed light watch sees light for LOS_CC cc and the port joins the peer's wake. -/
  | lightWatch (p : PortId)
  /-- WAKE_COMPLETE (R264). A wake from P2 completes and the port is in P0 at U + 32, carrying out any standing repair. -/
  | wakeComplete (p : PortId)
  /-- WAKE_FAIL (R265). No light by U + 8 or a wake phase overruns; a warm retraining follows. -/
  | wakeFail (p : PortId)
  /-- CONTRIBUTION_ARRIVAL (R292). A contribution reaches a Workbench unit and is folded, held in the window, refused or discarded as a duplicate. -/
  | contributionArrival (u : WbId) (bad : Bool)
  /-- FOLD_COMPLETE (R296). A fold updates the accumulator; the next index is folded from the window or the segment completes. -/
  | foldComplete (u : WbId) (bad : Bool)
  /-- SEGMENT_ENCODED (R296). A completed segment's output in its format is ready and sent or written. -/
  | segmentEncoded (u : WbId)
  /-- ORDER_STALL (R294). An incomplete segment makes no fold for STALL_TICKS ticks. -/
  | orderStall (u : WbId)
  /-- COL_GO (R302). GO in COL_CMD launches a stream, which fetches its descriptor. -/
  | colGo (u : StreamId)
  /-- COL_ABORT (R309). ABORT in COL_CMD fails the stream and sends ABORT to every other member. -/
  | colAbort (u : StreamId)
  /-- COL_DESCRIPTOR_RX (R303). The descriptor READ_DATA arrives and is checked; the stream enters WAIT or FAILED. -/
  | colDescriptorRx (c : Checked StreamId)
  /-- SCRATCH_RESERVED (R306). Enough accumulator scratch becomes free and the stream reserves it. -/
  | scratchReserved (u : StreamId)
  /-- COL_START_TICK (R302). Tick START is reached and the stream enters RUN. -/
  | colStartTick (u : StreamId)
  /-- REDUCE_FOLD_RX (R308). A FOLD or FOLD2 REDUCE arrives and is checked, accepted, held or answered. -/
  | reduceFoldRx (p : PortId) (bad : Bool)
  /-- REDUCE_PLACE_RX (R308). A PLACE REDUCE arrives and its bytes are written to the named region. -/
  | reducePlaceRx (p : PortId) (bad : Bool)
  /-- REDUCE_READY_RX (R316). A READY REDUCE arrives allowing the ring forwarding of the next block. -/
  | reduceReadyRx (p : PortId) (bad : Bool)
  /-- REDUCE_RESTART_RX (R317). A RESTART arrives; older state of the segment is discarded and the roles are performed again. -/
  | reduceRestartRx (p : PortId) (bad : Bool)
  /-- REDUCE_ABORT_RX (R309). An ABORT arrives and a stream in WAIT or RUN ends FAILED with ABORTED. -/
  | reduceAbortRx (p : PortId) (bad : Bool)
  /-- DMA_START (R335). START command to a DMA channel. -/
  | dmaStart (c : ChanId)
  /-- DMA_LOAD (R331). LOAD command queues the shadow descriptor set. -/
  | dmaLoad (c : ChanId)
  /-- DMA_DOORBELL (R332). DOORBELL command refetches HEAD or repeats a prefetch. -/
  | dmaDoorbell (c : ChanId)
  /-- DMA_STOP (R341). STOP command stops the channel at the next descriptor boundary. -/
  | dmaStop (c : ChanId)
  /-- DMA_RESUME (R343). RESUME command runs a halted descriptor again from its first byte. -/
  | dmaResume (c : ChanId)
  /-- DMA_SKIP (R343). SKIP command completes a halted descriptor with its failure code. -/
  | dmaSkip (c : ChanId)
  /-- DMA_RESET (R335). RESET command returns the channel to IDLE. -/
  | dmaReset (c : ChanId)
  /-- DMA_SWEDGE (R339). SWEDGE command counts one software edge. -/
  | dmaSwedge (c : ChanId)
  /-- DESCRIPTOR_FETCHED (R332). A ring entry fetch is answered; the channel runs it, waits for OWN, or refuses it. -/
  | descriptorFetched (c : ChanId)
  /-- EXTENSION_FETCHED (R334). An extension fetch is answered and the next piece or parameters are taken up. -/
  | extensionFetched (c : ChanId)
  /-- INDEX_CHECK_PASS (R357). A GATHER or SCATTER index table is read whole and checked; the move pass starts or IDX_RANGE is latched. -/
  | indexCheckPass (c : ChanId)
  /-- BURST_START (R339). EDGES is at least 1 and the channel begins the next paced burst. -/
  | burstStart (c : ChanId)
  /-- DMA_ENGINE_GRANT (R323). An engine grants one channel's ready transaction by priority and round robin. -/
  | dmaEngineGrant (e : Fin 16) (bad : Bool)
  /-- DMA_TRANSACTION_ANSWER (R336). A DMA read, write or fetch is answered, advancing position or starting a halt. -/
  | dmaTransactionAnswer (c : ChanId)
  /-- WRITE_BACK_ANSWER (R333). A ring write-back is answered OK; HEAD advances and DESC_DONE is raised. -/
  | writeBackAnswer (c : ChanId)
  /-- HALT (R342). All outstanding transactions of a failing descriptor are answered and the channel enters HALTED. -/
  | halt (c : ChanId)
  /-- DMA_STALL (R344). A channel makes no progress for STALLT ticks and STALL is raised. -/
  | dmaStall (c : ChanId)
  /-- DMA_ENGINE_LOST (R346). A DMA engine fails its self-check, leaves service and its channels remap and restart or halt. -/
  | dmaEngineLost (e : Fin 16)
  /-- SHADOW_ATTACH (R374). A shadow engine copies a port's state in the marker slot and starts running in step. -/
  | shadowAttach (q : QuadId)
  /-- SHADOW_ROTATION (R375). After the dwell the shadow takes the port and the former engine runs a BIST slice. -/
  | shadowRotation (q : QuadId)
  /-- ENG_MISMATCH (R377). A shadowed engine and its shadow differ; both stop and the self-check verdicts decide the outcome. -/
  | engMismatch (q : QuadId) (eFails sFails : Bool)
  /-- ENG_SELFCHECK (R378). An unshadowed engine fails its self-check and leaves service; the shadow or port loss follows. -/
  | engSelfcheck (q : QuadId) (e : EngineId) (store uncorr : Bool)
  /-- HANDOVER_EFFECTIVE (R376). At the effective tick an engine hand-over, resumption or take-over with link reset takes effect. -/
  | handoverEffective (q : QuadId)
  /-- ARB_SELFCHECK (R382). A quad arbiter fails its self-check and a quad reset begins. -/
  | arbSelfcheck (q : QuadId)
  /-- QUAD_RESET_TIMEOUT (R382). A quad reset does not complete within 64 ticks and its 16 ports are lost. -/
  | quadResetTimeout (q : QuadId)
  /-- WB_SELFCHECK (R382). A Workbench unit fails its self-check and leaves service at the next tick. -/
  | wbSelfcheck (u : WbId)
  /-- TEST_CONTROLLER_SELFCHECK (R382). The test controller fails its self-check and slices stop. -/
  | testControllerSelfcheck
  /-- CENTRAL_SELFCHECK (R382). The crossbar, atomic unit, protection logic or key store fails its self-check and the adapter enters FAULT. -/
  | centralSelfcheck (unit : CentralUnit)
  /-- TB_MISMATCH (R383). The time-base halves differ; the surviving half is chosen or FAULT is entered. -/
  | tbMismatch (aFails bFails aCts bCts : Bool)
  /-- LECTERN_MISMATCH (R384). The Lectern halves differ; both stop and restart from ROM together or alone. -/
  | lecternMismatch (aFails bFails : Bool)
  /-- LECTERN_RESTART_DONE (R384). A Lectern restart ends with firmware running again in recovery mode. -/
  | lecternRestartDone
  /-- FAULT_LOG_ENTRY (R396). A handed-over fault record is entered in the log in key order and FAULT_RECORD is raised. -/
  | faultLogEntry
  /-- FLT_CLEAR (R397). CLEAR in FLT_CTL empties the fault log. -/
  | fltClear
  /-- PRO_LOCK_ACQ (R408). A MAGENT write of ACQ takes the free protection lock. -/
  | proLockAcq (agent : Bool)
  /-- PRO_LOCK_REL (R408). A MAGENT write of REL frees the protection lock. -/
  | proLockRel (agent : Bool)
  /-- PRO_LOCK_TIMEOUT (R408). 65,536 ticks pass without a MAGENT access to PRO and the lock is freed. -/
  | proLockTimeout
  /-- PRO_STG_WRITE (R408). The host security agent writes a staging image word. -/
  | proStgWrite (agent : Bool) (w : Word)
  /-- PRO_KEY_STG_WRITE (R408). The host security agent writes staged key bytes and KEY_STAGED is set. -/
  | proKeyStgWrite (agent : Bool) (k : Fin 8) (w : Word)
  /-- PRO_CMD_ARM (R410). The host security agent arms a change with a digest and nonce and the image check starts. -/
  | proCmdArm (agent : Bool)
  /-- PRO_CMD_COMMIT (R412). The host security agent commits an armed change with matching digest and nonce. -/
  | proCmdCommit (agent : Bool)
  /-- PRO_CMD_ABORT (R413). The host security agent aborts an armed or checking change. -/
  | proCmdAbort (agent : Bool)
  /-- ARM_CHECK_DONE (R410). The staging image check ends; the change is armed or refused and the ARM answered. -/
  | armCheckDone (bad : Bool)
  /-- PROT_APPLY (R412). At the next tick a committed image becomes the image in force, with any staged key. -/
  | protApply
  /-- ARM_EXPIRY (R413). An armed change is uncommitted at tick T_A + 65,536 and is discarded. -/
  | armExpiry
  /-- MBX_GO (R432). GO in MGT_MBX_CMD submits the mailbox request to the Lectern. -/
  | mbxGo
  /-- PLV_REQ_UPDATE (R433). Update-DR of PLV_REQ submits a test-port Plovirko request. -/
  | plvReqUpdate (bytes : List Byte)
  /-- PLV_RSP_CAPTURE (R433). Capture-DR of PLV_RSP loads the last test-port reply. -/
  | plvRspCapture
  /-- FRAGMENT_RX (R435). A Plovirko fragment is consumed, forwarded, discarded or reassembled into a request. -/
  | fragmentRx (p : PortId) (bad : Bool)
  /-- REASSEMBLY_TIMEOUT (R435). A reassembly context sees no fragment for 256 ticks and is discarded. -/
  | reassemblyTimeout (src : BitVec 18) (pktid : BitVec 8)
  /-- FRAGMENT_CREDIT_TIMEOUT (R435). A fragment waits 64 ticks for a fragment credit on its next port and is discarded. -/
  | fragmentCreditTimeout (p : PortId)
  /-- IDENT (R437). Plovirko IDENT returns ROM and patch identity and die ID. -/
  | ident
  /-- STATE_GET (R430). Plovirko STATE_GET returns the adapter and time state and CTS. -/
  | stateGet
  /-- STATE_SET (R423). Plovirko STATE_SET moves the adapter to an allowed target state. -/
  | stateSet
  /-- DIEID_SET (R430). Plovirko DIEID_SET writes GLB_DIEID in BOOT. -/
  | dieidSet
  /-- PORT_MASK_SET (R430). Plovirko PORT_MASK_SET writes MGT_PORT_MASK in BOOT. -/
  | portMaskSet
  /-- PORT_STATUS (R430). Plovirko PORT_STATUS returns a port's lane, link, route, engine, power, training and schedule status. -/
  | portStatus
  /-- PORT_TRAIN (R430). Plovirko PORT_TRAIN starts a warm or cold training of a port. -/
  | portTrain
  /-- PORT_WIDTH (R430). Plovirko PORT_WIDTH sets WIDTH_MAX and a link reset follows. -/
  | portWidth
  /-- PORT_LOSE (R205). Plovirko PORT_LOSE orders a port lost. -/
  | portLose
  /-- PORT_RETURN (R209). Plovirko PORT_RETURN orders a lost UP port back from relay, entering DRAINING. -/
  | portReturn
  /-- LANE_STATUS (R430). Plovirko LANE_STATUS returns a lane's status, error counts, tuning and eye. -/
  | laneStatus
  /-- LANE_RETURN (R430). Plovirko LANE_RETURN moves a FAILED lane to OFF. -/
  | laneReturn
  /-- ENGINE_RETURN (R381). Plovirko ENGINE_RETURN runs a BIST slice on a port engine and returns it on PASS. -/
  | engineReturn
  /-- UNIT_RETURN (R430). Plovirko UNIT_RETURN runs a BIST slice on a Workbench unit or DMA engine and returns it on PASS. -/
  | unitReturn
  /-- CAL_WRITE (R431). Plovirko CAL_WRITE writes calendar entries into a port's staging bank. -/
  | calWrite
  /-- CAL_READ (R430). Plovirko CAL_READ returns calendar entries of staging or in force. -/
  | calRead
  /-- FLOW_WRITE (R431). Plovirko FLOW_WRITE writes staged flow-table entries. -/
  | flowWrite
  /-- FLOW_READ (R430). Plovirko FLOW_READ returns flow-table entries. -/
  | flowRead
  /-- GROUP_WRITE (R431). Plovirko GROUP_WRITE writes staged group-table entries. -/
  | groupWrite
  /-- GROUP_READ (R430). Plovirko GROUP_READ returns group-table entries. -/
  | groupRead
  /-- MEMBER_WRITE (R431). Plovirko MEMBER_WRITE writes staged member entries. -/
  | memberWrite
  /-- MEMBER_READ (R430). Plovirko MEMBER_READ returns member entries. -/
  | memberRead
  /-- PROT_STAGE (R409). Plovirko PROT_STAGE writes protection staging image words from the fabric manager. -/
  | protStage
  /-- PROT_ARM (R410). Plovirko PROT_ARM arms a protection change from the fabric manager. -/
  | protArm
  /-- PROT_COMMIT (R412). Plovirko PROT_COMMIT commits an armed protection change from the fabric manager. -/
  | protCommit
  /-- PROT_ABORT (R413). Plovirko PROT_ABORT discards an armed or checking protection change. -/
  | protAbort
  /-- PROT_STATUS (R430). Plovirko PROT_STATUS returns protection state, digests and T_A. -/
  | protStatus
  /-- BIST_RUN (R449). Plovirko BIST_RUN requests a logic or memory slice on a unit. -/
  | bistRun
  /-- BIST_STATUS (R447). Plovirko BIST_STATUS returns the last slice outcome. -/
  | bistStatus
  /-- BIST_ABORT (R430). Plovirko BIST_ABORT ends the running slice INCONCLUSIVE. -/
  | bistAbort
  /-- REPAIR_SOFT (R455). Plovirko REPAIR_SOFT enters and queues a soft repair record. -/
  | repairSoft
  /-- REPAIR_BURN (R457). Plovirko REPAIR_BURN presents the fabric manager's part of an eFuse burn. -/
  | repairBurn
  /-- REPAIR_READ (R430). Plovirko REPAIR_READ returns repair records. -/
  | repairRead
  /-- DCAL_REQ (R430). Plovirko DCAL_REQ makes a lane due for deep calibration. -/
  | dcalReq
  /-- CAL_CFG_SET (R430). Plovirko CAL_CFG_SET writes CAL_CFG and CAL_THR. -/
  | calCfgSet
  /-- CAL_STATUS (R430). Plovirko CAL_STATUS returns a lane's calibration counts and stamps. -/
  | calStatus
  /-- LOG_READ (R430). Plovirko LOG_READ returns fault-log records. -/
  | logRead (bad : Option (Fin 1024))
  /-- LOG_CTL (R430). Plovirko LOG_CTL sets the log policy or clears the log. -/
  | logCtl
  /-- REG_READ (R431). Plovirko REG_READ reads registers with the effects of host reads. -/
  | regRead
  /-- REG_WRITE (R431). Plovirko REG_WRITE writes registers in order, stopping at the first rejected word. -/
  | regWrite
  /-- EPOCH_STATUS (R430). Plovirko EPOCH_STATUS returns epochs, digests, pending E and skew mask. -/
  | epochStatus
  /-- EPOCH_SET (R440). Plovirko EPOCH_SET makes an activation pending at tick E if the staged digest matches. -/
  | epochSet (bad : Bool)
  /-- EPOCH_CANCEL (R440). Plovirko EPOCH_CANCEL discards a pending activation before E − 1. -/
  | epochCancel
  /-- TIME_STAGE (R425). Plovirko TIME_STAGE writes TB_CFG_STG. -/
  | timeStage
  /-- TRAIN_TO_READY (R423). All masked ports have ended cold training and time is acquired; the adapter enters READY. -/
  | trainToReady
  /-- QUIESCE_DRAINED (R423). The adapter is drained in QUIESCE and enters READY. -/
  | quiesceDrained
  /-- TRAIN_STALL (R424). The adapter has been in TRAIN 16,000 ticks without leaving. -/
  | trainStall
  /-- QUIESCE_STALL (R424). The adapter has been in QUIESCE past the retry bound without draining. -/
  | quiesceStall
  /-- SLICE_START (R448). A waiting BIST slice starts at cycle 16 of the tick after the previous slice. -/
  | sliceStart
  /-- BIST_STEP (R445). The running slice advances one step of save, march, restore or scan patterns. -/
  | bistStep (sig : BitVec 64) (fails : List (Fin 1024 × Fin 36))
  /-- SLICE_BUDGET_EXPIRY (R446). A slice's steps are incomplete at the end of its budget and it ends INCONCLUSIVE. -/
  | sliceBudgetExpiry
  /-- SLICE_END (R447). A slice ends PASS, FAIL or REPAIRED after its last step, applying spares and returning units as allowed. -/
  | sliceEnd
  /-- SWEEP_TIMER (R448). SWEEP_GAP ticks pass with no slice waiting and the sweep starts a memory slice. -/
  | sweepTimer
  /-- BURN_GO (R457). GO in TST_BURN_CMD presents the host security agent's part of an eFuse burn. -/
  | burnGo (agent : Bool)
  /-- BURN_ABORT (R457). ABORT in TST_BURN_CMD disarms an armed burn. -/
  | burnAbort (agent : Bool)
  /-- BURN_EXPIRY (R457). An armed burn is not completed within 65,536 ticks and is disarmed. -/
  | burnExpiry
  /-- BURN_COMPLETE (R458). Programming and read-back end; BURN_DONE or BURN_FAIL is raised. -/
  | burnComplete (good : Bool)
  /-- TAP_WSP (R460). The WSP instruction reaches the IEEE 1500 wrapper serial port. -/
  | tapWsp (w : WspLoad)
  /-- TAP_TST_ACC (R460). The TST_ACC instruction reads or writes a TST register from the test port. -/
  | tapTstAcc (off : BitVec 16) (write : Bool) (data : Word)
  /-- TAP_MEM_READ (R462). MEM_READ in FROZEN reads an SRAM row, zeroising first. -/
  | tapMemRead (array : Fin 16) (inst : Fin 4096) (row : Fin 1024) (save : Bool)
  /-- TAP_SCAN (R463). SCAN in FROZEN shifts all scan chains, zeroising first. -/
  | tapScan
  /-- TAP_BYPASS (R460). BYPASS, or any instruction not in effect, selects the one-bit bypass register. -/
  | tapBypass
  /-- LN_DCAL_REQ (R125). DCAL_REQ in LN_CTL makes the lane due for deep calibration. -/
  | lnDcalReq (l : LaneId)
  /-- LN_CNT_CLR (R125). CNT_CLR in LN_CTL zeroes the lane's error counters. -/
  | lnCntClr (l : LaneId)
  /-- PRT_RETRAIN (R124). RETRAIN in PRT_LCTL begins a link reset at the next tick. -/
  | prtRetrain (p : PortId)
  /-- PRT_COLD (R124). COLD in PRT_LCTL begins a cold training at the next tick. -/
  | prtCold (p : PortId)
  /-- FORCE_WAKE (R263). FORCE_WAKE in PRT_PWR_CTL wakes the port as for pending traffic. -/
  | forceWake (p : PortId)
  /-- RESET_RELEASE (R52). PORST_N (through its synchroniser) or the filtered WARM_N is released, or VDD_C returns, and the adapter starts the sequence toward BOOT (PLL lock or SRAM initialisation). -/
  | resetRelease
  /-- REFCLK_RETURN (R43). REFCLK edges resume within 64 ticks of a loss; GLB_BSTS.REFCLK_OK rises and the pending FAULT entry is cancelled. -/
  | refclkReturn
  /-- SUPPLY_RESTORED (R46). VDD_A or VDD_H returns within range and the matching GLB_BSTS status bit rises again. -/
  | supplyRestored (vddH : Bool)
  /-- HREQ_TRANSFER (R29). The host raises HREQ HREADY or DREADY and an adapter-driven HREQ header or data beat is transferred, starting the R35 timeout and freeing the Cupboard cells it carried. -/
  | hreqTransfer (ip : IpId) (data : Bool) (bad : BitVec 17)
  /-- QUAD_RESET_COMPLETE (R382). A quad reset finishes within 64 ticks and the quad arbiter and its Workbench units resume service. -/
  | quadResetComplete (q : QuadId)
  /-- RECOVERY_END (R238). The Lectern has logged the outcome of every fault hand-off pending at its restart and leaves recovery, so only thread 0 runs and ATM_LTH.MODE falls. -/
  | recoveryEnd
  /-- PACE_LEVEL_FALL (R40). A PACE line's filtered level falls to 0 after the synchronised input has held low for 4 cc, updating GLB_PACE_LVL and re-arming the line for its next qualified edge. -/
  | paceLevelFall (line : PaceLine)
  /-- UNKNOWN_OPCODE_REQUEST (R427). A Plovirko request whose VER, REPLY or OPC fails check 1 is taken up by the Lectern and answered UNKNOWN_OPCODE with no side effect. -/
  | unknownOpcodeRequest
  deriving DecidableEq, Repr

end Sys2Proof
end

