-- ==== Sys2Proof/Decode.lean ====
section
/-!
DEFINITION. The commands have no encoding: spec/opcode_table.json gives no row any bits.
-/
namespace Sys2Proof

/-- The command a word spells by the table's bits: none, since no row of the table has bits. -/
def decodeTableWord (_nbits _w : Nat) : Option Instr := none

end Sys2Proof
end

