-- ==== Sys2Proof/Machine/Codes.lean ====
section
/-!
DEFINITION. The codes the specification fixes bit by bit: the CRC-8 of R57, the CRC-64 of R133, the
interleaved RS(136,128) code of R132 with the bounded-distance decoder of R134, SHA-256 (R407) and
HMAC-SHA-256 (R409). Bytes are natural numbers below 256 here, so that the kernel evaluates them fast.
-/
namespace Sys2Proof.Machine

/-! ### Cyclic redundancy checks -/

/-- One bit of the CRC-8 of polynomial x^8 + x^2 + x + 1, highest bit first. -/
def crc8Bit (crc bit : Nat) : Nat :=
  let top := (crc >>> 7) ^^^ bit
  let sh := (crc <<< 1) % 256
  if top = 1 then sh ^^^ 0x07 else sh

/-- CRC-8 over bits `n - 1` down to 0 of `w` (R57, R454); the bit order is the model's reading (log 9). -/
def crc8 : Nat → Nat → Nat → Nat
  | 0, _, crc => crc
  | n + 1, w, crc => crc8 n w (crc8Bit crc ((w >>> n) % 2))

/-- One shift of the reflected CRC-64 register of polynomial 0x42F0_E1EB_A9EA_3693 (R133). -/
def crc64Shift (crc : Nat) : Nat :=
  if crc % 2 = 1 then (crc >>> 1) ^^^ 0xC96C5795D7870F42 else crc >>> 1

/-- One byte into the CRC-64 register, least significant bit first. -/
def crc64Byte (crc b : Nat) : Nat :=
  let c := crc ^^^ b
  crc64Shift (crc64Shift (crc64Shift (crc64Shift
    (crc64Shift (crc64Shift (crc64Shift (crc64Shift c)))))))

/-- CRC-64 of a byte string as R133 computes it: preset to ones, result complemented. -/
def crc64 (bs : List Nat) : Nat :=
  (bs.foldl crc64Byte 0xFFFFFFFFFFFFFFFF) ^^^ 0xFFFFFFFFFFFFFFFF

/-! ### Little-endian byte strings -/

/-- The `n` low bytes of `w`, least significant first (R3). -/
def leBytes : Nat → Nat → List Nat
  | 0, _ => []
  | n + 1, w => w % 256 :: leBytes n (w / 256)

/-- The number a byte string spells, least significant byte first (R3). -/
def leNum : List Nat → Nat
  | [] => 0
  | b :: bs => b + 256 * leNum bs

/-- The `n` low bytes of `w`, most significant first. -/
def beBytes (n w : Nat) : List Nat := (leBytes n w).reverse

/-! ### GF(2^8) of R132 -/

/-- Multiplication by the primitive element 0x02. -/
def gfx (a : Nat) : Nat :=
  let s := a <<< 1
  if s < 256 then s else s ^^^ 0x11D

/-- `n` multiplications by 0x02. -/
def gfxPow : Nat → Nat → Nat
  | 0, a => a
  | n + 1, a => gfxPow n (gfx a)

/-- The field product, from the low `n` bits of `b`. -/
def gfMulAux : Nat → Nat → Nat → Nat → Nat
  | 0, _, _, acc => acc
  | n + 1, a, b, acc => gfMulAux n (gfx a) (b >>> 1) (if b % 2 = 1 then acc ^^^ a else acc)

/-- The field product. -/
def gfMul (a b : Nat) : Nat := gfMulAux 8 a b 0

/-- `a` to the power 2^n - 1, times `a`-free accumulator: used for the inverse a^254. -/
def gfInvAux : Nat → Nat → Nat → Nat
  | 0, _, acc => acc
  | n + 1, a, acc =>
    let sq := gfMul a a
    gfInvAux n sq (gfMul acc sq)

/-- The inverse of a non-zero field element, a^254 = a^2 · a^4 · … · a^128. -/
def gfInv (a : Nat) : Nat := gfInvAux 7 a 1

/-- The value of the polynomial with coefficients `cs`, highest first, at 0x02^i. -/
def gfEvalPow (i : Nat) (cs : List Nat) : Nat := cs.foldl (fun acc c => gfxPow i acc ^^^ c) 0

/-- The value of the polynomial with coefficients `cs`, LOWEST first, at `x`. -/
def gfEvalLow (cs : List Nat) (x : Nat) : Nat := cs.foldr (fun c acc => gfMul acc x ^^^ c) 0

/-- Polynomial product, lowest coefficient first. -/
def gfPolyScale (a : Nat) (p : List Nat) : List Nat := p.map (gfMul a)

/-- Coefficientwise sum, lowest first. -/
def gfPolyAdd : List Nat → List Nat → List Nat
  | [], q => q
  | p, [] => p
  | a :: p, b :: q => (a ^^^ b) :: gfPolyAdd p q

/-- Polynomial product, lowest coefficient first. -/
def gfPolyMul : List Nat → List Nat → List Nat
  | [], _ => []
  | a :: p, q => gfPolyAdd (gfPolyScale a q) (0 :: gfPolyMul p q)

/-! ### RS(136,128) of R132 -/

/-- The non-leading coefficients of the generator (x + a^0)(x + a^1) … (x + a^7), highest first. -/
def rsGen : List Nat := [0xFF, 0x0B, 0x51, 0x36, 0xEF, 0xAD, 0xC8, 0x18]

/-- One step of the division by the generator: the message symbol `m` enters the remainder `r`. -/
def rsStep (r : List Nat) (m : Nat) : List Nat :=
  match r with
  | [] => []
  | h :: t =>
    let f := h ^^^ m
    List.zipWith (fun a b => a ^^^ b) (t ++ [0]) (rsGen.map (gfMul f))

/-- The eight parity symbols of a message, parity symbol k the coefficient of x^(7-k) (R132). -/
def rsParity (msg : List Nat) : List Nat := msg.foldl rsStep (List.replicate 8 0)

/-- The eight syndromes of a received word of 136 symbols, highest power first. -/
def rsSyndromes (cw : List Nat) : List Nat := (List.range 8).map (fun i => gfEvalPow i cw)

/-- The state of the Berlekamp–Massey iteration. -/
structure BmState where
  /-- error locator, lowest coefficient first -/
  loc : List Nat
  /-- its copy before the last length change -/
  prev : List Nat
  /-- length of the locator -/
  len : Nat
  /-- discrepancy of the last length change -/
  disc : Nat
  /-- steps since the last length change -/
  gap : Nat
deriving DecidableEq, Repr

/-- One Berlekamp–Massey step at syndrome index `n`. -/
def bmStep (syn : List Nat) (s : BmState) (n : Nat) : BmState :=
  let d := (List.range (s.len + 1)).foldl
    (fun acc i => acc ^^^ gfMul (s.loc.getD i 0) (if i ≤ n then syn.getD (n - i) 0 else 0)) 0
  if d = 0 then { s with gap := s.gap + 1 }
  else
    let corr := List.replicate s.gap 0 ++ gfPolyScale (gfMul d (gfInv s.disc)) s.prev
    if 2 * s.len ≤ n then
      { loc := gfPolyAdd s.loc corr, prev := s.loc, len := n + 1 - s.len, disc := d, gap := 1 }
    else
      { s with loc := gfPolyAdd s.loc corr, gap := s.gap + 1 }

/-- The error locator of a syndrome string. -/
def bmRun (syn : List Nat) : BmState :=
  (List.range 8).foldl (bmStep syn) { loc := [1], prev := [1], len := 0, disc := 1, gap := 1 }

/-- The powers 0x02^0 … 0x02^(n-1), starting from `a`. -/
def gfPowers : Nat → Nat → List Nat
  | 0, _ => []
  | n + 1, a => a :: gfPowers n (gfx a)

/-- The formal derivative of a polynomial, lowest coefficient first. -/
def gfDeriv : List Nat → List Nat
  | [] => []
  | _ :: p => go p true
where
  /-- keeps the coefficients of the odd powers -/
  go : List Nat → Bool → List Nat
    | [], _ => []
    | c :: p, odd => (if odd then c else 0) :: go p (!odd)

/-- The result of decoding one codeword (R134, step 1). -/
inductive RsResult where
  /-- uncorrectable: more than four byte errors, or an error outside the codeword -/
  | uncorrectable
  /-- the corrected codeword and the positions (symbol indices) of the bytes corrected -/
  | ok (cw : List Nat) (positions : List Nat)
deriving DecidableEq, Repr

/-- Decodes one received word: at most four byte errors, all at positions within the codeword, or
uncorrectable (R134, step 1). -/
def rsDecode (cw : List Nat) : RsResult :=
  let syn := rsSyndromes cw
  if syn.all (· = 0) then .ok cw []
  else
    let b := bmRun syn
    if b.len > 4 then .uncorrectable
    else
      -- symbol j carries the power 135 - j, so its locator is 0x02^(135-j)
      let locs := (gfPowers 136 1).reverse
      let hits := (List.zip (List.range 136) locs).filter (fun e => gfEvalLow b.loc (gfInv e.2) = 0)
      if hits.length ≠ b.len then .uncorrectable
      else
        let omega := (gfPolyMul syn b.loc).take 8
        let der := gfDeriv b.loc
        let errs := hits.map fun e =>
          let xi := gfInv e.2
          (e.1, gfMul e.2 (gfMul (gfEvalLow omega xi) (gfInv (gfEvalLow der xi))))
        let fixed := errs.foldl (fun (c : List Nat) e => c.set e.1 (c.getD e.1 0 ^^^ e.2)) cw
        if (rsSyndromes fixed).all (· = 0) then .ok fixed (errs.map (·.1)) else .uncorrectable

/-! ### SHA-256 (FIPS 180-4) and HMAC (FIPS 198-1), named by R407 and R409 -/

/-- Four bytes are a word, the first its highest. -/
def beWords : List Nat → List Nat
  | a :: b :: c :: d :: t => (((a * 256 + b) * 256 + c) * 256 + d) :: beWords t
  | _ => []

/-- The constants of the sixty-four rounds, sixteen to a number, the first in its highest 32 bits. -/
def shaConsts : List Nat :=
  [0x428A2F9871374491B5C0FBCFE9B5DBA53956C25B59F111F1923F82A4AB1C5ED5D807AA9812835B01243185BE550C7DC372BE5D7480DEB1FE9BDC06A7C19BF174,
   0xE49B69C1EFBE47860FC19DC6240CA1CC2DE92C6F4A7484AA5CB0A9DC76F988DA983E5152A831C66DB00327C8BF597FC7C6E00BF3D5A7914706CA635114292967,
   0x27B70A852E1B21384D2C6DFC53380D13650A7354766A0ABB81C2C92E92722C85A2BFE8A1A81A664BC24B8B70C76C51A3D192E819D6990624F40E3585106AA070,
   0x19A4C1161E376C082748774C34B0BCB5391C0CB34ED8AA4A5B9CCA4F682E6FF3748F82EE78A5636F84C878148CC7020890BEFFFAA4506CEBBEF9A3F7C67178F2].flatMap (fun k => beWords (beBytes 64 k))

/-- The exclusive or of the rotations of a word to the right by the places listed. -/
def shaRots (places : List Nat) (w : Nat) : Nat :=
  places.foldl (fun x n => x ^^^ (w * 0x100000001) >>> n % 0x100000000) 0

/-- A round: the working variables a to d stand in one number of 128 bits and e to h in another, the first of each highest; a new
word enters each from above and its last one leaves. -/
def shaStep (v : Nat × Nat) (kw : Nat) : Nat × Nat :=
  let lane (x i : Nat) := x >>> (96 - 32 * i) % 0x100000000
  let (x, y) := v
  let choice := lane y 2 ^^^ (lane y 0 &&& (lane y 1 ^^^ lane y 2))
  let most := (lane x 0 &&& lane x 1) ||| (lane x 2 &&& (lane x 0 ||| lane x 1))
  let t := lane y 3 + shaRots [6, 11, 25] (lane y 0) + choice + kw
  ((t + shaRots [2, 13, 22] (lane x 0) + most) % 0x100000000 * 2 ^ 96 + x >>> 32, (lane x 3 + t) % 0x100000000 * 2 ^ 96 + y >>> 32)

/-- The message schedule, latest word first: `n` more words after those of the block. -/
def shaSchedule : Nat → List Nat → List Nat
  | 0, ws => ws
  | n + 1, ws =>
    let old (i : Nat) := ws.getD (i - 1) 0
    shaSchedule n (((old 16 + old 7 + (shaRots [7, 18] (old 15) ^^^ old 15 >>> 3) + (shaRots [17, 19] (old 2) ^^^ old 2 >>> 10))
      % 0x100000000) :: ws)

/-- Word by word, two numbers of four words are added modulo 2^32. -/
def shaSum (x y : Nat) : Nat := [0, 1, 2, 3].foldl (fun s i => s + (x >>> (32 * i) + y >>> (32 * i)) % 0x100000000 * 2 ^ (32 * i)) 0

/-- A block of 64 bytes goes into the hash value. -/
def shaBlock (v : Nat × Nat) (blk : List Nat) : Nat × Nat :=
  let r := (List.zipWith (· + ·) shaConsts (shaSchedule 48 (beWords blk).reverse).reverse).foldl shaStep v
  (shaSum v.1 r.1, shaSum v.2 r.2)

/-- The blocks of a padded message, at most `n` of them. -/
def shaBlocks : Nat → List Nat → Nat × Nat → Nat × Nat
  | 0, _, v => v
  | n + 1, bs, v => if bs.isEmpty then v else shaBlocks n (bs.drop 64) (shaBlock v (bs.take 64))

/-- The padding of a message of `len` bytes. -/
def shaPad (len : Nat) : List Nat :=
  0x80 :: (List.replicate ((119 - len % 64) % 64) 0 ++ beBytes 8 (8 * len))

/-- The SHA-256 hash of a byte string, 32 bytes. -/
def sha256 (bs : List Nat) : List Nat :=
  let m := bs ++ shaPad bs.length
  let v := shaBlocks (m.length / 64) m (0x6A09E667BB67AE853C6EF372A54FF53A, 0x510E527F9B05688C1F83D9AB5BE0CD19)
  beBytes 16 v.1 ++ beBytes 16 v.2

/-- HMAC-SHA-256 under a key of at most 64 bytes. -/
def hmacSha256 (key bs : List Nat) : List Nat :=
  let k := key ++ List.replicate (64 - key.length) 0
  sha256 (k.map (· ^^^ 0x5C) ++ sha256 (k.map (· ^^^ 0x36) ++ bs))

end Sys2Proof.Machine
end

