-- ==== Sys2Proof/Config.lean ====
section
/-!
DEFINITION. What an implementation fixes and the specification leaves open: constants with no body, so
that no proof can lean on a value of theirs. Each is named in a row of notes/assumptions.
-/
namespace Sys2Proof

/-- A fresh value of no stated kind: the n-th value the specification leaves open (log 3). -/
opaque Config.freeValue : Nat → Nat

/-- The natural logarithm of a negative binary32 number, for which R288 states no result (log 20). -/
opaque Config.lnNegative : Nat → Nat

/-- The proportional and integral gains of the time servo, fixed in hardware and not stated, in 1/100 ppm per 1/16 cc with
`servoFraction` fraction bits (R82; log 21). -/
opaque Config.servoKp : Int
opaque Config.servoKi : Int
opaque Config.servoFraction : Nat

/-- The frequency estimate of acquisition: the trim in 1/100 ppm that cancels the difference seen over
sixteen markers; R81 does not state the estimator (log 21). -/
opaque Config.acquireTrim : List Int → Int

/-- The Chest set of a source die and TXID: a hash fixed in hardware and not stated (R230; log 22). -/
opaque Config.chestHash : Nat → Nat → Nat

/-- The reference signature ROM holds for an object type (R452; log 23): 0 port engine, 1 Workbench unit, 2 DMA read
engine, 3 DMA write engine, 4 quad arbiter, 5 atomic unit, 6 protection logic. -/
opaque Config.bistReference : Nat → Nat

/-- The layer's default heater code of a lane cell, loaded by PORST_N (R50; log 25). -/
opaque Config.heaterDefault : Nat → Nat

/-- The park code the layer gives a heater in P3 (R258; log 25). -/
opaque Config.heaterPark : Nat

end Sys2Proof
end

