-- ==== Sys2Proof/Machine/RegMap.lean ====
section
/-!
DEFINITION. The register map: where every register lies (R479, R487), which fields it has, their access
types (R5), reset values and ranges (R7), and the events each event block defines (R488).
-/
namespace Sys2Proof.Machine

/-- The access type of a register field (R5). `cmd` is a WO field whose write performs an action. -/
inductive Acc where
  | ro | rw | wo | w1c | w1s | rwl | rw2
  deriving DecidableEq, Repr

/-- One field of a register: its lowest bit, width, access type, reset value, and its range where the
specification states one (R7). -/
structure Field where
  lo : Nat
  w : Nat
  acc : Acc
  reset : Nat := 0
  lim : Option (Nat × Nat) := none
  deriving DecidableEq, Repr

/-- A read-only field with reset value `r`. -/
def ro (lo w : Nat) (r : Nat := 0) : Field := ⟨lo, w, .ro, r, none⟩
/-- A read-write field with reset value `r`; every value of its width is in range. -/
def rw (lo w : Nat) (r : Nat := 0) : Field := ⟨lo, w, .rw, r, none⟩
/-- A read-write field with reset value `r` and range `a` to `b`. -/
def rwIn (lo w r a b : Nat) : Field := ⟨lo, w, .rw, r, some (a, b)⟩
/-- A lockable field (RWL) with reset value `r`. -/
def rwl (lo w : Nat) (r : Nat := 0) : Field := ⟨lo, w, .rwl, r, none⟩
/-- A lockable field (RWL) with a range. -/
def rwlIn (lo w r a b : Nat) : Field := ⟨lo, w, .rwl, r, some (a, b)⟩
/-- A two-party field (RW2). -/
def rw2 (lo w : Nat) (r : Nat := 0) : Field := ⟨lo, w, .rw2, r, none⟩
/-- A write-only command field. -/
def wo (lo w : Nat) : Field := ⟨lo, w, .wo, 0, none⟩
/-- A write-one-to-clear field. -/
def w1c (lo w : Nat) (r : Nat := 0) : Field := ⟨lo, w, .w1c, r, none⟩

/-- A row of a block's register table: offset of the first, how many, stride, fields. -/
structure RegRow where
  off : Nat
  n : Nat := 1
  stride : Nat := 4
  fields : List Field
  deriving DecidableEq, Repr

/-- Whether a row holds the register at offset `o`. -/
def RegRow.holds (r : RegRow) (o : Nat) : Bool :=
  decide (r.off ≤ o) && ((o - r.off) % r.stride == 0) && decide ((o - r.off) / r.stride < r.n)

/-- The fields of the register at offset `o` of a block, if one lies there. -/
def rowAt (rows : List RegRow) (o : Nat) : Option (List Field) :=
  (rows.find? (fun r => r.holds o)).map (·.fields)

/-! ### Bases of the blocks (R479) and of their event blocks (R487) -/

/-- Base of the QD block of quad `q`. -/
def qdBase (q : Nat) : Nat := 0x08000 + q * 0x1000
/-- Base of the registers of inner port `i` in its quad's block (R64, R216). -/
def ipBase (i : Nat) : Nat := qdBase (i / 4) + 0x100 + 0x20 * (i % 4)
/-- Base of the PRT block of port `p`. -/
def prtBase (p : Nat) : Nat := 0x10000 + p * 0x400
/-- Base of the LN block of lane `l`. -/
def lnBase (l : Nat) : Nat := 0x20000 + l * 0x80
/-- Base of the registers of DMA channel `c`. -/
def dmaChBase (c : Nat) : Nat := 0x31000 + c * 0x100
/-- Base of the registers of window `w`. -/
def winBase (w : Nat) : Nat := 0x03400 + w * 0x20
/-- Base of the counters of Workbench unit `u` (R297). -/
def wbBase (u : Nat) : Nat := 0x40040 + 0x20 * u
/-- Base of the staging calendar of port `p`. -/
def calBase (p : Nat) : Nat := 0x60000 + p * 0x400

def evGlb : Nat := 0x00FC0
def evTb : Nat := 0x01FC0
def evMgt : Nat := 0x02FC0
def evPro : Nat := 0x03FC0
def evCal : Nat := 0x04F80
def evPwr : Nat := 0x04FC0
def evQd (q : Nat) : Nat := qdBase q + 0xFC0
def evPrt (p : Nat) : Nat := prtBase p + 0x3C0
def evLn (l : Nat) : Nat := lnBase l + 0x40
def evDma : Nat := 0x30FC0
def evDmaCh (c : Nat) : Nat := dmaChBase c + 0xC0
def evWb : Nat := 0x40FC0
def evAtm : Nat := 0x48FC0
def evTst : Nat := 0x50FC0

/-- The interrupt outputs (R41). -/
inductive Irq where
  | fault | dma | coll | mgt
  deriving DecidableEq, Repr

/-! ### Addresses of single registers -/

def glbDieid : Nat := 0x010
def glbBsts : Nat := 0x040
def glbRstcause : Nat := 0x044
def glbLock : Nat := 0x048
def glbPaceLvl (j : Nat) : Nat := 0x080 + 4 * j
def tbCfgStg : Nat := 0x1000
def tbCfg : Nat := 0x1004
def tbSts : Nat := 0x1008
def tbOffset : Nat := 0x100C
def tbTrim : Nat := 0x1010
def tbLimits : Nat := 0x1014
def tbCtsLo : Nat := 0x1018
def tbCtsHi : Nat := 0x101C
def tbOvrSts : Nat := 0x1020
def tbOvrCnt (k : Nat) : Nat := 0x1024 + 4 * k
def tbLinkdly (p : Nat) : Nat := 0x1100 + 4 * p
def tbPeerOfs (p : Nat) : Nat := 0x1200 + 4 * p
def qdIpCtl (i : Nat) : Nat := ipBase i
def qdIpSts (i : Nat) : Nat := ipBase i + 4
def qdIpErrcnt (i : Nat) : Nat := ipBase i + 8
def qdIpErrcnt2 (i : Nat) : Nat := ipBase i + 12

def fltCtl : Nat := 0x200
def fltSts : Nat := 0x204
def fltLost : Nat := 0x208
def fltRecno : Nat := 0x20C
def fltIdx : Nat := 0x210
def fltRec (k : Nat) : Nat := 0x220 + 4 * k
def glbTxCtl : Nat := 0x100
def glbTxSts : Nat := 0x104
def glbTxCnt (k : Nat) : Nat := 0x108 + 4 * k
def mgtState : Nat := 0x2000
def mgtPortMask (h : Nat) : Nat := 0x2008 + 4 * h
def mgtPatch : Nat := 0x2018
def mgtEpoch : Nat := 0x2020
def mgtDig (h : Nat) : Nat := 0x2024 + 4 * h
def mgtSdig (h : Nat) : Nat := 0x202C + 4 * h
def mgtPend : Nat := 0x2034
def mgtPendEpoch : Nat := 0x2038
def mgtPendTick (h : Nat) : Nat := 0x203C + 4 * h
def mgtSkew (h : Nat) : Nat := 0x2044 + 4 * h
def mgtMbxCmd : Nat := 0x2050
def mgtMbxSts : Nat := 0x2054
def mgtPlvCnt (k : Nat) : Nat := 0x2060 + 4 * k
def mgtMbxReq (k : Nat) : Nat := 0x2400 + 4 * k
def mgtMbxRsp (k : Nat) : Nat := 0x2800 + 4 * k
def proSts : Nat := 0x3000
def proLock : Nat := 0x3004
def proCmd : Nat := 0x3008
def proArgDig (h : Nat) : Nat := 0x3010 + 4 * h
def proArgNonce (h : Nat) : Nat := 0x3018 + 4 * h
def proArmDig (h : Nat) : Nat := 0x3020 + 4 * h
def proArmTick : Nat := 0x3028
def proCurDig (h : Nat) : Nat := 0x3030 + 4 * h
def proStgDig (h : Nat) : Nat := 0x3038 + 4 * h
def proStgIdx : Nat := 0x3040
def proStgData : Nat := 0x3044
def proFmNonce (h : Nat) : Nat := 0x3048 + 4 * h
def proCnt : Nat := 0x3050
def proKeyStg (k : Nat) : Nat := 0x3060 + 4 * k
def proSgs (j : Nat) : Nat := 0x3100 + 4 * j
def proSglIdx : Nat := 0x3120
def proSgl : Nat := 0x3124
def rtRelay (p : Nat) : Nat := 0x3200 + 4 * p
def rtCtl : Nat := 0x3300
def winReg (w k : Nat) : Nat := winBase w + 4 * k
def winSts (w : Nat) : Nat := winBase w + 0x1C
def calCfg : Nat := 0x4000
def calThr : Nat := 0x4004
def calSts : Nat := 0x4008
def schFlowIdx : Nat := 0x4100
def schFlowStg : Nat := 0x4104
def schFlowAct : Nat := 0x4108
def schSts : Nat := 0x410C
def pwrSts : Nat := 0x4200
def qdFence (i : Nat) : Nat := ipBase i + 0x10
def qdFenceSts (i : Nat) : Nat := ipBase i + 0x14
def qdShdCtl (q : Nat) : Nat := qdBase q + 0x200
def qdShdSts (q : Nat) : Nat := qdBase q + 0x204
def qdEngSts (q : Nat) : Nat := qdBase q + 0x208
def qdEngCnt (q : Nat) : Nat := qdBase q + 0x20C
def qdRotCnt (q : Nat) : Nat := qdBase q + 0x210
def prtLinkCtl (p : Nat) : Nat := prtBase p
def prtLinkCtl2 (p : Nat) : Nat := prtBase p + 0x004
def prtLinkSts (p : Nat) : Nat := prtBase p + 0x008
def prtSeqTx (p : Nat) : Nat := prtBase p + 0x00C
def prtSeqRx (p : Nat) : Nat := prtBase p + 0x010
def prtCntTx (p : Nat) : Nat := prtBase p + 0x020
def prtCntRx (p : Nat) : Nat := prtBase p + 0x024
def prtCntCopy (p : Nat) : Nat := prtBase p + 0x028
def prtCntDup (p : Nat) : Nat := prtBase p + 0x02C
def prtCntFec (p : Nat) : Nat := prtBase p + 0x030
def prtCntBad (p : Nat) : Nat := prtBase p + 0x034
def prtCntProto (p : Nat) : Nat := prtBase p + 0x038
def prtCntNak (p : Nat) : Nat := prtBase p + 0x03C
def prtCntReplay (p : Nat) : Nat := prtBase p + 0x040
def prtCntSel (p : Nat) : Nat := prtBase p + 0x044
def prtRatio (p : Nat) : Nat := prtBase p + 0x048
def prtPoolcfg (p : Nat) : Nat := prtBase p + 0x080
def prtVcmap (p : Nat) : Nat := prtBase p + 0x084
def prtVclim (p v : Nat) : Nat := prtBase p + 0x088 + 4 * v
def prtPoolOut (p k : Nat) : Nat := prtBase p + 0x0A8 + 4 * k
def prtShared (p : Nat) : Nat := prtBase p + 0x0CC
def prtHat (p : Nat) : Nat := prtBase p + 0x0D0
def prtCup (p : Nat) : Nat := prtBase p + 0x0D4
def prtCcorr (p : Nat) : Nat := prtBase p + 0x0D8
def prtRoute (p : Nat) : Nat := prtBase p + 0x0E0
def prtSchedSts (p : Nat) : Nat := prtBase p + 0x100
def prtSchedD (p : Nat) : Nat := prtBase p + 0x104
def prtCalIdx (p : Nat) : Nat := prtBase p + 0x108
def prtCalAct (p : Nat) : Nat := prtBase p + 0x10C
def prtSchedCnt (p k : Nat) : Nat := prtBase p + 0x110 + 4 * k
def prtPwrCtl (p : Nat) : Nat := prtBase p + 0x120
def prtPwrWake (p : Nat) : Nat := prtBase p + 0x124
def prtPwrSts (p : Nat) : Nat := prtBase p + 0x128
def prtPwrCnt (p : Nat) : Nat := prtBase p + 0x12C
def prtPwrRes (p k : Nat) : Nat := prtBase p + 0x130 + 4 * k
def prtEng (p : Nat) : Nat := prtBase p + 0x180
def prtPeerFsum (p k : Nat) : Nat := prtBase p + 0x190 + 4 * k
def prtLmap (p : Nat) : Nat := prtBase p + 0x300
def prtLctl (p : Nat) : Nat := prtBase p + 0x304
def prtLtrn (p : Nat) : Nat := prtBase p + 0x308
def prtLtemp (p : Nat) : Nat := prtBase p + 0x30C
def prtLswap (p : Nat) : Nat := prtBase p + 0x310
def lnCtl (l : Nat) : Nat := lnBase l
def lnSts (l : Nat) : Nat := lnBase l + 0x04
def lnErrcnt (l : Nat) : Nat := lnBase l + 0x08
def lnPiloterr (l : Nat) : Nat := lnBase l + 0x0C
def lnGcalCnt (l : Nat) : Nat := lnBase l + 0x10
def lnDcalCnt (l : Nat) : Nat := lnBase l + 0x14
def lnGcalCtsLo (l : Nat) : Nat := lnBase l + 0x18
def lnGcalCtsHi (l : Nat) : Nat := lnBase l + 0x1C
def lnDcalCtsLo (l : Nat) : Nat := lnBase l + 0x20
def lnDcalCtsHi (l : Nat) : Nat := lnBase l + 0x24
def lnTune (l : Nat) : Nat := lnBase l + 0x28
def lnEye (l : Nat) : Nat := lnBase l + 0x2C
def dmaCtl : Nat := 0x30000
def dmaEng : Nat := 0x30004
def dmaDress : Nat := 0x30008
def dmaSts : Nat := 0x3000C
def dmaEngOut (e : Nat) : Nat := 0x30010 + 4 * e
def chCfg (c : Nat) : Nat := dmaChBase c
def chCmd (c : Nat) : Nat := dmaChBase c + 0x04
def chSts (c : Nat) : Nat := dmaChBase c + 0x08
def chStall (c : Nat) : Nat := dmaChBase c + 0x0C
def chRbaseLo (c : Nat) : Nat := dmaChBase c + 0x10
def chRbaseHi (c : Nat) : Nat := dmaChBase c + 0x14
def chRing (c : Nat) : Nat := dmaChBase c + 0x18
def chRpos (c : Nat) : Nat := dmaChBase c + 0x1C
def chWdone (c : Nat) : Nat := dmaChBase c + 0x20
def chEdges (c : Nat) : Nat := dmaChBase c + 0x24
def chFaddrLo (c : Nat) : Nat := dmaChBase c + 0x28
def chFaddrHi (c : Nat) : Nat := dmaChBase c + 0x2C
def chFdie (c : Nat) : Nat := dmaChBase c + 0x30
def chFpos (c : Nat) : Nat := dmaChBase c + 0x34
def chCnt0 (c : Nat) : Nat := dmaChBase c + 0x38
def chCnt1 (c : Nat) : Nat := dmaChBase c + 0x3C
def chShd (c k : Nat) : Nat := dmaChBase c + 0x40 + 4 * k
def chCur (c k : Nat) : Nat := dmaChBase c + 0x80 + 4 * k
def wbCtl : Nat := 0x40000
def wbSts : Nat := 0x40004
def wbOcc (u : Nat) : Nat := wbBase u
def wbCntFold (u : Nat) : Nat := wbBase u + 0x04
def wbCntVal (u : Nat) : Nat := wbBase u + 0x08
def wbCntQnt (u : Nat) : Nat := wbBase u + 0x0C
def wbCntOrd (u : Nat) : Nat := wbBase u + 0x10
def wbCntErr (u : Nat) : Nat := wbBase u + 0x14
def wbCntSr (u : Nat) : Nat := wbBase u + 0x18
def colDaddrLo : Nat := 0x40400
def colDaddrHi : Nat := 0x40404
def colCmd : Nat := 0x40408
def colCfg : Nat := 0x4040C
def colIdx : Nat := 0x40410
def colSsts : Nat := 0x40414
def colScid : Nat := 0x40418
def colSprog : Nat := 0x4041C
def colStall : Nat := 0x40420
def colSts : Nat := 0x40424
def colGrpIdx : Nat := 0x40430
def colGrpStg : Nat := 0x40434
def colGrpAct : Nat := 0x40438
def colMemIdx : Nat := 0x4043C
def colMemStg : Nat := 0x40440
def colMemAct : Nat := 0x40444
def colCnt (k : Nat) : Nat := 0x40450 + 4 * k
def atmCtl : Nat := 0x48000
def atmSts : Nat := 0x48004
def atmCntExec : Nat := 0x48008
def atmCntHit : Nat := 0x4800C
def atmCntErr : Nat := 0x48010
def atmCntRel : Nat := 0x48014
def atmCntExp : Nat := 0x48018
def atmHot (q : Nat) : Nat := 0x48020 + 4 * q
def atmRre (i : Nat) : Nat := 0x48040 + 4 * i
def atmLth : Nat := 0x48080
def tstCtl : Nat := 0x50000
def tstSts : Nat := 0x50004
def tstMem : Nat := 0x50008
def tstSave : Nat := 0x5000C
def tstSig (h : Nat) : Nat := 0x50010 + 4 * h
def tstCnt0 : Nat := 0x50018
def tstCnt1 : Nat := 0x5001C
def tstSrepIdx : Nat := 0x50020
def tstSrep (k : Nat) : Nat := 0x50024 + 4 * k
def tstBurnRec (k : Nat) : Nat := 0x50040 + 4 * k
def tstBurnCmd : Nat := 0x50050
def tstBurnSts : Nat := 0x50054
def tstEfuse : Nat := 0x50058

/-! ### The registers of each block, from the tables of the owning chapters

A field that shows the state of a unit (`shown`) has reset value 0 here: what it shows at reset follows from the unit. -/

/-- GLB: R60 to R62, R212, R399. -/
def glbRows : List RegRow := [
  ⟨0x010, 1, 4, [rwl 0 18]⟩,
  ⟨0x040, 1, 4, [ro 0 1 1, ro 1 1 1, ro 2 1 1, ro 3 1 1, ro 4 2 3, ro 6 1 0]⟩,
  ⟨0x044, 1, 4, [w1c 0 1, w1c 1 1, w1c 2 1, w1c 3 1]⟩,
  ⟨0x048, 1, 4, [ro 0 2, ro 2 2, rw 8 8]⟩,
  ⟨0x080, 8, 4, [ro 0 32]⟩,
  ⟨0x100, 1, 4, [rwIn 0 11 256 128 2047, rwIn 11 4 3 1 15, rwIn 16 16 3200 512 65535]⟩,
  ⟨0x104, 1, 4, [ro 0 13, ro 16 13]⟩,
  ⟨0x108, 3, 4, [rw 0 16, rw 16 16]⟩,
  ⟨0x114, 1, 4, [rw 0 32]⟩,
  ⟨0x118, 3, 4, [rw 0 16, rw 16 16]⟩,
  ⟨0x200, 1, 4, [rw 0 1, wo 1 1]⟩,
  ⟨0x204, 1, 4, [ro 0 10, ro 11 11]⟩,
  ⟨0x208, 1, 4, [rw 0 32]⟩,
  ⟨0x20C, 1, 4, [ro 0 32]⟩,
  ⟨0x210, 1, 4, [rw 0 10, ro 31 1]⟩,
  ⟨0x220, 8, 4, [ro 0 32]⟩]

/-- TB: R90. -/
def tbRows : List RegRow := [
  ⟨0x000, 1, 4, [rwIn 0 2 0 0 2, rw 8 6, rw 14 18]⟩,
  ⟨0x004, 1, 4, [ro 0 2, ro 8 6, ro 14 18]⟩,
  ⟨0x008, 1, 4, [ro 0 3, ro 3 1, ro 4 4, ro 8 8, ro 16 16]⟩,
  ⟨0x00C, 1, 4, [ro 0 16, ro 16 16]⟩,
  ⟨0x010, 1, 4, [ro 0 16]⟩,
  ⟨0x014, 1, 4, [rwlIn 0 8 16 4 255, rwlIn 8 5 12 8 16]⟩,
  ⟨0x018, 2, 4, [ro 0 32]⟩,
  ⟨0x020, 1, 4, [ro 0 3, ro 3 14]⟩,
  ⟨0x024, 2, 4, [rw 0 8, rw 8 8, rw 16 8, rw 24 8]⟩,
  ⟨0x100, 64, 4, [ro 0 16, ro 16 1]⟩,
  ⟨0x200, 64, 4, [ro 0 16, ro 16 1]⟩]

/-- MGT: R443. ROM_ID is the shipped mask's. -/
def mgtRows : List RegRow := [
  ⟨0x000, 1, 4, [ro 0 4, ro 4 4]⟩,
  ⟨0x008, 2, 4, [rwl 0 32 0xFFFFFFFF]⟩,
  ⟨0x010, 1, 4, [ro 0 32 0x1D640001]⟩,
  ⟨0x014, 1, 4, [ro 0 32]⟩,
  ⟨0x018, 1, 4, [ro 0 7]⟩,
  ⟨0x020, 5, 4, [ro 0 32]⟩,
  ⟨0x034, 1, 4, [ro 0 1]⟩,
  ⟨0x038, 5, 4, [ro 0 32]⟩,
  ⟨0x050, 1, 4, [wo 0 1]⟩,
  ⟨0x054, 1, 4, [ro 0 2, ro 2 1, ro 16 16]⟩,
  ⟨0x060, 3, 4, [rw 0 16, rw 16 16]⟩,
  ⟨0x400, 132, 4, [rw 0 32]⟩,
  ⟨0x800, 132, 4, [ro 0 32]⟩]

/-- PRO with the relay tables: R215, R420. -/
def proRows : List RegRow := [
  ⟨0x000, 1, 4, [ro 0 2, ro 2 1, ro 3 1, ro 4 1, ro 5 1, ro 6 1 1, ro 8 4]⟩,
  ⟨0x004, 1, 4, [wo 0 1, wo 1 1]⟩,
  ⟨0x008, 1, 4, [wo 0 1, wo 1 1, wo 2 1]⟩,
  ⟨0x010, 4, 4, [rw 0 32]⟩,
  ⟨0x020, 3, 4, [ro 0 32]⟩,
  ⟨0x030, 4, 4, [ro 0 32]⟩,
  ⟨0x040, 1, 4, [rwIn 0 11 0 0 1099]⟩,
  ⟨0x044, 1, 4, [rw 0 32]⟩,
  ⟨0x048, 2, 4, [ro 0 32]⟩,
  ⟨0x050, 1, 4, [rw 0 16, rw 16 16]⟩,
  ⟨0x060, 8, 4, [wo 0 32]⟩,
  ⟨0x100, 8, 4, [rw2 0 32]⟩,
  ⟨0x120, 1, 4, [rw 0 9]⟩,
  ⟨0x124, 1, 4, [rw2 0 32]⟩,
  ⟨0x200, 64, 4, [rw2 0 6, rw2 6 1]⟩,
  ⟨0x300, 1, 4, [rw2 0 1]⟩]

/-- One window: R214. -/
def winRows : List RegRow := [
  ⟨0x00, 1, 4, [rw2 12 20]⟩,
  ⟨0x04, 1, 4, [rw2 0 16]⟩,
  ⟨0x08, 1, 4, [rw2 12 20]⟩,
  ⟨0x0C, 1, 4, [rw2 0 16]⟩,
  ⟨0x10, 1, 4, [rw2 0 1, rw2 1 6, rw2 7 4, rw2 11 1, rw2 12 1, rw2 13 1, rw2 14 1]⟩,
  ⟨0x14, 1, 4, [rw2 0 16]⟩,
  ⟨0x18, 1, 4, [rw2 0 18, rw2 18 6]⟩,
  ⟨0x1C, 1, 4, [ro 0 16, ro 16 1, w1c 17 1]⟩]

/-- CAL and PWR: R127, R268. -/
def calRows : List RegRow := [
  ⟨0x000, 1, 4, [rwIn 0 12 2000 100 2000, rwIn 12 8 24 8 64, rwIn 20 4 8 1 8]⟩,
  ⟨0x004, 1, 4, [rwIn 0 16 1024 16 65535, rwIn 16 8 64 16 255]⟩,
  ⟨0x008, 1, 4, [ro 0 4, ro 4 9]⟩,
  ⟨0x100, 1, 4, [rw 0 12]⟩,
  ⟨0x104, 1, 4, [rw 0 32]⟩,
  ⟨0x108, 1, 4, [ro 0 32]⟩,
  ⟨0x10C, 1, 4, [ro 0 1, ro 1 1]⟩,
  ⟨0x200, 1, 4, [ro 0 7, ro 8 7, ro 16 7, ro 24 7]⟩]

/-- One quad's QD block: R64, R216, R400. -/
def qdRows : List RegRow := [
  ⟨0x100, 4, 0x20, [rwIn 4 5 16 10 20]⟩,
  ⟨0x104, 4, 0x20, [ro 0 11, ro 11 11, ro 22 1, ro 23 1]⟩,
  ⟨0x108, 4, 0x20, [rw 0 16, rw 16 16]⟩,
  ⟨0x10C, 4, 0x20, [rw 0 16, rw 16 16]⟩,
  ⟨0x110, 4, 0x20, [rw 0 18, wo 18 1]⟩,
  ⟨0x114, 4, 0x20, [ro 0 1, ro 1 4, ro 5 20]⟩,
  ⟨0x200, 1, 4, [rw 0 1 1, rwIn 1 5 16 10 20]⟩,
  ⟨0x204, 1, 4, [ro 0 5 16, ro 5 1, ro 6 4, ro 10 1, ro 15 17]⟩,
  ⟨0x208, 1, 4, [ro 0 17 0x1FFFF]⟩,
  ⟨0x20C, 1, 4, [rw 0 8, rw 8 8, rw 16 8, rw 24 8]⟩,
  ⟨0x210, 1, 4, [rw 0 32]⟩]

/-- One port's PRT block: R124, R159, R160, R182, R215, R267, R401. The reset value of ENG depends on the port. -/
def prtRows (p : Nat) : List RegRow := [
  ⟨0x000, 1, 4, [rwIn 0 8 96 16 255, rwIn 8 6 32 1 32, rwIn 14 12 640 256 4095, rwIn 26 2 0 0 2]⟩,
  ⟨0x004, 1, 4, [rwIn 0 10 64 1 1023, rwIn 10 16 256 16 65535, rwIn 26 6 16 4 63]⟩,
  ⟨0x008, 1, 4, [ro 0 2, ro 2 1, ro 3 1, ro 4 1, ro 5 1, ro 6 10, ro 16 9, ro 25 6]⟩,
  ⟨0x00C, 2, 4, [ro 0 16, ro 16 16]⟩,
  ⟨0x020, 5, 4, [rw 0 32]⟩,
  ⟨0x034, 4, 4, [rw 0 16, rw 16 16]⟩,
  ⟨0x044, 1, 4, [rw 0 16, rw 16 8]⟩,
  ⟨0x048, 1, 4, [ro 0 10, rw 16 10]⟩,
  ⟨0x080, 1, 4, [rw 0 1, rwIn 1 3 1 1 7, ro 4 1, ro 5 3, rwIn 8 8 64 8 255]⟩,
  ⟨0x084, 1, 4, [rw 0 24 0xFAC688]⟩,
  ⟨0x088, 8, 4, [rwIn 0 13 992 257 7936]⟩,
  ⟨0x0A8, 9, 4, [ro 0 14, ro 14 14]⟩,
  ⟨0x0CC, 1, 4, [ro 0 13, ro 16 16]⟩,
  ⟨0x0D0, 1, 4, [ro 0 6, ro 8 5, ro 16 6, ro 24 5]⟩,
  ⟨0x0D4, 1, 4, [ro 0 14]⟩,
  ⟨0x0D8, 1, 4, [rw 0 16, ro 16 16]⟩,
  ⟨0x0E0, 1, 4, [ro 0 2, ro 2 6]⟩,
  ⟨0x100, 1, 4, [ro 0 1, ro 1 1, ro 2 1, ro 3 1, ro 4 1, ro 5 1, ro 6 1]⟩,
  ⟨0x104, 1, 4, [ro 0 12, ro 12 1, ro 13 3]⟩,
  ⟨0x108, 1, 4, [rw 0 8]⟩,
  ⟨0x10C, 1, 4, [ro 0 32]⟩,
  ⟨0x110, 1, 4, [rw 0 32]⟩,
  ⟨0x114, 3, 4, [rw 0 16, rw 16 16]⟩,
  ⟨0x120, 1, 4, [rw 0 2 1, rwIn 2 4 2 1 15, rw 6 1, wo 7 1]⟩,
  ⟨0x124, 1, 4, [rw 0 32]⟩,
  ⟨0x128, 1, 4, [ro 0 2, ro 2 2, ro 4 2, ro 6 1, ro 7 2, ro 9 2, ro 11 1]⟩,
  ⟨0x12C, 1, 4, [rw 0 16, rw 16 16]⟩,
  ⟨0x130, 4, 4, [rw 0 32]⟩,
  ⟨0x180, 1, 4, [ro 0 5 (p % 16), ro 5 1]⟩,
  ⟨0x190, 4, 4, [ro 0 32]⟩,
  ⟨0x300, 1, 4, [ro 0 5, ro 5 5, ro 10 5, ro 15 5, ro 20 3, ro 23 4]⟩,
  ⟨0x304, 1, 4, [rwIn 0 3 4 1 4, wo 3 1, wo 4 1]⟩,
  ⟨0x308, 1, 4, [ro 0 4, ro 4 4, ro 8 8, ro 16 16]⟩,
  ⟨0x30C, 1, 4, [ro 0 16]⟩,
  ⟨0x310, 1, 4, [rw 0 16, rw 16 16]⟩]

/-- One lane's LN block: R125. -/
def lnRows : List RegRow := [
  ⟨0x00, 1, 4, [wo 0 1, wo 1 1]⟩,
  ⟨0x04, 1, 4, [ro 0 3, ro 3 2, ro 5 1, ro 6 1, ro 7 1, ro 8 1, ro 9 1, ro 16 16]⟩,
  ⟨0x08, 1, 4, [rw 0 32]⟩,
  ⟨0x0C, 1, 4, [rw 0 24, rw 24 8]⟩,
  ⟨0x10, 6, 4, [ro 0 32]⟩,
  ⟨0x28, 1, 4, [ro 0 16, ro 16 12]⟩,
  ⟨0x2C, 1, 4, [ro 0 8, ro 8 8]⟩]

/-- DMA: R348. -/
def dmaRows : List RegRow := [
  ⟨0x000, 1, 4, [rwIn 0 11 64 1 1024]⟩,
  ⟨0x004, 1, 4, [ro 0 8 0xFF, ro 8 8 0xFF]⟩,
  ⟨0x008, 1, 4, [rwIn 0 6 16 0 48, ro 16 11]⟩,
  ⟨0x00C, 1, 4, [ro 0 8, ro 8 8]⟩,
  ⟨0x010, 16, 4, [ro 0 10, rw 16 10]⟩]

/-- One DMA channel: R349. RENG and WENG reset to the channel number modulo 8. -/
def dmaChRows (c : Nat) : List RegRow := [
  ⟨0x00, 1, 4, [rw 0 1, rw 1 2, rw 3 1, rw 4 8, rwIn 12 5 12 8 20, rw 17 8 7]⟩,
  ⟨0x04, 1, 4, [wo 0 1, wo 1 1, wo 2 1, wo 3 1, wo 4 1, wo 5 1, wo 6 1, wo 7 1]⟩,
  ⟨0x08, 1, 4, [ro 0 3, ro 3 1, ro 4 1, ro 5 1, ro 6 1, ro 7 1, ro 8 3 (c % 8), ro 11 3 (c % 8), ro 16 8, ro 24 1]⟩,
  ⟨0x0C, 1, 4, [rwIn 0 16 4096 64 65535, ro 16 16]⟩,
  ⟨0x10, 1, 4, [rw 6 26]⟩,
  ⟨0x14, 1, 4, [rw 0 16]⟩,
  ⟨0x18, 1, 4, [rwIn 0 5 4 4 16, rw 5 4, rw 16 16]⟩,
  ⟨0x1C, 2, 4, [ro 0 32]⟩,
  ⟨0x24, 1, 4, [ro 0 16]⟩,
  ⟨0x28, 1, 4, [ro 0 32]⟩,
  ⟨0x2C, 1, 4, [ro 0 16, ro 16 2, ro 18 1, ro 20 8, ro 28 4]⟩,
  ⟨0x30, 1, 4, [ro 0 18, ro 18 11]⟩,
  ⟨0x34, 1, 4, [ro 0 32]⟩,
  ⟨0x38, 1, 4, [rw 0 16, rw 16 16]⟩,
  ⟨0x3C, 1, 4, [rw 0 32]⟩,
  ⟨0x40, 16, 4, [rw 0 32]⟩,
  ⟨0x80, 16, 4, [ro 0 32]⟩]

/-- WB and COL: R297, R319. -/
def wbRows : List RegRow := [
  ⟨0x000, 1, 4, [rwIn 0 16 1600 64 65535]⟩,
  ⟨0x004, 1, 4, [ro 0 8 0xFF, ro 8 8]⟩,
  ⟨0x040, 8, 0x20, [ro 0 16, ro 16 7, rw 24 7]⟩,
  ⟨0x044, 8, 0x20, [rw 0 32]⟩,
  ⟨0x048, 8, 0x20, [rw 0 16, rw 16 16]⟩,
  ⟨0x04C, 8, 0x20, [rw 0 16, rw 16 16]⟩,
  ⟨0x050, 8, 0x20, [rw 0 16, rw 16 16]⟩,
  ⟨0x054, 8, 0x20, [rw 0 16, rw 16 16]⟩,
  ⟨0x058, 8, 0x20, [rw 0 32]⟩,
  ⟨0x400, 1, 4, [rw 6 26]⟩,
  ⟨0x404, 1, 4, [rw 0 16]⟩,
  ⟨0x408, 1, 4, [wo 0 10, wo 10 1, wo 11 1]⟩,
  ⟨0x40C, 1, 4, [rwIn 0 16 0xFFFF 1 0xFFFF]⟩,
  ⟨0x410, 1, 4, [rw 0 10]⟩,
  ⟨0x414, 1, 4, [ro 0 3, ro 4 4, ro 8 13]⟩,
  ⟨0x418, 1, 4, [ro 0 32]⟩,
  ⟨0x41C, 1, 4, [ro 0 19, ro 19 4]⟩,
  ⟨0x420, 1, 4, [ro 0 18, ro 18 13, ro 31 1]⟩,
  ⟨0x424, 1, 4, [ro 0 11, ro 11 13]⟩,
  ⟨0x430, 1, 4, [rw 0 8]⟩,
  ⟨0x434, 1, 4, [rw 0 14, rwIn 14 13 0 2 4096, rw 27 1]⟩,
  ⟨0x438, 1, 4, [ro 0 32]⟩,
  ⟨0x43C, 1, 4, [rw 0 14]⟩,
  ⟨0x440, 1, 4, [rw 0 18]⟩,
  ⟨0x444, 1, 4, [ro 0 18]⟩,
  ⟨0x450, 3, 4, [rw 0 16, rw 16 16]⟩]

/-- ATM: R241. -/
def atmRows : List RegRow := [
  ⟨0x000, 1, 4, [rwIn 0 16 3200 1024 65535]⟩,
  ⟨0x004, 1, 4, [ro 0 16, rw 16 16]⟩,
  ⟨0x008, 1, 4, [rw 0 32]⟩,
  ⟨0x00C, 3, 4, [rw 0 16, rw 16 16]⟩,
  ⟨0x018, 1, 4, [rw 0 32]⟩,
  ⟨0x020, 4, 4, [ro 0 7, rw 8 7, rw 16 16]⟩,
  ⟨0x040, 16, 4, [ro 0 10, rw 10 10]⟩,
  ⟨0x080, 1, 4, [ro 0 8, ro 8 1, rw 16 16]⟩]

/-- TST: R465. -/
def tstRows : List RegRow := [
  ⟨0x000, 1, 4, [rwIn 0 11 64 1 1024, rw 11 1, rwIn 12 16 1600 64 65535]⟩,
  ⟨0x004, 1, 4, [ro 0 3, ro 3 2, ro 5 1, ro 6 1, ro 8 14, ro 22 10]⟩,
  ⟨0x008, 1, 4, [ro 0 4, ro 4 12, ro 16 6]⟩,
  ⟨0x00C, 1, 4, [ro 0 1, ro 1 4, ro 5 12]⟩,
  ⟨0x010, 2, 4, [ro 0 32]⟩,
  ⟨0x018, 2, 4, [rw 0 16, rw 16 16]⟩,
  ⟨0x020, 1, 4, [rw 0 7]⟩,
  ⟨0x024, 4, 4, [ro 0 32]⟩,
  ⟨0x040, 4, 4, [rw 0 32]⟩,
  ⟨0x050, 1, 4, [wo 0 1, wo 1 1]⟩,
  ⟨0x054, 1, 4, [ro 0 2, ro 2 1, ro 3 4]⟩,
  ⟨0x058, 1, 4, [ro 0 10, ro 10 8, ro 18 7]⟩]

/-- The fields of the register at byte address `a`, or `none` where no register lies there (R8, R479, R480).
Event blocks are placed by `evtAt`. -/
def regFields (a : Nat) : Option (List Field) :=
  if a % 4 != 0 then none
  else if a < 0x01000 then rowAt glbRows a
  else if a < 0x02000 then rowAt tbRows (a - 0x01000)
  else if a < 0x03000 then rowAt mgtRows (a - 0x02000)
  else if a < 0x03400 then rowAt proRows (a - 0x03000)
  else if a < 0x03C00 then rowAt winRows ((a - 0x03400) % 0x20)
  else if a < 0x04000 then none
  else if a < 0x05000 then rowAt calRows (a - 0x04000)
  else if a < 0x08000 then none
  else if a < 0x0C000 then rowAt qdRows ((a - 0x08000) % 0x1000)
  else if a < 0x10000 then none
  else if a < 0x20000 then rowAt (prtRows ((a - 0x10000) / 0x400)) ((a - 0x10000) % 0x400)
  else if a < 0x2A000 then rowAt lnRows ((a - 0x20000) % 0x80)
  else if a < 0x30000 then none
  else if a < 0x31000 then rowAt dmaRows (a - 0x30000)
  else if a < 0x39000 then rowAt (dmaChRows ((a - 0x31000) / 0x100)) ((a - 0x31000) % 0x100)
  else if a < 0x40000 then none
  else if a < 0x41000 then rowAt wbRows (a - 0x40000)
  else if a < 0x48000 then none
  else if a < 0x49000 then rowAt atmRows (a - 0x48000)
  else if a < 0x50000 then none
  else if a < 0x51000 then rowAt tstRows (a - 0x50000)
  else if a < 0x60000 then none
  else if a < 0x70000 then some [rw 0 32]
  else none

/-- Whether `a` lies in the event block at base `b`. -/
def inEvt (a b : Nat) : Bool := decide (b ≤ a) && decide (a < b + 0x40)

/-- The base of the event block that holds address `a` (R487). -/
def evtAt (a : Nat) : Option Nat :=
  if inEvt a evGlb then some evGlb
  else if inEvt a evTb then some evTb
  else if inEvt a evMgt then some evMgt
  else if inEvt a evPro then some evPro
  else if inEvt a evCal then some evCal
  else if inEvt a evPwr then some evPwr
  else if 0x08000 ≤ a ∧ a < 0x0C000 ∧ 0xFC0 ≤ (a - 0x08000) % 0x1000 then some (evQd ((a - 0x08000) / 0x1000))
  else if 0x10000 ≤ a ∧ a < 0x20000 ∧ 0x3C0 ≤ (a - 0x10000) % 0x400 then some (evPrt ((a - 0x10000) / 0x400))
  else if 0x20000 ≤ a ∧ a < 0x2A000 ∧ 0x40 ≤ (a - 0x20000) % 0x80 then some (evLn ((a - 0x20000) / 0x80))
  else if inEvt a evDma then some evDma
  else if 0x31000 ≤ a ∧ a < 0x39000 ∧ 0xC0 ≤ (a - 0x31000) % 0x100 then some (evDmaCh ((a - 0x31000) / 0x100))
  else if inEvt a evWb then some evWb
  else if inEvt a evAtm then some evAtm
  else if inEvt a evTst then some evTst
  else none

/-- How many events the block at base `b` defines, from event 0 upward (R63, R65, R91, R126, R128, R161, R183,
R242, R269, R298, R320, R350, R402, R421, R444, R466). Event 7 of a QD block is reserved besides. -/
def evtCount (b : Nat) : Nat :=
  if b = evGlb then 11
  else if b = evTb then 12
  else if b = evMgt then 8
  else if b = evPro then 8
  else if b = evCal then 2
  else if b = evPwr then 2
  else if b < 0x0C000 then 16
  else if b < 0x20000 then 26
  else if b < 0x2A000 then 12
  else if b = evDma then 2
  else if b < 0x39000 then 7
  else if b = evWb then 14
  else if b = evAtm then 7
  else 10

/-- Whether event `e` of the block at base `b` is assigned, and not reserved (R488). -/
def evtDefined (b e : Nat) : Bool :=
  decide (e < evtCount b) && !(decide (0x08000 ≤ b) && decide (b < 0x0C000) && e == 7)

/-- The bits of the assigned events of a block (R488). -/
def evtMask (b : Nat) : Word :=
  (BitVec.ofNat 32 (2 ^ evtCount b - 1)) &&&
    (if 0x08000 ≤ b ∧ b < 0x0C000 then 0xFFFFFF7F#32 else 0xFFFFFFFF#32)

/-- The interrupt output the block at base `b` drives (R41). -/
def evtIrq (b : Nat) : Irq :=
  if b = evGlb ∨ b = evMgt ∨ b = evPro ∨ b = evPwr ∨ b = evTst then .mgt
  else if b = evDma ∨ (0x31000 ≤ b ∧ b < 0x39000) then .dma
  else if b = evWb then .coll
  else .fault

end Sys2Proof.Machine
end

