-- ==== Sys2Proof/Machine/Table.lean ====
section
/-!
DEFINITION. Sparse tables: a list of (key, entry) pairs with keys strictly rising and no entry equal to
what an unlisted key reads as. The register file, the units of the adapter and its large arrays are
held this way, so that equal states are equal data.
-/
namespace Sys2Proof.Machine

/-- A sparse table of entries of type `α`, keyed by number. -/
abbrev Tab (α : Type) := List (Nat × α)

/-- The entry listed under `k`, if any. -/
def tfind? {α : Type} : Tab α → Nat → Option α
  | [], _ => none
  | (i, v) :: t, k => if i = k then some v else tfind? t k

/-- What key `k` reads as: the listed entry, or `d k` where none is listed. -/
def tget {α : Type} (d : Nat → α) (t : Tab α) (k : Nat) : α := (tfind? t k).getD (d k)

/-- Lists `v` under `k`, keeping the keys in rising order. -/
def tput {α : Type} : Tab α → Nat → α → Tab α
  | [], k, v => [(k, v)]
  | (i, w) :: t, k, v =>
    if k < i then (k, v) :: (i, w) :: t
    else if k = i then (k, v) :: t
    else (i, w) :: tput t k v

/-- Drops what is listed under `k`. -/
def tdrop {α : Type} : Tab α → Nat → Tab α
  | [], _ => []
  | (i, w) :: t, k => if i = k then tdrop t k else (i, w) :: tdrop t k

/-- Writes `v` under `k` in the canonical form: writing what an unlisted key reads as removes the entry. -/
def tset {α : Type} [DecidableEq α] (d : Nat → α) (t : Tab α) (k : Nat) (v : α) : Tab α :=
  if v = d k then tdrop t k else tput t k v

/-- Replaces the entry of `k` by its image under `f`. -/
def tmod {α : Type} [DecidableEq α] (d : Nat → α) (t : Tab α) (k : Nat) (f : α → α) : Tab α :=
  tset d t k (f (tget d t k))

/-- Every key of `t` lies above `k`. -/
def tabove {α : Type} (k : Nat) (t : Tab α) : Bool := t.all (fun e => k < e.1)

/-- Keys strictly rising. -/
def tsorted {α : Type} : Tab α → Bool
  | [] => true
  | (i, _) :: t => tabove i t && tsorted t

/-- The canonical form of a table: keys strictly rising, and no entry equal to what its key reads as unlisted. -/
def twf {α : Type} [DecidableEq α] (d : Nat → α) (t : Tab α) : Bool :=
  tsorted t && t.all (fun e => !decide (e.2 = d e.1))

/-- Applies `f` to the entries of the keys below `n`, from `from_` upward. -/
def tmodRange {α : Type} [DecidableEq α] (d : Nat → α) (f : Nat → α → α) : Nat → Nat → Tab α → Tab α
  | 0, _, t => t
  | n + 1, k, t => tmodRange d f n (k + 1) (tmod d t k (f k))

end Sys2Proof.Machine
end

