-- ==== Sys2Proof/Machine/State.lean ====
section
/-!
DEFINITION. The state of the adapter: plain data, every piece of state the specification names, and the
queue of waiting commands. `State.reset` is the adapter under a power-on reset.
-/
namespace Sys2Proof.Machine

/-! ### Faults and refusals -/

/-- Why a step stops with a fault. -/
inductive Fault where
  /-- The clock of the block is stopped for good and the command needs it. Raised by no command: every
  command of the table has an effect in every state (safe). -/
  | stuck
  deriving DecidableEq, Repr

/-- Why a step is refused. -/
inductive Refusal where
  /-- A command that has no meaning yet. Raised by the dispatch only (safe: nothing is claimed of it). -/
  | notModelled (mnemonic : String)
  deriving DecidableEq, Repr

/-! ### Event blocks (R9 to R12) -/

/-- One event block. `raw`, `en` and `pend` are EVT_RAW, EVT_EN and EVT_PEND; `cnt` holds counter j in bits
8j+7 to 8j; `hw` marks the events hardware raised in the present cycle (R11). -/
structure EvtBlock where
  raw : BitVec 32 := 0
  en : BitVec 32 := 0
  pend : BitVec 32 := 0
  cnt : BitVec 256 := 0
  hw : BitVec 32 := 0
  deriving DecidableEq, Repr

/-! ### The boundary: clocks, supplies, resets, the management port (R38 to R54) -/

/-- Adapter states with their encodings in ADP_STATE (R422). -/
inductive AdpState where
  | off | boot | train | ready | run | quiesce | test | frozen | fault
  deriving DecidableEq, Repr

/-- The encoding of an adapter state (R422). -/
def AdpState.code : AdpState → Nat
  | .off => 0 | .boot => 1 | .train => 2 | .ready => 3 | .run => 4
  | .quiesce => 5 | .test => 6 | .frozen => 7 | .fault => 8

/-- Where the sequence of R52 from reset release to BOOT stands. `held` is an asserted reset; the next three
are the steps under way; `done` is past entry to BOOT, or a sequence that overran. -/
inductive ResetStep where
  /-- A reset is asserted; on release the sequence resumes at PLL lock, eFuse load or SRAM initialisation. -/
  | heldPll | heldEFuse | heldSram
  | pllLock | eFuse | sram | lectern | done
  deriving DecidableEq, Repr

/-- A management access that has been accepted and not yet finished (R38, R39). -/
structure MgtAccess where
  write : Bool
  agent : Bool
  addr : Nat
  data : Word
  since : Nat
  deriving DecidableEq, Repr

structure Boundary where
  adp : AdpState := .off
  /-- The state from which TEST was entered (MGT_STATE.PREV). -/
  prev : AdpState := .off
  step : ResetStep := .heldPll
  /-- The PLL_LOCK pin; CLKC_OUT runs from its first rise. -/
  pllLock : Bool := false
  clkOut : Bool := false
  /-- The lane cells are dark by decision of the adapter: reset, freeze or FAULT (R51, R53, R386). -/
  cellsDark : Bool := true
  /-- The inner-port VALID and READY outputs are held at 0 (R51, R53, R386). -/
  portsLow : Bool := true
  /-- BLSB_CK runs (R53). -/
  blsbCk : Bool := false
  /-- Tick of a REFCLK loss that has not ended (R43). -/
  refLost : Option Nat := none
  /-- The port takes accesses, but for the cycle of MRVALID (R38). -/
  mready : Bool := false
  access : Option MgtAccess := none
  /-- The cycle of MRVALID, and MRDATA and MRERR, of the access that finished last. -/
  mrvalid : Option Nat := none
  mrdata : Word := 0
  mrerr : Bool := false
  /-- The Lectern's pending adapter-state change, taken at cycle 0 of the next tick (R21, R422). -/
  nextState : Option AdpState := none
  /-- RWL fields are locked (R6). -/
  rwlLocked : Bool := false
  deriving DecidableEq, Repr

/-! ### Fault records (R393) -/

/-- One fault record (R393). -/
structure FaultRec where
  cts : Nat := 0
  source : Nat := 0
  level : Nat := 0
  unit : Nat := 0
  code : Nat := 0
  action : Nat := 0
  recno : Nat := 0
  detail : Nat := 0
  deriving DecidableEq, Repr

/-! ### The eFuse (R456) -/

/-- What is burned: repair-record slots 0 to 511 and patch entries 0 to 63, as 128-bit records; zero is unburned. -/
structure EFuse where
  slots : Tab (BitVec 128) := []
  patches : Tab (BitVec 128) := []
  /-- Slots, and patch entries as 512 + ENTRY, that a burn which was cut short or did not verify has used (R458). -/
  used : List Nat := []
  deriving DecidableEq, Repr

/-! ### The base-layer sideband (R56 to R58) -/

/-- Whose share of the sideband a request takes (R117): gap calibration, training and deep calibration, or neither (the laser
status). -/
inductive BlsbOwner where
  | gap | train | site
  deriving DecidableEq, Repr

/-- A request: whose it is, when it was last sent and how often it was reissued. -/
structure BlsbReq where
  owner : BlsbOwner
  seq : Nat
  kind : Nat
  cell : Nat
  value : Nat
  sent : Nat := 0
  reissues : Nat := 0
  deriving DecidableEq, Repr

structure Blsb where
  /-- Requests that wait to be granted, and those sent that await their answers. -/
  queue : List BlsbReq := []
  waiting : List BlsbReq := []
  nextSeq : Nat := 0
  /-- Tick of the last laser status read. -/
  laserTick : Nat := 0
  /-- Monitor readings last returned, by lane cell. -/
  monitor : Tab Nat := []
  /-- The frame driven last on BLSB_DO, with the cycle its first nibble left; the cycle from which the next may start (R56). -/
  out : Option (Nat × BitVec 64) := none
  free : Nat := 0
  /-- Frames granted in the present window of 4 ticks, to gap calibration and to the others (R117), and to gap calibration in the
  present tick (R85, item 5). -/
  window : Nat := 0
  gapUsed : Nat := 0
  otherUsed : Nat := 0
  tick : Nat := 0
  gapTick : Nat := 0
  /-- The lane that had the last heater turn (R116). -/
  turn : Option Nat := none
  deriving DecidableEq, Repr

/-! ### The time base (R66 to R86) -/

/-- Time states with their encodings in TB_STS.STATE (R79, R90). -/
inductive TimeState where
  | free | acquiring | locked | holdover | unlocked | master
  deriving DecidableEq, Repr

/-- The encoding of a time state. -/
def TimeState.code : TimeState → Nat
  | .free => 0 | .acquiring => 1 | .locked => 2 | .holdover => 3 | .unlocked => 4 | .master => 5

/-- The halves of a lockstep pair in use (GLB_LOCK). -/
inductive PairMode where
  | pair | aOnly | bOnly
  deriving DecidableEq, Repr

structure TimeBase where
  state : TimeState := .free
  /-- The frequency trim, 1/100 ppm. -/
  trim : Int := 0
  /-- The trim at cycle 0 of the tick, which the tick's updates leave by at most 0.5 ppm (R82). -/
  before : Int := 0
  /-- The update made in the present tick: its offset, and the trim and accumulated offset before it; and the offset of one that
  overran and waits for the next tick (R85, item 4). -/
  moved : Option (Int × Int × Int) := none
  late : Option Int := none
  /-- The servo's accumulated offset (R82). -/
  acc : Int := 0
  /-- Offsets of the last 64 valid upstream markers, newest first, 1/16 cc. -/
  offsets : List Int := []
  /-- Trims at the last 64 valid upstream markers, newest first. -/
  trims : List Int := []
  /-- Consecutive valid markers within, and outside, the bound the present state watches (R79). -/
  good : Nat := 0
  bad : Nat := 0
  /-- Consecutive ticks with MARKER_LOST, and the last such tick (R78, R90). -/
  miss : Nat := 0
  lostTick : Option Nat := none
  /-- Ticks spent in the present HOLDOVER, and whether it has expired. -/
  hold : Nat := 0
  expired : Bool := false
  /-- Offsets seen during frequency estimation, and whether CTS has been stepped (R81). -/
  estimate : List Int := []
  stepped : Bool := false
  /-- The stratum of the upstream's last valid marker. -/
  upStratum : Nat := 15
  /-- Tick in which the last valid upstream marker arrived. -/
  upTick : Option Nat := none
  mode : PairMode := .pair
  /-- No half works: CTS has stopped (R383, R386). -/
  dead : Bool := false
  /-- Tick of the last valid marker of each port (TB_PEER_OFS.VALID), renumbered when CTS is stepped. -/
  peerTick : Tab (Option Int) := []
  /-- Overruns of an item in a unit: tick of the last and how many ticks running (R86); the key is item * 16384 + unit. -/
  overruns : Tab (Nat × Nat) := []
  /-- The cycle of the overrun that TB_OVR_STS records. -/
  ovrAt : Option Nat := none
  deriving DecidableEq, Repr

/-! ### Lanes (R92 to R125) -/

/-- Lane roles with their encodings in LN_STS.ROLE (R100). -/
inductive LaneRole where
  | off | active | spare | cal | failed | training
  deriving DecidableEq, Repr

/-- The encoding of a lane role. -/
def LaneRole.code : LaneRole → Nat
  | .off => 0 | .active => 1 | .spare => 2 | .cal => 3 | .failed => 4 | .training => 5

/-- Why a lane requests repair (R109). -/
inductive RepairCause where
  | los | cdr | err | noconv
  deriving DecidableEq, Repr

/-- Why a lane is due for deep calibration (R119). -/
inductive DueReason where
  | drift | period | requested
  deriving DecidableEq, Repr

/-- What a lane's driver sends in the present slot time (R92 to R95, R101, R102). -/
inductive LaneOut where
  /-- The driver at level 0. -/
  | dark
  /-- Unmodulated light. -/
  | light
  /-- PRBS-7 on levels 0 and 3. -/
  | prbs7
  /-- Words of sixteen symbols: symbol k of a word stands in bits [2k+1:2k] as its level. -/
  | words (ws : List Word)
  deriving DecidableEq, Repr

structure Lane where
  role : LaneRole := .off
  rlock : Bool := false
  cdr : Bool := false
  los : Bool := false
  fallback : Bool := false
  /-- The port temperature at the last deep calibration, 1/16 °C. -/
  tempDcal : Int := 0
  /-- The heater code last applied at the layer; none is the layer's default (R50). -/
  heater : Option Nat := none
  rbias : Nat := 0
  /-- Corrected bytes in the aligned window of 64 ticks, and in a VERIFY phase. -/
  window : Nat := 0
  lastWindow : Nat := 0
  verify : Nat := 0
  /-- Equaliser and bias steps since the last gap-calibration pass (R118). -/
  steps : Nat := 0
  /-- CTS of the last gap pass and of the last deep calibration. -/
  gcts : Nat := 0
  dcts : Nat := 0
  /-- Due for deep calibration: why, since which tick, and whether CAL_OVERDUE was raised (R119, R121). -/
  due : Option (DueReason × Nat × Bool) := none
  /-- Tick of the last due occasion that was settled or fell back, for the period trigger. -/
  dueBase : Nat := 0
  /-- Heater and bias saved while the lane is in CAL (R120). -/
  saved : Option (Option Nat × Nat) := none
  /-- The scrambler of the lane's send side, and the word time it stands at, counted from CTS 0 (R93). -/
  scr : BitVec 31 := 0
  scrAt : Nat := 0
  /-- What the driver sends. -/
  out : LaneOut := .dark
  /-- Ticks of its last gap-calibration step and of its last heater turn (R116); ring steps taken in the present RING phase (R101). -/
  stepAt : Option Nat := none
  turnAt : Option Nat := none
  ringSteps : Nat := 0
  deriving DecidableEq, Repr

/-- Training phases with their encodings in TPHASE (R101). -/
inductive TPhase where
  | ring | cdr | level | deskew | delay | verify | up
  deriving DecidableEq, Repr

/-- The encoding of a training phase. -/
def TPhase.code : TPhase → Nat
  | .ring => 1 | .cdr => 2 | .level => 3 | .deskew => 4 | .delay => 5 | .verify => 6 | .up => 7

/-- A training under way (R101 to R105). Lane sets are 5-bit masks of wavelength channels. -/
structure Training where
  phase : TPhase
  cold : Bool
  /-- Tick in which the present phase began. -/
  began : Nat
  /-- Lanes still in training. -/
  lanes : BitVec 5
  /-- The peer's PASS mask, WMAX and ACTIVE of its last training flit. -/
  passPeer : BitVec 5 := 0
  wmaxPeer : Nat := 4
  /-- The peer reports the present phase complete (DONE). -/
  peerDone : Bool := false
  /-- Consecutive UP flits whose ACTIVE equals the own active set. -/
  upCount : Nat := 0
  /-- Link-delay samples of the DELAY phase, 1/16 cc. -/
  samples : List Int := []
  /-- Uncorrectable flits met in VERIFY. -/
  uncorr : Nat := 0
  /-- TREF of the peer's last training flit and the receive reference it had. -/
  echo : Option (Nat × Nat) := none
  /-- The active set and spare computed after VERIFY. -/
  active : BitVec 5 := 0
  spare : Option Nat := none
  deriving DecidableEq, Repr

/-- An agreed exchange of a lane and the spare: the lane leaving, the lane taking its place, whether it ends a deep
calibration, the effective tick in this adapter's numbering, and whether this side asked (R110 to R113). -/
structure SwapPlan where
  lane : Nat
  sub : Nat
  abortCal : Bool
  eff : Nat
  mine : Bool
  cause : RepairCause
  deriving DecidableEq, Repr

/-- Where a deep calibration of lane `lane` with stand-in `sub` stands (R120). -/
inductive DcalStage where
  /-- CAL_OUT agreed for that tick. -/
  | out (eff : Nat)
  /-- Refused; the port asks again at that tick. -/
  | retry (tick : Nat)
  /-- The lane is in CAL since that tick. -/
  | inCal (since : Nat)
  /-- CAL_IN agreed for that tick; in CAL since the second. -/
  | back (eff since : Nat)
  deriving DecidableEq, Repr

structure Dcal where
  lane : Nat
  sub : Nat
  stage : DcalStage
  /-- This side chose the lane; the peer otherwise. -/
  mine : Bool
  /-- The other side has acknowledged the CAL_OUT or CAL_IN request under way. -/
  acked : Bool := false
  /-- Where the lane in CAL stands: RING for the sweep, then CDR, LEVEL, DESKEW (R120). -/
  phase : TPhase := .ring
  deriving DecidableEq, Repr

/-- LSTATE of a port (R159). -/
inductive LState where
  | down | training | up
  deriving DecidableEq, Repr

/-- The encoding of LSTATE. -/
def LState.code : LState → Nat
  | .down => 0 | .training => 1 | .up => 2

structure PortLane where
  lstate : LState := .down
  width : Nat := 0
  training : Option Training := none
  swap : Option SwapPlan := none
  dcal : Option Dcal := none
  /-- The lowest cause number of a link reset that begins at the next tick boundary (R106). -/
  resetDue : Option Nat := none
  /-- A cold training begins at the next tick boundary; the flag says whether a failed warm retraining caused it. -/
  coldDue : Option Bool := none
  /-- The tick at whose cycle 0 a reset or cold training that is due begins. -/
  dueTick : Nat := 0
  /-- The training under way follows a failed warm retraining (R106). -/
  afterWarm : Bool := false
  /-- Lanes that become FAILED at the next tick boundary (R110, R114). -/
  failing : List (Nat × RepairCause) := []
  /-- The wavelength channel whose receiver measured the link delay (R75). -/
  measured : Nat := 0
  /-- Own tick number less the tick of CTS_TX of the peer's last valid marker (R111). -/
  tickDiff : Int := 0
  /-- Repair requests kept for wake: lane and cause (R109, R115). -/
  standing : List (Nat × RepairCause) := []
  /-- A swap is to be performed at a wake from P2 before any data flit is sent (R115). -/
  wakeSwap : Bool := false
  /-- Cold-training attempts of the present entry to TRAIN (R470), and whether the port has ended its training. -/
  attempts : Nat := 0
  ended : Bool := false
  /-- PRT_LCTL.WIDTH_MAX as the training took it up. -/
  wmax : Nat := 4
  /-- Tick of the last link-up. -/
  upTick : Option Nat := none
  deriving DecidableEq, Repr

/-! ### The flit link (R129 to R160) -/

/-- A packet slot on its way to a flit: its bits, the packet it belongs to, whether it is that packet's first and last,
its pool, and for a packet in transit the port and number it has in the Cupboard. -/
structure TxSlot where
  bits : Slot
  pid : Nat
  first : Bool
  last : Bool
  pool : Nat
  origin : Option (Nat × Nat) := none
  deriving DecidableEq, Repr

/-- A whole packet: its slots with the header first, the calendar flow it is bound to, and for a packet in transit the
port and number it has in the Cupboard. -/
structure Packet where
  slots : List Slot
  flow : Option Nat := none
  origin : Option (Nat × Nat) := none
  deriving DecidableEq, Repr

/-- One Sideboard entry: a data flit as sent, its last transmission, its copies, its packets, and the cycle of its
release, after which a copy may still leave for 8 cc (R143). -/
structure SbEntry where
  seq : Seq
  hslot : Nat
  slots : List Slot
  sent : Nat
  pids : List Nat
  released : Option Nat := none
  deriving DecidableEq, Repr

/-- The flit being assembled (R169). -/
structure Assembly where
  hats : List Slot := []
  pks : List TxSlot := []
  /-- Cycle in which its first packet slot was placed. -/
  first : Nat := 0
  sealed : Bool := false
  deriving DecidableEq, Repr

/-- A packet in progress: its number, pool and the slots that have not crossed the crossbar. -/
structure TxPacket where
  pid : Nat
  pool : Nat
  rest : List TxSlot
  deriving DecidableEq, Repr

structure PortTx where
  nextTx : Seq := 0
  oldest : Seq := 0
  sb : List SbEntry := []
  selective : Bool := false
  /-- A mode change that takes effect at the next tick boundary. -/
  modeNext : Option Bool := none
  /-- A go-back-N replay in progress: the next flit to copy and the last. -/
  replay : Option (Seq × Seq) := none
  /-- Replays decided that no slot has acted on yet: the cycle of the decision and the flit it starts from (R143). -/
  starts : List (Nat × Seq) := []
  /-- Selective copies waiting for a slot, each with the cycle from which it may leave (R143). -/
  selQueue : List (Seq × Nat) := []
  /-- Consecutive replays without acknowledgement progress (R148). -/
  consecutive : Nat := 0
  /-- Copies of OLDEST since acknowledgement progress, and the flit of the last exhaustion (R152). -/
  retries : Nat := 0
  exhausted : Option Seq := none
  /-- Cycle in which the replay timer started, if it runs (R146). -/
  timer : Option Nat := none
  /-- A NAK stopped the timer: when it had started, and the cycle of the NAK (R147). -/
  stopped : Option (Nat × Nat) := none
  /-- The timer expired during the present darkness (R155). -/
  expiredDark : Bool := false
  /-- Data flits first sent, and copies, in the aligned window of 64 ticks (R149). -/
  winFirst : Nat := 0
  winCopies : Nat := 0
  /-- Whole clean ticks running, and whether the present tick is clean so far (R151). -/
  cleanTicks : Nat := 0
  tickClean : Bool := true
  /-- SB_FULL stands raised for the present block (R144). -/
  blocked : Bool := false
  /-- Packets some of whose slots are unacknowledged, by number. -/
  flight : List (Nat × Packet) := []
  nextPid : Nat := 0
  /-- Packets that units have committed to this port, whole in their staging. -/
  staged : List Packet := []
  cur : Option TxPacket := none
  /-- Packet slots that crossed the crossbar and are not placed yet. -/
  crossed : List TxSlot := []
  asm : Assembly := {}
  /-- Hatstand messages waiting: control and fragments. -/
  hatCtl : List Slot := []
  hatPlv : List Slot := []
  /-- Messages waiting found no room in the flit sent last: they go in a flit of their own (R176). -/
  alone : Bool := false
  /-- The packet that the packet slots sent last left unfinished: the next packet slots sent continue it (R169). -/
  cutPid : Option Nat := none
  /-- Flits for which a pool's next packet has waited for credit (R168), and the pool that bars the others. -/
  waits : Tab Nat := []
  /-- The virtual channel served last (R168). -/
  lastVc : Nat := 0
  barring : Option Nat := none
  /-- A second exhaustion hands the port engine upward (R152, R380). -/
  handUp : Bool := false
  /-- Packet slots of the data flit first sent in the present command. -/
  justSent : List TxSlot := []
  /-- The flit sent last, as its 272 bytes. -/
  wire : Option (List Byte) := none
  deriving DecidableEq, Repr

/-- A data flit held in the reorder window: number, HSLOT, occupied slots. -/
structure HeldFlit where
  seq : Seq
  hslot : Nat
  slots : List Slot
  deriving DecidableEq, Repr

/-- A packet in the Cupboard: its slots so far, how many it has in all, which of them are poisoned, whether any came
late, the pool it is charged to, the slot it was scheduled in, and whether a consumer has taken it up. -/
structure CupPkt where
  id : Nat
  slots : List Slot
  need : Nat
  bad : List Nat := []
  late : Bool := false
  pool : Nat := 0
  /-- Cells freed so far. -/
  freed : Nat := 0
  taken : Bool := false
  /-- The rest was discarded by a cold training (R154, R193). -/
  cut : Bool := false
  /-- It has been dealt with before its last slot came: what still comes is freed at once. -/
  dead : Bool := false
  /-- A cold training emptied the Cupboard: its cells are free and no credit of theirs is owed (R181). -/
  void : Bool := false
  /-- For each slot, the CTS of the slot time of the flit that brought it: 1,024T + 4k (R252). -/
  times : List Nat := []
  deriving DecidableEq, Repr

structure PortRx where
  nextRx : Seq := 0
  held : List HeldFlit := []
  ackDue : Bool := false
  nakDue : Bool := false
  /-- Flits accepted since the last acknowledgement or NAK, and the cycle of the first (R140). -/
  accepted : Nat := 0
  ackTimer : Option Nat := none
  /-- ACK field of the last acknowledgement or NAK sent, whether it was a NAK, and its cycle. -/
  lastAck : Seq := 0
  lastSent : Option (Bool × Seq × Nat) := none
  lastNak : Option (Seq × Nat) := none
  /-- Cycle of the last flit that passed the checks; dark as DARK_ENTRY found it (R155). -/
  lastGood : Option Nat := none
  dark : Bool := true
  /-- Whole ticks running without a good flit, and whether the present tick has had one (R106). -/
  empty : Nat := 0
  tickGood : Bool := false
  /-- Hatstand messages released and not yet consumed. -/
  hat : List Slot := []
  cup : List CupPkt := []
  nextId : Nat := 0
  deriving DecidableEq, Repr

/-! ### Credits (R162 to R181) -/

/-- The receive-side configuration a ledger publishes (R172, R178). -/
structure PoolConfig where
  priv : Bool := false
  vcmap : Nat := 0
  limits : List Nat := []
  deriving DecidableEq, Repr

/-- The counts of a snapshot by pool: SENT, RCVD, FREED (R179). -/
structure CreditSnap where
  tick : Nat
  sent : Tab Nat
  rcvd : Tab Nat
  freed : Tab Nat
  deriving DecidableEq, Repr

structure PortCredit where
  /-- OUT, PEND and SENT toward the peer's pools, and the returns applied (ret). -/
  out : Tab Nat := []
  pend : Tab Nat := []
  sent : Tab Nat := []
  ret : Tab Nat := []
  /-- Cells allocated and returned in the own pools, and returns pending. -/
  rcvd : Tab Nat := []
  freed : Tab Nat := []
  owed : Tab Nat := []
  /-- Latches RETL of the peer's last two ticks (R179). -/
  retl : List (Nat × Tab Nat) := []
  /-- Snapshots of the last two ticks, newest first. -/
  snaps : List CreditSnap := []
  hsentCtl : Nat := 0
  hsentPlv : Nat := 0
  hfreeCtl : Nat := 0
  hfreePlv : Nat := 0
  peerFreeCtl : Nat := 0
  peerFreePlv : Nat := 0
  /-- The peer's configuration, taken from the first valid ledger after a cold training. -/
  peer : Option PoolConfig := none
  /-- The own configuration in force. -/
  own : PoolConfig := {}
  /-- Window of 64 ticks last corrected (R180). -/
  corrected : Option Nat := none
  /-- The ledger of the tick under way: the snapshot it carries, or not valid; built for that tick. -/
  ledger : Option (Nat × Option CreditSnap) := none
  /-- A snapshot whose ledger overran (R179). -/
  deferred : Option CreditSnap := none
  /-- The slots of a received ledger whose correction overran: it is applied at the next tick (R85, item 3). -/
  resync : List Slot := []
  deriving DecidableEq, Repr

/-- Payload slot 0 of a marker (R73). -/
structure Marker where
  ctsTx : Nat
  gmid : Nat
  stratum : Nat
  tq : Nat
  tsv : Bool
  calph : Nat
  pwr : Nat
  deriving DecidableEq, Repr

/-! ### Routing and power of a port (R205, R215, R258) -/

/-- RSTATE of a port (R215). -/
inductive RState where
  | direct | relay | unreachable | draining
  deriving DecidableEq, Repr

/-- The encoding of RSTATE. -/
def RState.code : RState → Nat
  | .direct => 0 | .relay => 1 | .unreachable => 2 | .draining => 3

/-- Why a port becomes lost at the next tick boundary (R205). -/
inductive LossCause where
  | training | engine | order | untrained | wake
  deriving DecidableEq, Repr

structure PortRoute where
  rstate : RState := .direct
  /-- The relay site in use while RELAY or DRAINING. -/
  rsite : Nat := 0
  lost : Bool := false
  /-- The port becomes lost at the next tick boundary, and why. -/
  lossDue : Option LossCause := none
  lossTick : Nat := 0
  /-- Packets the link handed back as not delivered, for the transaction layer (R154, R205). -/
  handback : List Packet := []
  /-- Tick in which DRAINING began. -/
  drainFrom : Nat := 0
  deriving DecidableEq, Repr

/-- Power states (R258). -/
inductive PState where
  | p0 | p1 | p2 | p3
  deriving DecidableEq, Repr

/-- The encoding of a power state. -/
def PState.code : PState → Nat
  | .p0 => 0 | .p1 => 1 | .p2 => 2 | .p3 => 3

/-- A wake from P2 or P3 (R264): its wake tick U, whether this side started it, the phase of a wake from P2 and the
tick that phase began, and whether the peer's light has been seen. -/
structure Wake where
  u : Nat
  own : Bool
  phase : TPhase := .cdr
  began : Nat := 0
  lit : Bool := false
  /-- From P2: the four phases are over. -/
  ready : Bool := false
  /-- TREF of the peer's last training flit of this wake and the receive reference it had (R103). -/
  echo : Option (Nat × Nat) := none
  deriving DecidableEq, Repr

structure PortPower where
  state : PState := .p0
  /-- What the POWER task set for the next marker: the tick it is for, PROP, AGREE and AVALID (R260, R261). -/
  next : Option (Nat × Nat × Nat × Bool) := none
  /-- The own marker last sent: its tick, its PWR field, and whether its TSV was 1. -/
  sent : Option (Nat × Nat × Bool) := none
  /-- An entry decided: the state, and the tick at whose cycle 0 it is entered (R261). -/
  enter : Option (PState × Nat) := none
  /-- An agreeing marker was sent in that tick and none received (R262). -/
  missed : Option (PState × Nat) := none
  /-- An entry decided one tick late: the state, and the tick it is entered at (R262). -/
  enterLate : Option (PState × Nat) := none
  wake : Option Wake := none
  /-- The cycle from which the light watch is armed (R262). -/
  watchFrom : Nat := 0
  /-- FORCE_WAKE was written in that cycle; the peer showed activity in that tick (R263). -/
  force : Option Nat := none
  stir : Option Nat := none
  /-- PWR of the last valid peer marker and the tick it arrived in. -/
  peerPwr : Nat := 0
  peerTick : Option Nat := none
  deriving DecidableEq, Repr

/-- CUR and PROP of the last valid peer marker (R259). -/
def PortPower.peerCur (w : PortPower) : Nat := w.peerPwr % 4
def PortPower.peerProp (w : PortPower) : Nat := w.peerPwr / 4 % 4

/-- A scheduled flow's packet that has been started: its flow, its number, its slots that no flit has taken, and the
cycle from which it lies ready (R247). -/
structure FlowPkt where
  flow : Nat
  pid : Nat
  pool : Nat
  rest : List TxSlot
  ready : Nat
  deriving DecidableEq, Repr

structure PortSched where
  /-- SCHED_D: the latency, and whether it was published since the last training (R251). -/
  d : Nat := 0
  dValid : Bool := false
  dWidth : Nat := 0
  /-- The send direction is in scheduled mode (R246). -/
  sched : Bool := false
  /-- Whether the peer's last valid markers, newest first, passed the phase check; at most 16 (R257). -/
  phases : List Bool := []
  /-- TQ of the peer's last valid marker. -/
  peerTq : Nat := 0
  /-- CFG_SKEW stands against the port, and what it becomes at the next tick (R441). -/
  skew : Bool := false
  skewNext : Option Bool := none
  /-- How many of the 256 entries for the present tick, and for the next, have been read in time (R85, item 2). -/
  readNow : Nat := 0
  readNext : Nat := 0
  /-- Packets of flows started and not sent whole. -/
  flows : List FlowPkt := []
  /-- Sealed flits whose slots copies took, in the order of those slots (R249). -/
  displaced : List (List Slot × List TxSlot) := []
  /-- SCHED_SLIP has been raised in the present tick (R253). -/
  slipped : Bool := false
  deriving DecidableEq, Repr

structure Port where
  /-- The marker built for the next slot 0, with its tick (R85 item 0). -/
  marker : Option (Nat × Marker) := none
  /-- PWR as last sent (R86 item 0). -/
  lastPwr : Nat := 0
  /-- The port has no verified engine output (R372). -/
  stopped : Bool := false
  ln : PortLane := {}
  rt : PortRoute := {}
  pw : PortPower := {}
  sc : PortSched := {}
  tx : PortTx := {}
  rx : PortRx := {}
  cr : PortCredit := {}
  deriving DecidableEq, Repr

/-! ### Banks of the fabric manager's tables (R243, R245, R255, R300) -/

/-- A pending activation: its epoch tick, epoch and digest (R440). -/
structure Activation where
  tick : Nat
  epoch : Nat
  digest : Nat
  deriving DecidableEq, Repr

/-- The staging banks and the banks in force. Calendar entry e of port p is under 256p + e. -/
structure Banks where
  calStg : Tab Word := []
  calAct : Tab Word := []
  flowStg : Tab Word := []
  flowAct : Tab Word := []
  grpStg : Tab Word := []
  grpAct : Tab Word := []
  memStg : Tab Word := []
  memAct : Tab Word := []
  /-- ABANK: which of the two banks is in force. -/
  abank : Bool := false
  pend : Option Activation := none
  /-- The epoch tick has passed and the copy-back runs (R256). -/
  copying : Bool := false
  /-- Epochs and digests in force, newest first, each with the tick from which it was (R439, R441). -/
  history : List (Nat × Nat × Nat) := []
  deriving DecidableEq, Repr

/-! ### Transactions (R187 to R216) and inner ports (R28 to R37) -/

/-- A request from the fabric that this die executes: what its answer needs (R191, R193). -/
structure RemoteReq where
  src : Nat
  txid : Nat
  opc : Nat
  cls : Nat
  addr : Nat
  bytes : Nat
  dup : Bool := false
  deriving DecidableEq, Repr

/-- Whom the answer to an access, or to a request, goes to. -/
inductive Client where
  /-- A request from the fabric. -/
  | remote (q : RemoteReq)
  /-- A FREQ transfer of inner port `ip`, and which of its packets (R189). -/
  | freq (ip tag part : Nat)
  /-- The READ, and the WRITE, of a live word of a quad's atomic lane (R224, R225). -/
  | atomRead (q h : Nat)
  | atomWrite (q h : Nat)
  /-- A Lectern thread (R239). -/
  | thread (t : Nat)
  /-- A mirror copy for window `w`; `hold` is the answer that waits for it under MSYNC (R202). -/
  | mirror (w : Nat) (hold : Option Nat)
  /-- A DMA channel's transaction. -/
  | chan (c n : Nat)
  /-- A collective stream's access. -/
  | stream (u n : Nat)
  /-- Nobody: the access was abandoned. -/
  | orphan
  deriving DecidableEq, Repr

/-- A host access through HREQ (R32, R34). -/
structure HostReq where
  client : Client
  write : Bool
  addr : Nat
  bytes : Nat
  die : Nat
  /-- The bytes of a WRITE so far; those of a fabric WRITE are gathered as its beats leave. -/
  data : List Byte := []
  /-- The Cupboard packet that carries it, and how many slots stand before its data. -/
  pkt : Option (Nat × Nat) := none
  lead : Nat := 0
  /-- The port a delivery came by whose packet is no longer in the Cupboard; 64 for none (R16). -/
  port : Nat := 64
  /-- Some of its data is poisoned; the rest of it was discarded by a cold training (R193, R492). -/
  poison : Bool := false
  cut : Bool := false
  /-- The cycle from which its header may be presented (R252), and the cycle it came to the inner port. -/
  ready : Nat := 0
  came : Nat := 0
  /-- A rank-1 delivery, and the CTS of the slot of its header; its header has counted as SLIP (R16, R253). -/
  timed : Bool := false
  slot : Nat := 0
  slip : Bool := false
  /-- The window, and whether it is sequential (R201, R202). -/
  win : Option Nat := none
  seq : Bool := false
  /-- Its TAG; the cycle its header was presented in and, from then on, the one it was transferred in; and the data beats
  transferred. -/
  tag : Nat := 0
  sent : Nat := 0
  beats : Nat := 0
  /-- An HRSP header has answered it in time, whose data beats are still to come (R35). -/
  coming : Bool := false
  /-- It has been answered, and only its data beats remain. -/
  answered : Bool := false
  deriving DecidableEq, Repr

/-- A FREQ transfer that awaits its FRSP: how its packets were answered (R189). -/
structure FreqReq where
  tag : Nat
  kind : Nat
  addr : Nat
  bytes : Nat
  die : Nat
  parts : List (Option (Nat × List Byte))
  /-- Counted on the remote request engine since its commitment (R237). -/
  counted : Bool := false
  deriving DecidableEq, Repr

/-- An FRSP transfer that waits for the host, and the ATOMIC_RELEASE its delivery sends (R236). -/
structure FrspXfer where
  tag : Nat
  kind : Nat
  resp : Nat
  addr : Nat
  bytes : Nat
  die : Nat
  data : List Byte := []
  release : Option (Nat × Nat × Nat) := none
  /-- The cycle from which it may be presented (R252). -/
  ready : Nat := 0
  deriving DecidableEq, Repr

/-- An FRSP transfer whose header has been transferred: that cycle, the headers that went ahead of its data since, and its data
beats transferred (R30). -/
structure FrspOut where
  x : FrspXfer
  sent : Nat
  ahead : Nat := 0
  beats : Nat := 0
  deriving DecidableEq, Repr

/-- A fence (R211): the first answer other than OK of the lowest TXID is kept. -/
structure Fence where
  dst : Nat := 0
  busy : Bool := false
  result : Nat := 0
  mark : Nat := 0
  worst : Option (Nat × Nat) := none
  deriving DecidableEq, Repr

structure InnerPort where
  /-- HREQ transfers not yet presented, in order of arrival. -/
  wait : List HostReq := []
  /-- The one whose header beat is presented, and holds until the host takes it (R29). -/
  header : Option HostReq := none
  /-- HREQ transfers whose header has been transferred and whose HRSP is outstanding. -/
  busy : List HostReq := []
  /-- TAGs of WRITEs whose data beats remain, in header order, each with the headers that went ahead of its data (R30). -/
  sending : List (Nat × Nat) := []
  /-- The cycle from which the next HREQ data beat is presented. -/
  beat : Option Nat := none
  /-- The port whose delivery was granted last at rank 2 (R16). -/
  lastPort : Nat := 63
  /-- Quarantined TAGs and the cycle of their timeout (R36). -/
  quar : List (Nat × Nat) := []
  freq : List FreqReq := []
  /-- Header beats of FREQ and HRSP that await their data, in order, with the data beats come so far (R30, R33). -/
  freqIn : List (BitVec 128 × List Beat) := []
  hrspIn : List (BitVec 128 × List Beat) := []
  /-- FRSP transfers whose header waits, the cycle from which the first is presented, those whose data beats remain, and the cycle from
  which the next data beat is presented. -/
  frsp : List FrspXfer := []
  frspHeader : Option Nat := none
  frspOut : List FrspOut := []
  frspBeat : Option Nat := none
  /-- Sub-channels whose present wait has raised IP_STALL (R37). -/
  stalled : List Nat := []
  /-- The beats driven last on HREQ and FRSP: header; data, parity, last. -/
  hreqHdr : BitVec 128 := 0
  hreqBeat : BitVec 2048 := 0
  hreqPar : BitVec 32 := 0
  hreqLast : Bool := false
  frspHdr : BitVec 128 := 0
  frspData : BitVec 2048 := 0
  frspPar : BitVec 32 := 0
  frspLast : Bool := false
  deriving DecidableEq, Repr

/-- An outstanding request of a source pair (R194, R198). -/
structure SrcReq where
  txid : Nat
  slots : List Slot
  client : Client
  flow : Option Nat
  /-- Tick of its last transmission, once the flit with its header slot has been sent. -/
  sent : Option Nat := none
  /-- Transmissions that count toward RETRY_LIM. -/
  count : Nat := 0
  /-- Tick of a BUSY answer that it waits after. -/
  busyAt : Option Nat := none
  /-- It went on a relay route. -/
  relay : Bool := false
  deriving DecidableEq, Repr

structure SrcPair where
  next : Nat := 0
  reqs : List SrcReq := []
  /-- Tick since which nothing has been outstanding. -/
  idle : Nat := 0
  deriving DecidableEq, Repr

/-- States of a TXID at the target (R195). -/
inductive TxState where
  | open | pending | applied | refused
  deriving DecidableEq, Repr

structure TgtPair where
  nextExp : Nat
  map : Tab TxState := []
  /-- Tick of the last request received. -/
  last : Nat := 0
  deriving DecidableEq, Repr

/-- A request that waits for its commitment (R194): its header without TXID, its payload slots. -/
structure NewReq where
  dst : Nat
  slots : List Slot
  client : Client
  flow : Option Nat := none
  deriving DecidableEq, Repr

/-- An answer held until a mirror copy is answered (R202), and one for a unit that takes it with its own command. -/
structure Answer where
  client : Client
  resp : Nat
  data : List Byte := []
  deriving DecidableEq, Repr

/-! ### Atomics (R217 to R240) -/

/-- An atomic at its quad's lane. -/
structure Atom where
  client : Client
  /-- The requester. -/
  src : Nat
  aop : Nat
  opa : Nat
  opb : Nat
  /-- Host address and window of the word. -/
  addr : Nat
  ip : Nat
  win : Nat
  deriving DecidableEq, Repr

/-- A live word (R224, R225): its value once read, the atomics queued on it, those applied since the last covering WRITE
was issued and those that WRITE covers, each with the value it returned and CAS_OK. -/
structure LiveWord where
  h : Nat
  ip : Nat
  win : Nat
  value : Option Nat := none
  queue : List Atom := []
  applied : List (Atom × Nat × Bool) := []
  covered : List (Atom × Nat × Bool) := []
  writing : Bool := false
  deriving DecidableEq, Repr

structure AtomLane where
  words : List LiveWord := []
  arrivals : List Atom := []
  /-- HOT_FULL has been raised for the present wait (R229). -/
  full : Bool := false
  deriving DecidableEq, Repr

/-- A Chest entry that is not FREE (R230): `filled` is the tick its age counts from, none while RESERVED. -/
structure ChestEntry where
  src : Nat
  txid : Nat
  old : Nat := 0
  casOk : Bool := false
  filled : Option Nat := none
  /-- An ATOMIC_RELEASE came while it was RESERVED. -/
  released : Bool := false
  deriving DecidableEq, Repr

/-- A Lectern thread: whether it awaits a remote answer, and the last answer's RESP and data (R239). -/
structure LThread where
  parked : Bool := false
  resp : Option Nat := none
  data : List Byte := []
  deriving DecidableEq, Repr

/-- The Lectern: the halves in use, the tick in which a restart under way began, recovery (R238, R384), and the cycle in which it last
executed a repair decision (R238, R431). -/
structure Lectern where
  mode : PairMode := .pair
  restart : Option Nat := none
  recovery : Bool := false
  decided : Option Nat := none
  /-- A restart in lockstep is under way or was the last: a mismatch without a failing self-check soon after it leaves half A
  alone (R384). The cycle it ended in. -/
  lockstep : Bool := false
  ended : Option Nat := none
  /-- No half works (R384, R485). -/
  dead : Bool := false
  deriving DecidableEq, Repr

structure Transact where
  spairs : Tab (Option SrcPair) := []
  tpairs : Tab (Option TgtPair) := []
  /-- Requests waiting for commitment, in order of arrival. -/
  waiting : List NewReq := []
  /-- Answers held under MSYNC, by number. -/
  held : List (Nat × List Answer) := []
  /-- Fences: of inner port i under i, of DMA channel c under 16 + c (R211). -/
  fences : Tab Fence := []
  nextHold : Nat := 0
  /-- Mirror copies not yet answered under MSYNC 0, by window (MLAG). -/
  mlag : Tab Nat := []
  /-- Answers for units that take them up themselves, oldest first. -/
  done : List Answer := []
  chest : List ChestEntry := []
  lanes : Tab AtomLane := []
  threads : Tab LThread := []
  /-- The thread that runs among eight, and the cycle from which it does (R239). -/
  current : Nat := 0
  resumes : Nat := 0
  deriving DecidableEq, Repr

/-! ### The Workbench (R270 to R297) -/

/-- The rounding mode of an encoding: RNE, or SR with the numbers of a SID and chunk number from an element index on. -/
inductive RMode where
  | rne
  | sr (sid chunk elem : Nat)
  deriving DecidableEq, Repr

/-- What a Workbench segment does: its operation and output (R276, R289). -/
structure SegOp where
  rop : Nat
  out : Nat
  /-- O elements per record; 0 for the other operations. -/
  dv : Nat := 0
  norm : Bool := false
  mode : RMode := .rne
  /-- Elements, or records, of the segment. -/
  n : Nat
  deriving DecidableEq, Repr

/-- What a segment on a unit is for: a fold or encoding of stream `u`, chunk, segment and level (0 a fold or an own
contribution, 1 and 2 the levels of TREE); or chunk `n` of a DMA channel's requantization. -/
inductive SegUse where
  | col (u chunk seg level : Nat)
  | chan (c n : Nat)
  deriving DecidableEq, Repr

/-- A contribution on its way into a segment: its combination index and format, its bytes, whether it is poisoned; for one
in a REDUCE packet the port and packet number and the request to answer; the cycle it is due from, and whether a refusal
has been counted. -/
structure Contrib where
  use : SegUse
  gen : Nat := 0
  idx : Nat
  fmt : Nat
  data : List Byte
  poison : Bool := false
  pkt : Option (Nat × Nat × RemoteReq) := none
  /-- The cycle from which it may be presented (R252), and whether it is a rank-1 delivery, with the CTS of its slot (R16). -/
  due : Nat := 0
  timed : Bool := false
  slot : Nat := 0
  refused : Bool := false
  deriving DecidableEq, Repr

/-- An open segment (R290 to R296). -/
structure WbSeg where
  use : SegUse
  gen : Nat := 0
  op : SegOp
  ncont : Nat
  /-- Accumulator bytes it takes. -/
  room : Nat
  next : Nat := 0
  acc : List Nat := []
  /-- The fold in progress and the cycle of its update. -/
  folding : Option (Nat × Contrib) := none
  /-- Contributions held in the ordering window. -/
  held : List Contrib := []
  /-- The cycle in which its output is ready. -/
  ready : Option Nat := none
  poison : Bool := false
  /-- Tick of its last fold, or of its opening; ORDER_STALL stands raised for the present wait. -/
  last : Nat := 0
  stalled : Bool := false
  /-- NaN and overflow have been raised for it. -/
  saidNan : Bool := false
  saidOvf : Bool := false
  deriving DecidableEq, Repr

structure WbUnit where
  segs : List WbSeg := []
  /-- Contributions that wait for acceptance. -/
  wait : List Contrib := []
  /-- The cycle from which the input takes the next contribution, and the port it took the last of rank 2 from. -/
  inFree : Nat := 0
  lastPort : Nat := 0
  deriving DecidableEq, Repr

/-! ### Collectives (R299 to R318) -/

/-- A collective descriptor (R303). -/
structure ColDesc where
  cid : Nat := 0
  kind : Nat := 0
  alg : Nat := 0
  rop : Nat := 0
  inf : Nat := 0
  step : Nat := 0
  out : Nat := 0
  sr : Bool := false
  norm : Bool := false
  group : Nat := 0
  depth : Nat := 1
  startEn : Bool := false
  paceIdx : Nat := 0
  start : Nat := 0
  chunkElem : Nat := 1
  segElem : Nat := 1
  dv : Nat := 0
  nelem : Nat := 0
  inAddr : Nat := 0
  outAddr : Nat := 0
  auxAddr : Nat := 0
  auxLen : Nat := 0
  deriving DecidableEq, Repr

/-- Stream states (R302). -/
inductive ColState where
  | idle | fetch | wait | run | done | failed
  deriving DecidableEq, Repr

/-- The encoding of a stream state. -/
def ColState.code : ColState → Nat
  | .idle => 0 | .fetch => 1 | .wait => 2 | .run => 3 | .done => 4 | .failed => 5

/-- What a stream waits for an answer of. -/
inductive ColJob where
  /-- The descriptor. -/
  | desc
  /-- Its own input of segment (c, s), at a generation. -/
  | input (c s gen : Nat)
  /-- The host write of a result of segment (c, s), with or without a poison mark; and one that waits for reads of the
  accumulator at lower addresses. -/
  | result (c s : Nat) (poison : Bool)
  | held (c s : Nat) (poison : Bool)
  /-- The host write of a PLACE: the request to answer, the offset, whether it lies in AUX and ends a block, and the members
  the bytes go on to. -/
  | place (q : RemoteReq) (off : Nat) (aux last : Bool) (onward : List Nat)
  /-- Piece `n` of block `j` of ALLGATHER or ALLTOALL. -/
  | piece (j n : Nat)
  /-- The count table of ALLTOALL, from that byte. -/
  | counts (off : Nat)
  /-- A KV piece of step `j` at that offset of its bank. -/
  | kv (j off : Nat)
  /-- The accumulator, and the partial, of segment (c, s) of a merge. -/
  | accum (c s : Nat)
  | partial_ (c s : Nat)
  /-- A write of the step word or of a received count. -/
  | word
  /-- A REDUCE packet of segment (c, s) or of none; a RESTART; a PLACE of KV step `j`. -/
  | sent (cs : Option (Nat × Nat))
  | sentRestart
  | sentKv (j : Nat)
  deriving DecidableEq, Repr

/-- An outstanding access or packet of a stream, and the Dresser bytes it holds. -/
structure ColWait where
  n : Nat
  job : ColJob
  bytes : Nat
  data : List Byte := []
  deriving DecidableEq, Repr

structure Stream where
  st : ColState := .idle
  code : Nat := 0
  d : ColDesc := {}
  /-- This die's group index and the member dies, in group order. -/
  index : Nat := 0
  members : List Nat := []
  /-- Accumulator scratch reserved, in bytes; none before. -/
  reserved : Option Nat := none
  /-- The tick at whose cycle 0 it enters RUN. -/
  runTick : Option Nat := none
  jobs : List ColWait := []
  nextJob : Nat := 0
  /-- Segments, or pieces, taken up so far. -/
  cursor : Nat := 0
  /-- Segments taken up whose roles here are not complete. -/
  live : List (Nat × Nat) := []
  /-- Segments, or pieces, that are to be performed again and have found no room yet (R317). -/
  again : List (Nat × Nat) := []
  /-- Generations of restarted segments: chunk, segment, generation. -/
  gens : List (Nat × Nat × Nat) := []
  restarts : Nat := 0
  /-- Bytes placed here by others and answered OK. -/
  placed : Nat := 0
  poison : Bool := false
  /-- FOLDs for segments not yet opened. -/
  early : List Contrib := []
  /-- ALLTOALL: the counts read; per receive slot the bytes placed and, after LAST, the bytes in all; own block whole. -/
  counts : List Nat := []
  slots : Tab (Nat × Option Nat) := []
  /-- SEQRING: edges since WAIT, steps merged, the highest READY from next, the step being forwarded and how far, KV bytes
  placed by step, KVREADY, and the last READY sent to prev. -/
  edges : Nat := 0
  merged : Nat := 0
  merging : Bool := false
  readyIn : Nat := 0
  fwd : Nat := 0
  fwdOff : Nat := 0
  kvIn : Tab Nat := []
  kvReady : Nat := 0
  readyOut : Nat := 0
  /-- The die and index awaited at its last ORDER_STALL. -/
  stall : Option (Nat × Nat) := none
  deriving DecidableEq, Repr

/-! ### DMA channels (R321 to R349) -/

/-- Channel states (R335). -/
inductive ChanSt where
  | idle | run | ringWait | stopping | stopped | halting | halted
  deriving DecidableEq, Repr

/-- The encoding of a channel state. -/
def ChanSt.code : ChanSt → Nat
  | .idle => 0 | .run => 1 | .ringWait => 2 | .stopping => 3 | .stopped => 4 | .halting => 5 | .halted => 6

/-- A piece of a descriptor's chain (R327, R328): the extension it came in and that descriptor's address, its endpoints, and
its parameter words P0 to P7. -/
structure Piece where
  hop : Nat
  at_ : Nat
  sAddr : Nat
  dAddr : Nat
  sDie : Nat
  dDie : Nat
  sFab : Bool
  dFab : Bool
  ip : Nat
  len : Nat
  p : List Nat
  deriving DecidableEq, Repr

/-- A DMA transaction: the HEAD entry or a prefetched one, an extension, a part of the index table, a read at a source
position, a write at a destination position, the write-back. -/
inductive DmaJob where
  | head
  | prefetch
  | ext
  | index (off : Nat)
  | read (pos n : Nat)
  | write (pos n : Nat)
  | writeBack
  deriving DecidableEq, Repr

/-- An outstanding transaction: its number, where it goes, and its engine (0 to 7 read, 8 to 15 write). -/
structure DmaWait where
  n : Nat
  job : DmaJob
  addr : Nat
  fab : Bool
  die : Nat
  eng : Nat
  deriving DecidableEq, Repr

/-- A latched failure (R342). -/
structure DmaFail where
  code : Nat
  dir : Nat
  addr : Nat
  fab : Bool := false
  die : Nat := 0
  resp : Nat := 0
  hop : Nat := 0
  pos : Nat := 0
  /-- The cycle it arose in. -/
  came : Nat := 0
  deriving DecidableEq, Repr

structure Chan where
  st : ChanSt := .idle
  shadow : Bool := false
  stopPend : Bool := false
  ovl : Bool := false
  /-- The current image, 64 bytes; a descriptor is under way. -/
  cur : List Nat := []
  busy : Bool := false
  /-- A fetch of the entry at HEAD, or of the one after it, is wanted; the entry prefetched and owned. -/
  ask : Bool := false
  askPre : Bool := false
  pre : Option (List Nat) := none
  /-- Extensions followed, the address of the next one to fetch, one fetched and not taken up, and a chain cut at HOPMAX. -/
  hops : Nat := 0
  extAt : Option Nat := none
  ext : Option (Nat × List Nat) := none
  loop : Option Nat := none
  /-- The piece in progress; it has passed its checks and moves. -/
  piece : Option Piece := none
  moving : Bool := false
  descending : Bool := false
  /-- Source bytes, and chunks of REQUANT, of the pieces before it. -/
  base : Nat := 0
  chunk0 : Nat := 0
  /-- The fence of R338: not started, running, over. -/
  fence : Option Bool := none
  /-- Source bytes asked for; what has come, by position; destination bytes asked to be written, and those answered OK. -/
  rpos : Nat := 0
  src : List (Nat × List Byte) := []
  wpos : Nat := 0
  wdone : Nat := 0
  /-- REQUANT: chunks given to the Workbench, and encoded bytes by destination position. -/
  fed : Nat := 0
  enc : List (Nat × List Byte) := []
  /-- The index table: bytes asked for, entries come, and whether the check pass is over. -/
  tabAsk : Nat := 0
  tab : List (Nat × List Nat) := []
  tabOk : Bool := false
  /-- PACED: source bytes that bursts taken allow, bursts taken, and bursts a repetition takes free (R339, R343). -/
  allow : Nat := 0
  taken : Nat := 0
  credit : Nat := 0
  waits : List DmaWait := []
  nextN : Nat := 0
  fail : Option DmaFail := none
  /-- A write-back is wanted; its status and SKIPPED; the halt came from it. -/
  askWb : Bool := false
  status : Nat := 0
  skipped : Bool := false
  wbFailed : Bool := false
  /-- Progress in the present tick; whole ticks without; STALLED (R344). -/
  moved : Bool := false
  stall : Nat := 0
  stalled : Bool := false
  /-- The cycle of the last edge counted (R347). -/
  edgeAt : Option Nat := none
  deriving DecidableEq, Repr

/-! ### Protection (R403 to R420) -/

/-- A change armed or being checked (R410): the party that armed it (the fabric manager or the host security agent), the
digest and the nonce it gave, and the tick of the ARM, from ARMED on that of the arming. -/
structure ArmedChange where
  fm : Bool
  dig : Nat
  nonce : Nat
  tick : Nat
  deriving DecidableEq, Repr

structure Protect where
  /-- The image in force and the staging image, by word, without their KCV words (R406, R407). -/
  img : Tab Word := []
  stg : Tab Word := []
  /-- The staging image has been written since the last zeroisation (PRO_STG_DIG). -/
  stgSeen : Bool := false
  /-- The key in force and the staged key, 32 bytes each (R405, R408). -/
  key : Option (List Nat) := none
  stgKey : Option (List Nat) := none
  change : Option ArmedChange := none
  /-- The tick at whose cycle 0 a committed change applies. -/
  applyAt : Option Nat := none
  /-- The tick of the lock holder's last access to the PRO block (R408). -/
  lockTick : Nat := 0
  deriving DecidableEq, Repr

/-! ### Quads and their port engines (R371 to R382) -/

/-- A hand-over decided (R376): the quad's port, the engine that serves it from the effective tick, that tick, whether a link
reset follows, whether the engine changes, the engines that leave service then, and one that is tested then (R377, R378). -/
structure HandOver where
  port : Nat
  /-- The cycle it was decided in. -/
  since : Nat
  eng : Nat
  eff : Nat
  reset : Bool
  change : Bool
  leave : List Nat := []
  test : Option Nat := none
  deriving DecidableEq, Repr

structure Quad where
  /-- The shadow is attached: to which port of the quad, and since which tick (R374). -/
  attached : Option (Nat × Nat) := none
  /-- DWELL_LOG2 as the present attachment took it (R400). -/
  dwell : Nat := 16
  /-- The port of the quad from which the next attachment looks (R375). -/
  next : Nat := 0
  /-- Engines whose rotation slice is under way or waits; the one that passes becomes the shadow (R375, R377). -/
  testing : List Nat := []
  hand : List HandOver := []
  /-- The tick in which a quad reset began (R17, R382). -/
  reset : Option Nat := none
  deriving DecidableEq, Repr

/-! ### Plovirko (R426 to R436) -/

/-- Where a request came from: the test port, the mailbox, or another die under a packet number. -/
inductive PlvPath where
  | tap | mailbox
  | remote (src pktid : Nat)
  deriving DecidableEq, Repr

/-- A request: its path and its bytes. -/
structure PlvReq where
  path : PlvPath
  bytes : List Nat
  deriving DecidableEq, Repr

/-- A reassembly context (R435): its sender and packet number, the fragment expected next, the bytes so far, and the tick of
its last fragment. -/
structure PlvCtx where
  src : Nat
  pktid : Nat
  next : Nat
  bytes : List Nat
  tick : Nat
  deriving DecidableEq, Repr

/-- A kept reply (R436): its requester, OPC, SEQ and NONCE, and the reply. -/
structure PlvKept where
  src : Nat
  opc : Nat
  seq : Nat
  nonce : Nat
  reply : List Nat
  deriving DecidableEq, Repr

structure Plovirko where
  /-- The test-port request that waits, and the last reply to one (R433). -/
  tapReq : Option (List Nat) := none
  tapRsp : List Nat := []
  /-- Remote requests, reassembled, in order (R429). -/
  queue : List PlvReq := []
  ctxs : List PlvCtx := []
  /-- Kept replies, the latest requester first. -/
  kept : List PlvKept := []
  /-- A PROT_ARM under execution, whose check runs (R410). -/
  armed : Option PlvReq := none
  /-- Fragments in a port's send queue: port, fragment, the tick it came there (R435). -/
  sent : List (Nat × Slot × Nat) := []
  /-- Tick of the last staging write, for nothing but MGT_SDIG's 16 ticks (R439). -/
  staged : Nat := 0
  deriving DecidableEq, Repr

/-! ### Self-test and repair (R445 to R458) -/

/-- What a slice is for (R448). -/
inductive SliceWhy where
  /-- The rotation of a quad tests an engine. -/
  | rotation (q e : Nat)
  /-- A macro with a poisoned word or a queued REPAIR_SOFT record. -/
  | damage
  /-- BIST_RUN; ENGINE_RETURN and UNIT_RETURN, which return the unit on PASS. -/
  | run
  | giveBack
  /-- The background sweep. -/
  | sweep
  deriving DecidableEq, Repr

/-- A slice's object: a logic unit, or a macro by array and instance with the unit that owns it (R449, R450). -/
structure SliceJob where
  why : SliceWhy
  unit : Nat
  mem : Option (Nat × Nat) := none
  budget : Nat
  deriving DecidableEq, Repr

/-- A slice in progress: the tick its first step starts in, its phase (0 save, 1 test or patterns, 2 restore), the steps done
of it, the tick from which the next step may run, and the failing pairs found. -/
structure Slice where
  job : SliceJob
  began : Nat
  phase : Nat := 0
  steps : Nat := 0
  next : Nat := 0
  fails : List (Nat × Nat) := []
  /-- Set once the slice's outcome is fixed before it ends: its code and CAUSE. -/
  verdict : Option (Nat × Nat) := none
  /-- BIST_OVER stands raised. -/
  exceeded : Bool := false
  deriving DecidableEq, Repr

structure TestCtl where
  run : Option Slice := none
  /-- Tick in which the last slice ended. -/
  ended : Option Nat := none
  /-- Rotation slices that wait: quad and engine; macros queued: array and instance; a requested slice. -/
  rot : List (Nat × Nat) := []
  damage : List (Nat × Nat) := []
  request : Option SliceJob := none
  sweep : Option (Nat × Nat) := none
  /-- The macro the sweep visited last, as its place in the order of all macros, and by owner the place last tested. -/
  swept : Option Nat := none
  tested : Tab (Option Nat) := []
  /-- Soft-repair records, slot 512 first, and queued SRAM records that a slice has not applied (R455). -/
  soft : List (BitVec 128) := []
  queued : List (BitVec 128) := []
  /-- The repair records in force from the last eFuse load (R456). -/
  loaded : List (BitVec 128) := []
  /-- The test controller has failed (R382). -/
  broken : Bool := false
  /-- The burn: a record, the party that armed it (the fabric manager), the tick; and one being programmed since a tick (R457). -/
  armed : Option (BitVec 128 × Bool × Nat) := none
  burning : Option (BitVec 128 × Nat) := none
  /-- The wrapper instruction in force: none, WS_EXTEST or WS_SAFE (R460). -/
  wrapper : Nat := 0
  /-- What the cells of the wrapper's boundary register drive (R54). -/
  cells : WrapPins := {}
  /-- What the test port captured last (R460 to R463). -/
  dr : Nat := 0
  /-- Zeroised for a read-out in this freeze (R461). -/
  zeroed : Bool := false
  deriving DecidableEq, Repr

/-! ### The fault log (R19, R393 to R397) -/

/-- The state of a unit, as handed up with its fault record (R19; log 104). -/
inductive UnitState where
  | lane (x : Lane)
  | port (x : Port)
  | quad (x : Quad)
  | workbench (x : WbUnit)
  | channel (x : Chan)
  | innerPort (x : InnerPort)
  | timeBase (x : TimeBase)
  | lectern (x : Lectern)
  | test (x : TestCtl)
  | sideband (x : Blsb)
  /-- A unit of which the model keeps nothing beside its registers. -/
  | registers
  deriving DecidableEq, Repr

structure FaultLog where
  /-- The ring's entries by index; an unlisted entry holds no record. -/
  ring : Tab (Option FaultRec) := []
  /-- Entries that hold an uncorrectable word (FLT_IDX.POISON). -/
  poison : List Nat := []
  wptr : Nat := 0
  count : Nat := 0
  /-- Records handed over and not yet entered (R396). -/
  held : List FaultRec := []
  /-- The newest record made, entered or not (R397), and its RECNO. -/
  newest : Option FaultRec := none
  recno : Nat := 0
  /-- The snapshot handed up with the newest record: the unit and its state (R19; log 104). -/
  snap : Option (Nat × UnitState) := none
  deriving DecidableEq, Repr

/-! ### Bring-up and quiescing (R423, R424, R470) -/

structure Bringup where
  /-- At the end of the tick before, all held that TRAIN, or QUIESCE, is left on (R423). -/
  leaves : Bool := false
  /-- The tick of entry to TRAIN, and to QUIESCE, and whether its stall has been raised. -/
  trainFrom : Nat := 0
  trainSaid : Bool := false
  quietFrom : Nat := 0
  quietSaid : Bool := false
  /-- The ports of the mask beside the upstream port have begun their first training (R81, R470). -/
  others : Bool := false
  deriving DecidableEq, Repr

/-- What a DMA channel reads as where none is listed: IDLE. -/
def chan0 (_ : Nat) : Chan := {}

/-- What a lane reads as where none is listed: OFF, at its reset values. -/
def lane0 (_ : Nat) : Lane := {}

/-- What a port reads as where none is listed: down, at its reset values. -/
def port0 (_ : Nat) : Port := {}

/-- How hardware acts on a field that software can write in the same cycle (R484): a saturating or wrapping increment, or a
value observed by a PEAK field. A status bit set is a saturating increment of one bit. -/
inductive BumpKind where
  | sat | wrap | peak
  deriving DecidableEq, Repr

/-- One such action: the register, the field, and the amount or value. -/
structure Bump where
  kind : BumpKind
  addr : Nat
  lo : Nat
  w : Nat
  n : Nat
  deriving DecidableEq, Repr

/-! ### The state -/

structure State where
  /-- Commands waiting, first in first out. -/
  pending : List Instr := []
  /-- The model's own counter of free values taken: the n-th open value is `Config.freeValue n`. -/
  free : Nat := 0
  /-- The Cedrigo time stamp (R66). -/
  cts : Nat := 0
  /-- The register file: what each register's stored fields hold, by byte address. -/
  regs : Tab Word := []
  /-- The values in force of the registers whose writes take effect at cycle 0 of the next tick (R483). -/
  inForce : Tab Word := []
  /-- What hardware did to counters, PEAK fields and status bits in the present cycle (R484). -/
  bumps : List Bump := []
  evts : Tab EvtBlock := []
  bnd : Boundary := {}
  flt : FaultLog := {}
  efuse : EFuse := {}
  blsb : Blsb := {}
  tb : TimeBase := {}
  lanes : Tab Lane := []
  ports : Tab Port := []
  banks : Banks := {}
  ips : Tab InnerPort := []
  tx : Transact := {}
  wb : Tab WbUnit := []
  col : Tab Stream := []
  dma : Tab Chan := []
  /-- The channel each DMA engine granted last (R323). -/
  granted : Tab Nat := []
  prot : Protect := {}
  lect : Lectern := {}
  /-- The quads (R371 to R382). -/
  quads : Tab Quad := []
  /-- Workbench units and DMA engines that leave service, or return to it, at cycle 0 of a tick: unit number, tick
  (R346, R382, R430). -/
  leaving : List (Nat × Nat) := []
  returning : List (Nat × Nat) := []
  plv : Plovirko := {}
  tst : TestCtl := {}
  bring : Bringup := {}
  deriving DecidableEq, Repr

/-- The adapter under a power-on reset: ADP_STATE OFF, every register at its reset value, GLB_RSTCAUSE.PORST set
(R61), and the PRO block's ZEROISED event raised by the zeroisation the reset performs (R418). -/
def State.reset : State :=
  { regs := [(glbRstcause, 1)]
    evts := [(evPro, { raw := 0x80, cnt := BitVec.ofNat 256 (2 ^ 56), hw := 0x80 })] }

end Sys2Proof.Machine
end

