-- ==== Sys2Proof/Machine/Ops.lean ====
section
/-!
DEFINITION. The named operations over the register file, the event blocks, the clock and the fault hand-off.
-/
namespace Sys2Proof.Machine

/-! ### Register fields -/

/-- The reset value of the register at `a`: the reset values of its fields, put together. -/
def regReset (a : Nat) : Word :=
  match regFields a with
  | some fs => BitVec.ofNat 32 (fs.foldl (fun v f => v + f.reset * 2 ^ f.lo) 0)
  | none => 0

/-- What the stored fields of the register at `a` hold. -/
def getReg (s : State) (a : Nat) : Word := tget regReset s.regs a

/-- Stores a whole register. -/
def putReg (a : Nat) (v : Word) (s : State) : State := { s with regs := tset regReset s.regs a v }

/-- Bits `lo + w - 1` down to `lo` of a word. -/
def fld (v : Word) (lo w : Nat) : Nat := v.toNat / 2 ^ lo % 2 ^ w

/-- `v` with that field replaced by `x` modulo 2^w. -/
def setFld (v : Word) (lo w x : Nat) : Word :=
  BitVec.ofNat 32 (v.toNat - fld v lo w * 2 ^ lo + x % 2 ^ w * 2 ^ lo)

/-- A stored field of the register at `a`. -/
def getF (s : State) (a lo w : Nat) : Nat := fld (getReg s a) lo w

/-- Stores a field of the register at `a`. -/
def setF (a lo w x : Nat) (s : State) : State := putReg a (setFld (getReg s a) lo w x) s

/-- A field as it is in force: for registers whose writes take effect at cycle 0 of the next tick, the value
taken then (R483). -/
def effF (s : State) (a lo w : Nat) : Nat := fld (tget regReset s.inForce a) lo w

/-- A flag as a number. -/
def bit (b : Bool) : Nat := if b then 1 else 0

/-- Adds `n` to a saturating counter, and keeps the increment for a write of the same cycle (R484). -/
def bumpN (a lo w n : Nat) (s : State) : State :=
  let t := setF a lo w (min (getF s a lo w + n) (2 ^ w - 1)) s
  { t with bumps := ⟨.sat, a, lo, w, n⟩ :: t.bumps }

/-- Adds one to a saturating counter. -/
def bump (a lo w : Nat) (s : State) : State := bumpN a lo w 1 s

/-- Adds `n` to a counter that wraps modulo 2^32 (R484). -/
def bumpWrap (a n : Nat) (s : State) : State :=
  let t := setF a 0 32 (getF s a 0 32 + n) s
  { t with bumps := ⟨.wrap, a, 0, 32, n⟩ :: t.bumps }

/-- Raises a PEAK field to `u` (R484). -/
def peak (a lo w u : Nat) (s : State) : State :=
  let t := setF a lo w (max (getF s a lo w) (min u (2 ^ w - 1))) s
  { t with bumps := ⟨.peak, a, lo, w, u⟩ :: t.bumps }

/-! ### The clock -/

/-- The tick number (R66). -/
def State.tick (s : State) : Nat := s.cts / 1024
/-- The cycle within the tick (R66). -/
def State.cyc (s : State) : Nat := s.cts % 1024

/-- The clocks run and the adapter is past entry to BOOT: every state but OFF and FROZEN. -/
def State.alive (s : State) : Bool := s.bnd.adp != .off && s.bnd.adp != .frozen

/-- The adapter acts: every state but OFF, FROZEN and FAULT (R386, R422). -/
def State.acts (s : State) : Bool := s.alive && s.bnd.adp != .fault

/-- MREADY: 0 in the cycle of MRVALID too (R38). -/
def State.mready (s : State) : Bool := s.bnd.mready && decide (s.bnd.mrvalid ≠ some s.cts)

/-- An access finishes: MRVALID in this cycle, with MRERR (R38, R39). -/
def finishAccess (err : Bool) (s : State) : State := { s with bnd := { s.bnd with mrvalid := some s.cts, mrerr := err } }

/-- A write through the management port with effect `f` (R38, R485): not taken while MREADY is 0, finished with MRERR in
FAULT. -/
def hostWrite (f : State → State) (s : State) : State :=
  if !s.mready then s
  else if s.acts then f (finishAccess false s)
  else finishAccess true s

/-- A read through the management port finishes with its data (R38). -/
def hostRead (v : Word) (s : State) : State :=
  let t := finishAccess false s
  { t with bnd := { t.bnd with mrdata := v } }

/-! ### Free values -/

/-- The next free value, and the state past it (log 3). -/
def takeFree (s : State) : Nat × State := (Config.freeValue s.free, { s with free := s.free + 1 })

/-! ### Events (R9 to R12) -/

/-- No event block holds anything at reset. -/
def evt0 (_ : Nat) : EvtBlock := {}

/-- The event block at base `b`. -/
def getEvt (s : State) (b : Nat) : EvtBlock := tget evt0 s.evts b

/-- Counter `e` of a block. -/
def EvtBlock.count (k : EvtBlock) (e : Nat) : Nat := k.cnt.toNat / 2 ^ (8 * e) % 256

/-- A block with counter `e` at `v`. -/
def EvtBlock.setCount (k : EvtBlock) (e v : Nat) : EvtBlock :=
  { k with cnt := BitVec.ofNat 256 (k.cnt.toNat - k.count e * 2 ^ (8 * e) + v % 256 * 2 ^ (8 * e)) }

/-- A block after event `e` occurs: the raw bit is set and the counter rises, saturating at 255 (R10). -/
def EvtBlock.occur (k : EvtBlock) (e : Nat) : EvtBlock :=
  { (k.setCount e (min (k.count e + 1) 255)) with raw := k.raw ||| BitVec.ofNat 32 (2 ^ e) }

/-- An event that hardware raises: occurrences of one cycle are one, so that with a 1 written to EVT_SET the counter rises by at most
two in it (R10). -/
def EvtBlock.hardware (k : EvtBlock) (e : Nat) : EvtBlock :=
  let m : BitVec 32 := BitVec.ofNat 32 (2 ^ e)
  if k.hw &&& m = 0 then { (k.occur e) with hw := k.hw ||| m } else { k with raw := k.raw ||| m }

/-- Hardware raises event `e` of the block at base `b`. -/
def raise (b e : Nat) (s : State) : State :=
  { s with evts := tmod evt0 s.evts b (fun k => k.hardware e) }

/-- EVT_PEND takes EVT_RAW and EVT_EN of the cycle before (R12), and the cycle's hardware events are past. -/
def EvtBlock.latch (k : EvtBlock) : EvtBlock := { k with pend := k.raw &&& k.en, hw := 0 }

/-- A cycle passes for every event block and counter. -/
def latchEvents (s : State) : State :=
  { s with
    evts := s.evts.foldl (fun t e => tmod evt0 t e.1 EvtBlock.latch) s.evts
    bumps := [] }

/-- The time moves on to cycle `c` of the present tick, where it has not passed it. -/
def arrive (c : Nat) (s : State) : State :=
  if s.cyc < c then latchEvents { s with cts := s.tick * 1024 + c % 1024 } else s

/-- The base of a unit's event block (R487). -/
def evtBase : EvtUnit → Nat
  | .glb => evGlb | .tb => evTb | .mgt => evMgt | .pro => evPro | .cal => evCal | .pwr => evPwr
  | .qd q => evQd q | .prt p => evPrt p | .ln l => evLn l
  | .dma => evDma | .dmaCh c => evDmaCh c | .wb => evWb | .atm => evAtm | .tst => evTst

/-- An interrupt output: 1 while any EVT_PEND bit of a block assigned to it is 1, 0 from reset until BOOT (R41). -/
def State.irq (s : State) (o : Irq) : Bool :=
  s.bnd.adp != .off && s.evts.any (fun e => decide (evtIrq e.1 = o) && e.2.pend != 0)

/-! ### Identity -/

/-- This die's ID (R184). -/
def State.die (s : State) : Nat := getF s glbDieid 0 18
/-- The site of a die ID. -/
def siteOf (d : Nat) : Nat := d % 64
/-- The layer of a die ID. -/
def layerOf (d : Nat) : Nat := d / 64
/-- This die's site; its port of that number is the spur (R13). -/
def State.site (s : State) : Nat := siteOf s.die

/-! ### Two's complement fields -/

/-- A whole number as a `w`-bit two's complement field. -/
def ofInt (w : Nat) (x : Int) : Nat := (x % (2 ^ w : Nat)).toNat

/-- A `w`-bit two's complement field as a whole number. -/
def toInt (w v : Nat) : Int := if v % 2 ^ w < 2 ^ (w - 1) then ((v % 2 ^ w : Nat) : Int) else ((v % 2 ^ w : Nat) : Int) - ((2 ^ w : Nat) : Int)

/-- `x` held between `a` and `b`. -/
def clampInt (x a b : Int) : Int := max a (min x b)

/-! ### Unit numbers (R88) -/

def unitLane (l : Nat) : Nat := l
def unitPort (p : Nat) : Nat := 0x0200 + p
def unitArb (q : Nat) : Nat := 0x0280 + q
def unitEng (q e : Nat) : Nat := 0x0300 + 0x20 * q + e
def unitWb (u : Nat) : Nat := 0x0400 + u
def unitChan (c : Nat) : Nat := 0x0500 + c
/-- Read engines 0 to 7, write engines 8 to 15. -/
def unitDmaEng (e : Nat) : Nat := 0x0580 + e
def unitIp (i : Nat) : Nat := 0x0680 + i
def unitAtm : Nat := 0x0700
def unitTb : Nat := 0x0780
def unitLectern : Nat := 0x0800
def unitProt : Nat := 0x0880
def unitTest : Nat := 0x0900
def unitBlsb : Nat := 0x0980

/-! ### Fault records (R393 to R397) -/

/-- Fault actions (R395). -/
inductive FaultAct where
  | none | laneSwap | laneFailed | linkReset | widthReduced | coldTrain | takeover | resume | takeoverReset
  | portLostRelay | portLostUnreach | quadReset | unitOut | remap | survivor | lecternRestart | poisoned
  | adapterFault | returned | bistRetry
  deriving DecidableEq, Repr

/-- The encoding of a fault action. -/
def FaultAct.code : FaultAct → Nat
  | .none => 0x00 | .laneSwap => 0x01 | .laneFailed => 0x02 | .linkReset => 0x03 | .widthReduced => 0x04
  | .coldTrain => 0x05 | .takeover => 0x06 | .resume => 0x07 | .takeoverReset => 0x08 | .portLostRelay => 0x09
  | .portLostUnreach => 0x0A | .quadReset => 0x0B | .unitOut => 0x0C | .remap => 0x0D | .survivor => 0x0E
  | .lecternRestart => 0x0F | .poisoned => 0x10 | .adapterFault => 0x11 | .returned => 0x12 | .bistRetry => 0x13

/-- Levels of R17 as a record's LEVEL carries them. -/
inductive FaultLevel where
  | lane | port | quad | adapter | management
  deriving DecidableEq, Repr

/-- The encoding of a level. -/
def FaultLevel.code : FaultLevel → Nat
  | .lane => 0 | .port => 1 | .quad => 2 | .adapter => 3 | .management => 4

/-- The state of unit `u`, as it is handed up with its record (R19; log 104). -/
def snapOf (u : Nat) (s : State) : UnitState :=
  if u < 0x200 then .lane (tget lane0 s.lanes u)
  else if u < 0x280 then .port (tget port0 s.ports (u - 0x200))
  else if u < 0x300 then .quad (tget (fun _ => {}) s.quads (u - 0x280))
  else if u < 0x400 then .quad (tget (fun _ => {}) s.quads ((u - 0x300) / 32))
  else if u < 0x500 then .workbench (tget (fun _ => {}) s.wb (u - 0x400))
  else if u < 0x580 then .channel (tget chan0 s.dma (u - 0x500))
  else if 0x680 ≤ u ∧ u < 0x700 then .innerPort (tget (fun _ => {}) s.ips (u - 0x680))
  else if 0x780 ≤ u ∧ u < 0x800 then .timeBase s.tb
  else if u = 0x800 then .lectern s.lect
  else if u = 0x900 then .test s.tst
  else if u = 0x980 then .sideband s.blsb
  else .registers

/-- A unit hands a record, with a snapshot of the state of the unit acted on, to the fault log (R19, R394, R396): the detecting unit,
the unit acted on, the level, the code, the action and the detail. -/
def handOver (src unit : Nat) (lvl : FaultLevel) (code : Nat) (act : FaultAct) (detail : Nat) (s : State) : State :=
  { s with flt := { s.flt with
      snap := some (unit, snapOf unit s)
      held := s.flt.held ++
        [{ cts := s.cts, source := s.die * 2 ^ 14 + src, level := lvl.code, unit := unit, code := code,
           action := act.code, recno := 0, detail := detail }] } }

/-- The macros of an array that unit `owner` owns: the first, how many, and the step between them (R450; log 62). -/
def macrosOf (array owner : Nat) : Nat × Nat × Nat :=
  let p := owner - 0x0200
  match array with
  | 0 => (8 * p, 8, 1)
  | 1 => (8 * p, 8, 1)
  | 2 => (p / 16, 1, 1)
  | 3 => (0, 32, 1)
  | 4 => (64 * (owner - 0x0400), 64, 1)
  | 5 => ((owner - 0x0580) % 8, 32, 8)
  | 6 => (p, 1, 1)
  | 7 => if owner = 0x0900 then (8, 11, 1) else (p / 8, 1, 1)
  | 8 => (0, 1, 1)
  | _ => (0, 2, 1)

/-- A memory slice of a macro is wanted, after those already wanted (R448). -/
def wantMacro (array inst : Nat) (s : State) : State :=
  if s.tst.damage.contains (array, inst) then s else { s with tst := { s.tst with damage := s.tst.damage ++ [(array, inst)] } }

/-- A read finds an uncorrectable word of array `array` (R388, R394, R450): a record, and its macro is queued for a slice.
Which row of the owner's macros it is, the command does not say: a free value. -/
def sramUncorr (src owner : Nat) (lvl : FaultLevel) (array : Nat) (act : FaultAct) (s : State) : State :=
  let (n, t) := takeFree s
  let (first, count, step) := macrosOf array owner
  let inst := first + n / 1024 % count * step
  wantMacro array inst (handOver src owner lvl 0x0501 act (array + (inst * 1024 + n % 1024) * 2 ^ 16) t)

/-- Trainings in progress end with RESULT ABORTED, their lanes OFF (R107). -/
def endTrainings (s : State) : State :=
  let ps := (s.ports.map (·.1)).filter (fun p => (tget port0 s.ports p).ln.training.isSome)
  let ls := (s.lanes.map (·.1)).filter (fun l => decide ((tget lane0 s.lanes l).role = .training))
  { s with
    regs := ps.foldl (fun r p => tmod regReset r (prtLtrn p) (fun v => setFld v 0 4 5)) s.regs
    ports := ps.foldl (fun t p => tmod port0 t p (fun x => { x with ln := { x.ln with lstate := .down, training := none } })) s.ports
    lanes := ls.foldl (fun t l => tmod lane0 t l (fun x => { x with role := .off, out := .dark })) s.lanes }

/-- The adapter enters FAULT (R107, R386): lanes dark, trainings ended, inner ports low, ADP_STATE 8, STATE_CHANGE. OFF is left so only
by an overrun of the reset sequence (R52), which says so itself; FROZEN is not left so. -/
def enterFault (s : State) : State :=
  if s.bnd.adp = .fault then s
  else
    let t := endTrainings s
    raise evMgt 2 { t with bnd := { t.bnd with adp := .fault, cellsDark := true, portsLow := true, nextState := none } }

end Sys2Proof.Machine
end

