-- ==== Sys2Proof/Machine/Blsb.lean ====
section
/-!
DEFINITION. The base-layer sideband: frames, the scheduler of requests, and laser status (R56 to R58, R60, R101, R117).
-/
namespace Sys2Proof.Machine
open Host

/-! ### Frames (R56, R57) -/

/-- The CRC-8 of R57 over the low `n` bits of `w`. -/
def crc57 (n w : Nat) : Nat := crc8 n w 0

/-- A frame with its CRC (R57). -/
def blsbFrame (kind cell value seq : Nat) : BitVec 64 :=
  let body := kind % 16 + cell % 512 * 2 ^ 4 + value % 65536 * 2 ^ 16 + seq % 256 * 2 ^ 32
  BitVec.ofNat 64 (body + crc57 56 body * 2 ^ 56)

/-- A field of a frame. -/
def frameF (f : BitVec 64) (lo w : Nat) : Nat := f.toNat / 2 ^ lo % 2 ^ w

/-- BLSB_CK has a period of 16 cc; a frame takes 16 periods and the idle nibble after it one more (R56). -/
def blsbPeriod : Nat := 16

/-- What BLSB_DO carries in the present cycle: nibble k of the frame in its k-th period, lowest first, and 0 between frames (R56). -/
def State.blsbDo (s : State) : Nat :=
  match s.blsb.out with
  | some (c, f) => if c ≤ s.cts ∧ s.cts < c + 16 * blsbPeriod then frameF f (4 * ((s.cts - c) / blsbPeriod)) 4 else 0
  | none => 0

/-- KIND of the frames to the layer. -/
def kindHeaterSet : Nat := 1
def kindMonitorRead : Nat := 2
def kindLaserRead : Nat := 3

/-- The answer a request calls for: ACK, MONITOR_DATA or LASER_STATUS. -/
def answerKind (kind : Nat) : Nat :=
  if kind = kindHeaterSet then 0x8 else if kind = kindMonitorRead then 0x9 else 0xA

/-- A received frame passes: its CRC matches and its KIND is one the layer sends. -/
def frameOk (f : BitVec 64) : Bool :=
  crc57 56 (f.toNat % 2 ^ 56) == frameF f 56 8 &&
    (frameF f 0 4 == 0x8 || frameF f 0 4 == 0x9 || frameF f 0 4 == 0xA)

/-! ### The scheduler (R85 item 5, R117) -/

/-- The counts of grants begin afresh with a window of 4 ticks, and with a tick. -/
def Blsb.roll (b : Blsb) (tick : Nat) : Blsb :=
  let b1 := if b.window = tick / 4 then b else { b with window := tick / 4, gapUsed := 0, otherUsed := 0 }
  if b1.tick = tick then b1 else { b1 with tick := tick, gapTick := 0 }

/-- The request granted next: 15 in a window, of which 12 to gap calibration, at most 3 of them in a tick, and 3 to training and
deep calibration; where one owner has no request waiting its share goes to the other. The laser status stands with the latter
(log 94). -/
def Blsb.grant (b : Blsb) : Option BlsbReq :=
  if 15 ≤ b.gapUsed + b.otherUsed then none
  else
    let gap := if b.gapTick < 3 then b.queue.find? (fun r => decide (r.owner = .gap)) else none
    match gap, b.queue.find? (fun r => decide (r.owner ≠ .gap)) with
    | some g, some o => if b.gapUsed < 12 then some g else some o
    | some g, none => some g
    | none, o => o

/-- The line is free: the next request granted leaves (R56, R117). -/
def blsbPump (s : State) : State :=
  if !s.bnd.blsbCk || decide (s.cts < s.blsb.free) then s
  else
    let b := s.blsb.roll s.tick
    match b.grant with
    | none => { s with blsb := b }
    | some r =>
      { s with blsb := { b with
          queue := b.queue.filter (fun q => q.seq != r.seq), waiting := b.waiting ++ [{ r with sent := s.tick }]
          out := some (s.cts, blsbFrame r.kind r.cell r.value r.seq), free := s.cts + 17 * blsbPeriod
          gapUsed := b.gapUsed + bit (decide (r.owner = .gap)), gapTick := b.gapTick + bit (decide (r.owner = .gap))
          otherUsed := b.otherUsed + bit (decide (r.owner ≠ .gap)) } }

/-- A request joins those that wait. -/
def blsbSend (owner : BlsbOwner) (kind cell value : Nat) (s : State) : State :=
  blsbPump { s with blsb := { s.blsb with
    queue := s.blsb.queue ++ [{ owner := owner, seq := s.blsb.nextSeq, kind := kind, cell := cell, value := value }]
    nextSeq := (s.blsb.nextSeq + 1) % 256 } }

/-! ### Answers -/

/-- The effect of a laser status: GLB_BSTS.LASER, and the events of DEGRADED and OFF (R57, R58). The value the
table of R57 does not list reads as UNKNOWN. -/
def laserReport (v : Nat) (s : State) : State :=
  let t := setF glbBsts 4 2 (v % 4) { s with blsb := { s.blsb with laserTick := s.tick } }
  if v % 4 = 1 then raise evGlb 9 t else if v % 4 = 2 then raise evGlb 10 t else t

/-- The lane cell is in the RING phase of a training, with ring steps left (R101). -/
def ringOn (l : Nat) (s : State) : Bool :=
  decide ((tget lane0 s.lanes l).role = .training) && decide ((tget lane0 s.lanes l).ringSteps < 3) &&
    (match (tget port0 s.ports (l / 5)).ln.training with | some t => decide (t.phase = .ring) | none => false)

/-- In RING a heater code in force is followed by a monitor read, and its reading by the next heater code, up to three times; which
code the reading leads to the rules leave open (R101; log 95). -/
def ringFrames (r : BlsbReq) (s : State) : State :=
  if r.owner ≠ .train ∨ !ringOn r.cell s then s
  else if r.kind = kindHeaterSet then blsbSend .train kindMonitorRead r.cell 0 s
  else
    let (n, t) := takeFree s
    blsbSend .train kindHeaterSet r.cell (n % 65536)
      { t with lanes := tmod lane0 t.lanes r.cell (fun x => { x with ringSteps := x.ringSteps + 1 }) }

/-- The effect of the answer to a request: a heater code is in force at the layer, a monitor reading, a laser status. -/
def blsbAnswer (r : BlsbReq) (value : Nat) (s : State) : State :=
  let t := setF glbBsts 6 1 1 { s with blsb := { s.blsb with waiting := s.blsb.waiting.filter (fun q => q.seq != r.seq) } }
  if r.kind = kindHeaterSet then ringFrames r { t with lanes := tmod lane0 t.lanes r.cell (fun x => { x with heater := some r.value }) }
  else if r.kind = kindLaserRead then laserReport value t
  else ringFrames r { t with blsb := { t.blsb with monitor := tset (fun _ => 0) t.blsb.monitor r.cell value } }

/-- The request that a received frame answers: the one with its SEQ whose answer has its KIND. -/
def blsbMatch (f : BitVec 64) (s : State) : Option BlsbReq :=
  s.blsb.waiting.find? (fun r => r.seq == frameF f 32 8 && answerKind r.kind == frameF f 0 4)

/-- BLSB_FRAME_RX (R58): a bad frame is discarded with BLSB_CRC; a good one answers the request with its SEQ. -/
def execBlsbFrameRx (f : BitVec 64) (s : State) : Outcome State Fault Refusal :=
  if !s.bnd.blsbCk then .next s
  else if frameOk f then
    match blsbMatch f s with
    | some r => .next (blsbAnswer r (frameF f 16 16) s)
    | none => .next s
  else .next (raise evGlb 7 s)

/-- BLSB_REQUEST_TIMEOUT (R58): a request unanswered for 8 ticks is reissued with the same SEQ, at most three
times; when the third reissue fails, BLSB_FAIL is raised and BLSB_OK clears. -/
def execBlsbRequestTimeout (seq : BitVec 8) (s : State) : Outcome State Fault Refusal :=
  match s.blsb.waiting.find? (fun r => r.seq == seq.toNat) with
  | none => .next s
  | some r =>
    let gone : State := { s with blsb := { s.blsb with waiting := s.blsb.waiting.filter (fun q => q.seq != r.seq) } }
    if !s.bnd.blsbCk || decide (s.tick < r.sent + 8) then .next s
    else if r.reissues < 3 then
      .next (blsbPump { gone with blsb := { gone.blsb with queue := { r with reissues := r.reissues + 1 } :: gone.blsb.queue } })
    else .next (raise evGlb 8 (setF glbBsts 6 1 0 gone))

/-- LASER_STATUS_READ (R58): the frame is issued for the whole site. -/
def execLaserStatusRead (s : State) : Outcome State Fault Refusal :=
  if s.bnd.blsbCk then .next (blsbSend .site kindLaserRead 0x1FF 0 s) else .next s

/-- LASER_UNKNOWN (R58): no laser status read for 1,600 ticks. -/
def execLaserUnknown (s : State) : Outcome State Fault Refusal :=
  if s.bnd.blsbCk && decide (s.blsb.laserTick + 1600 ≤ s.tick) then .next (setF glbBsts 4 2 3 s) else .next s

end Sys2Proof.Machine
end

