-- ==== Sys2Proof/Machine/Operands.lean ====
section
/-!
DEFINITION. The forms things take on the wire: flits and their headers (R129 to R133), packets and their header
slots (R187 to R192), Hatstand messages (R173, R174), markers (R73), ledgers (R178) and training flits (R103).
-/
namespace Sys2Proof.Machine

/-- Bits `lo + w - 1` down to `lo` of a slot. -/
def sf (x : Slot) (lo w : Nat) : Nat := x.toNat / 2 ^ lo % 2 ^ w

/-- Fields put together: each is its lowest bit, its width and its value. -/
def pack (fs : List (Nat × Nat × Nat)) : Nat := fs.foldl (fun a f => a + f.2.2 % 2 ^ f.2.1 * 2 ^ f.1) 0

/-- A slot from its fields. -/
def slotOf (fs : List (Nat × Nat × Nat)) : Slot := BitVec.ofNat 128 (pack fs)

/-- The bytes of a byte string as numbers, and back. -/
def nats (bs : List Byte) : List Nat := bs.map BitVec.toNat
def bytesOf (ns : List Nat) : List Byte := ns.map (BitVec.ofNat 8)

/-- The sixteen bytes of a slot, byte 0 first (R3). -/
def slotBytes (x : Slot) : List Nat := leBytes 16 x.toNat

/-- A slot from its bytes. -/
def slotFrom (bs : List Nat) : Slot := BitVec.ofNat 128 (leNum (bs.take 16))

/-! ### Flits (R129 to R133) -/

/-- The flit header (R130). -/
structure FlitHdr where
  kind : Nat
  rpl : Bool := false
  sel : Bool := false
  ackv : Bool := false
  nakv : Bool := false
  seq : Nat := 0
  ack : Nat := 0
  cpool : Nat := 0
  cred : Nat := 0
  nslot : Nat := 0
  hslot : Nat := 0
  low : Nat := 0
  deriving DecidableEq, Repr

/-- The header's 64-bit word (R130). -/
def FlitHdr.word (h : FlitHdr) : Nat :=
  pack [(60, 4, h.kind), (59, 1, bit h.rpl), (58, 1, bit h.sel), (57, 1, bit h.ackv), (56, 1, bit h.nakv),
    (40, 16, h.seq), (24, 16, h.ack), (20, 4, h.cpool), (11, 9, h.cred), (7, 4, h.nslot), (3, 4, h.hslot), (0, 3, h.low)]

/-- The header read from its word. -/
def FlitHdr.ofWord (w : Nat) : FlitHdr :=
  let f (lo n : Nat) := w / 2 ^ lo % 2 ^ n
  { kind := f 60 4, rpl := f 59 1 == 1, sel := f 58 1 == 1, ackv := f 57 1 == 1, nakv := f 56 1 == 1, seq := f 40 16
    ack := f 24 16, cpool := f 20 4, cred := f 11 9, nslot := f 7 4, hslot := f 3 4, low := f 0 3 }

/-- A flit before coding: its header and its fifteen payload slots. -/
structure Flit where
  hdr : FlitHdr
  slots : List Slot
  deriving DecidableEq, Repr

/-- The protected bytes 0 to 255: header, payload and CRC-64 (R129, R133). -/
def Flit.protected_ (f : Flit) : List Nat :=
  let body := leBytes 8 f.hdr.word ++ (List.range 15).flatMap (fun i => slotBytes (f.slots.getD i 0))
  body ++ leBytes 8 (crc64 body)

/-- Every second symbol of a list, from the first. -/
def evens : List Nat → List Nat
  | a :: _ :: t => a :: evens t
  | [a] => [a]
  | [] => []

/-- Two lists taken in turn. -/
def interleave : List Nat → List Nat → List Nat
  | a :: s, b :: t => a :: b :: interleave s t
  | s, [] => s
  | [], t => t

/-- The 272 bytes of a flit (R129, R132). -/
def Flit.wire (f : Flit) : List Byte :=
  let p := f.protected_
  bytesOf (p ++ interleave (rsParity (evens p)) (rsParity (evens (p.drop 1))))

/-- What steps 1 and 2 of R134 make of 272 received bytes. -/
inductive FlitRead where
  /-- A codeword is uncorrectable: FEC_UNCORR. -/
  | uncorr
  /-- The CRC does not match: CRC_FAIL. The positions are the bytes FEC corrected. -/
  | crcFail (fixed : List Nat)
  /-- The flit, and the positions of the bytes FEC corrected. -/
  | good (f : Flit) (fixed : List Nat)
  deriving DecidableEq, Repr

/-- FEC decoding and the CRC check (R132 to R134). -/
def readFlit (raw : List Byte) : FlitRead :=
  let b := nats raw
  match rsDecode (evens b), rsDecode (evens (b.drop 1)) with
  | .ok ev fe, .ok od fo =>
    let bytes := interleave ev od
    let fixed := fe.map (fun i => 2 * i) ++ fo.map (fun i => 2 * i + 1)
    if crc64 (bytes.take 248) = leNum ((bytes.drop 248).take 8) then
      .good { hdr := FlitHdr.ofWord (leNum (bytes.take 8))
              slots := (List.range 15).map (fun i => slotFrom (bytes.drop (8 + 16 * i))) } fixed
    else .crcFail fixed
  | _, _ => .uncorr

/-! ### Packets (R187 to R192) -/

/-- Opcodes (R188). -/
def opWrite : Nat := 0x10
def opRead : Nat := 0x20
def opReadData : Nat := 0x21
def opAtomic : Nat := 0x30
def opAtomicResult : Nat := 0x31
def opAtomicRelease : Nat := 0x32
def opReduce : Nat := 0x40
def opCompletion : Nat := 0x50

/-- A packet header slot (R187). -/
structure PktHdr where
  opc : Nat
  len : Nat := 0
  src : Nat := 0
  dst : Nat := 0
  cls : Nat := 0
  retry : Bool := false
  sync : Bool := false
  part : Bool := false
  dup : Bool := false
  mirror : Bool := false
  txid : Nat := 0
  addr : Nat := 0
  deriving DecidableEq, Repr

/-- The header slot of a header (R187). -/
def PktHdr.slot (h : PktHdr) : Slot :=
  slotOf [(0, 8, h.opc), (8, 8, h.len), (16, 18, h.src), (34, 18, h.dst), (52, 3, h.cls), (55, 1, bit h.retry),
    (56, 1, bit h.sync), (57, 1, bit h.part), (58, 1, bit h.dup), (59, 1, bit h.mirror), (60, 20, h.txid), (80, 48, h.addr)]

/-- The header read from its slot (R187). -/
def PktHdr.ofSlot (x : Slot) : PktHdr :=
  { opc := sf x 0 8, len := sf x 8 8, src := sf x 16 18, dst := sf x 34 18, cls := sf x 52 3, retry := sf x 55 1 == 1
    sync := sf x 56 1 == 1, part := sf x 57 1 == 1, dup := sf x 58 1 == 1, mirror := sf x 59 1 == 1
    txid := sf x 60 20, addr := sf x 80 48 }

/-- Response codes (R192). -/
inductive Resp where
  | ok | noWindow | perm | poison | busy | unknownOutcome | unreachable | timeout | malformed
  deriving DecidableEq, Repr

/-- The encoding of a response code. -/
def Resp.code : Resp → Nat
  | .ok => 0 | .noWindow => 1 | .perm => 2 | .poison => 3 | .busy => 4 | .unknownOutcome => 5
  | .unreachable => 6 | .timeout => 7 | .malformed => 8

/-- A response code read from its encoding; the reserved values name none. -/
def Resp.ofCode : Nat → Option Resp
  | 0 => some .ok | 1 => some .noWindow | 2 => some .perm | 3 => some .poison | 4 => some .busy
  | 5 => some .unknownOutcome | 6 => some .unreachable | 7 => some .timeout | 8 => some .malformed | _ => none

/-- RESP and TXID_LAST of a response's ADDR field (R191). -/
def PktHdr.resp (h : PktHdr) : Nat := h.addr / 2 ^ 20 % 16
def PktHdr.txidLast (h : PktHdr) : Nat := h.addr % 2 ^ 20

/-- The ADDR field of a response (R191). -/
def respAddr (last : Nat) (r : Resp) : Nat := last % 2 ^ 20 + r.code * 2 ^ 20

/-- Whether an opcode is a response's. -/
def isRespOp (opc : Nat) : Bool := opc == opReadData || opc == opAtomicResult || opc == opCompletion

/-- Payload slots after the header slot, as the receiver counts them (R188): LEN, with 0 standing for 256 in a
WRITE and in a READ_DATA whose RESP is OK or POISON. -/
def PktHdr.payload (h : PktHdr) : Nat :=
  if h.len = 0 ∧ (h.opc = opWrite ∨ (h.opc = opReadData ∧ (h.resp = 0 ∨ h.resp = 3))) then 256 else h.len

/-- The same once the first payload slot is known: with PART and an extent of 256 granules a LEN of 1 stands for the extent slot and 256
data slots (R188, R189; log 34). -/
def PktHdr.payloadOf (h : PktHdr) (x : Slot) : Nat :=
  if h.opc = opWrite ∧ h.part ∧ h.len = 1 ∧ (h.addr % 16 + x.toNat % 2 ^ 13 + 15) / 16 = 256 then 257 else h.payload

/-! ### Hatstand messages (R173, R174) -/

/-- Kinds of lane-control message (R111). -/
inductive LKind where
  | swapReq | swapAck | calOutReq | calOutAck | calInReq | calInAck | calRefuse
  deriving DecidableEq, Repr

/-- The encoding of LKIND. -/
def LKind.code : LKind → Nat
  | .swapReq => 1 | .swapAck => 2 | .calOutReq => 3 | .calOutAck => 4 | .calInReq => 5 | .calInAck => 6 | .calRefuse => 7

/-- LKIND read from its encoding; reserved values name none. -/
def LKind.ofCode : Nat → Option LKind
  | 1 => some .swapReq | 2 => some .swapAck | 3 => some .calOutReq | 4 => some .calOutAck
  | 5 => some .calInReq | 6 => some .calInAck | 7 => some .calRefuse | _ => none

/-- The fields of a lane-control message (R111). -/
structure LaneMsg where
  kind : LKind
  lane : Nat
  sub : Nat
  abortCal : Bool
  eff : Nat
  deriving DecidableEq, Repr

/-- A lane-control message as a Hatstand slot (R174). -/
def LaneMsg.slot (m : LaneMsg) : Slot :=
  slotOf [(0, 8, 1), (8, 4, m.kind.code), (12, 3, m.lane), (15, 3, m.sub), (18, 1, bit m.abortCal), (32, 16, m.eff)]

/-- A lane-control message read from its slot; none where MTYPE or LKIND makes it not valid (R173, R174). -/
def LaneMsg.ofSlot (x : Slot) : Option LaneMsg :=
  if sf x 0 8 = 1 then
    (LKind.ofCode (sf x 8 4)).map (fun k =>
      { kind := k, lane := sf x 12 3, sub := sf x 15 3, abortCal := sf x 18 1 == 1, eff := sf x 32 16 })
  else none

/-- Whether a message counts as control for the credit of the Hatstand (R177). -/
def isControl (x : Slot) : Bool := decide (sf x 0 8 < 0x40)

/-- Whether a message is a Plovirko fragment. -/
def isFragment (x : Slot) : Bool := sf x 0 8 == 0x40

/-! ### Markers (R73, R94) -/

/-- The calibration pilot pattern as one slot (R94). -/
def pilotSlot : Slot :=
  slotFrom [0x00, 0xFF, 0x00, 0xFF, 0x1B, 0xE4, 0x1B, 0xE4, 0x33, 0xCC, 0x33, 0xCC, 0x0F, 0xF0, 0x0F, 0xF0]

def Marker.slot (m : Marker) : Slot :=
  slotOf [(0, 64, m.ctsTx), (64, 18, m.gmid), (82, 4, m.stratum), (86, 3, m.tq), (89, 1, bit m.tsv), (96, 6, m.calph), (104, 16, m.pwr)]

def Marker.ofSlot (x : Slot) : Marker :=
  { ctsTx := sf x 0 64, gmid := sf x 64 18, stratum := sf x 82 4, tq := sf x 86 3, tsv := sf x 89 1 == 1
    calph := sf x 96 6, pwr := sf x 104 16 }

/-! ### Ledgers (R178) -/

/-- What the fifteen slots of a ledger carry. Counts are by pool 0 to 8. -/
structure Ledger where
  valid : Bool
  cfg : PoolConfig
  rtick : Nat
  epoch : Nat
  digest : Nat
  hfreeCtl : Nat
  hfreePlv : Nat
  counts : List (Nat × Nat × Nat)
  summary : List Slot
  deriving DecidableEq, Repr

def Ledger.slots (l : Ledger) : List Slot :=
  if l.valid then
    [slotOf [(0, 1, 1), (1, 1, bit l.cfg.priv), (16, 16, l.rtick), (32, 32, l.epoch), (64, 64, l.digest)],
     if l.cfg.priv then
       slotOf ((0, 24, l.cfg.vcmap) :: (List.range 8).map (fun v => (24 + 13 * v, 13, l.cfg.limits.getD v 0)))
     else 0,
     slotOf [(0, 16, l.hfreeCtl), (16, 16, l.hfreePlv)]] ++
    (List.range 9).map (fun k =>
      let c := l.counts.getD k (0, 0, 0)
      slotOf [(0, 32, c.1), (32, 32, c.2.1), (64, 32, c.2.2)]) ++
    (List.range 3).map (fun i => l.summary.getD i 0)
  else List.replicate 15 0

def Ledger.ofSlots (ss : List Slot) : Ledger :=
  let g (i : Nat) := ss.getD i 0
  { valid := sf (g 0) 0 1 == 1
    cfg := { priv := sf (g 0) 1 1 == 1, vcmap := sf (g 1) 0 24
             limits := (List.range 8).map (fun v => sf (g 1) (24 + 13 * v) 13) }
    rtick := sf (g 0) 16 16, epoch := sf (g 0) 32 32, digest := sf (g 0) 64 64
    hfreeCtl := sf (g 2) 0 16, hfreePlv := sf (g 2) 16 16
    counts := (List.range 9).map (fun k => (sf (g (3 + k)) 0 32, sf (g (3 + k)) 32 32, sf (g (3 + k)) 64 32))
    summary := [g 12, g 13, g 14] }

/-! ### Training flits (R103) -/

structure TrainMsg where
  phase : Nat
  pass : Nat
  active : Nat
  wmax : Nat
  cold : Bool
  done : Bool
  tref : Nat
  echo : Nat
  turn : Nat
  deriving DecidableEq, Repr

def TrainMsg.slot (m : TrainMsg) : Slot :=
  slotOf [(0, 4, m.phase), (4, 5, m.pass), (9, 5, m.active), (14, 3, m.wmax), (17, 1, bit m.cold), (18, 1, bit m.done),
    (32, 32, m.tref), (64, 32, m.echo), (96, 32, m.turn)]

def TrainMsg.ofSlot (x : Slot) : TrainMsg :=
  { phase := sf x 0 4, pass := sf x 4 5, active := sf x 9 5, wmax := sf x 14 3, cold := sf x 17 1 == 1, done := sf x 18 1 == 1
    tref := sf x 32 32, echo := sf x 64 32, turn := sf x 96 32 }

end Sys2Proof.Machine
end

