-- ==== Sys2Proof/Machine/Lanes.lean ====
section
/-!
DEFINITION. Lane roles, repair requests and lane swaps, gap calibration and deep calibration
(04_lanes.md R100, R108 to R123).
-/
namespace Sys2Proof.Machine
open Host

/-! ### Ports and lanes -/

/-- Port `p`. -/
def State.port (s : State) (p : Nat) : Port := tget port0 s.ports p
/-- Lane cell `l`. -/
def State.lane (s : State) (l : Nat) : Lane := tget lane0 s.lanes l
/-- Replaces port `p`. -/
def updPort (p : Nat) (f : Port → Port) (s : State) : State := { s with ports := tmod port0 s.ports p f }
/-- Replaces lane `l`. -/
def updLane (l : Nat) (f : Lane → Lane) (s : State) : State := { s with lanes := tmod lane0 s.lanes l f }
/-- Replaces the lane side of port `p`. -/
def updLn (p : Nat) (f : PortLane → PortLane) (s : State) : State := updPort p (fun x => { x with ln := f x.ln }) s

/-- The lane cell of wavelength channel `i` of port `p` (R13). -/
def cellOf (p i : Nat) : Nat := 5 * p + i
/-- The port of a lane cell, and its wavelength channel. -/
def portOf (l : Nat) : Nat := l / 5
def chanOf (l : Nat) : Nat := l % 5

/-- The wavelength channels of port `p` in a role, ascending. -/
def inRole (p : Nat) (r : LaneRole) (s : State) : List Nat :=
  (List.range 5).filter (fun i => decide ((s.lane (cellOf p i)).role = r))

/-- A 5-bit mask of wavelength channels. -/
def maskOf (cs : List Nat) : BitVec 5 := cs.foldl (fun m i => m ||| BitVec.ofNat 5 (2 ^ i)) 0
/-- The channels of a mask, ascending. -/
def ofMask (m : BitVec 5) : List Nat := (List.range 5).filter (fun i => m.toNat / 2 ^ i % 2 == 1)

/-- The lowest-numbered active lane's channel. -/
def lowestActive (p : Nat) (s : State) : Option Nat := (inRole p .active s).head?
/-- The port's spare. -/
def spareOf (p : Nat) (s : State) : Option Nat := (inRole p .spare s).head?

/-- A wake from P2 has come to VERIFY, in which training flits are sent and received (R101, R264). -/
def wakeVerify (p : Nat) (s : State) : Bool :=
  let w := (s.port p).pw
  decide (w.state = .p2) && (match w.wake with | some w => decide (w.phase = .verify) | none => false)

/-- The lane takes a role. One that is OFF or FAILED has its driver at level 0 and no lock (R100, R125). -/
def setRole (l : Nat) (r : LaneRole) (s : State) : State :=
  updLane l (fun x => if r = .off ∨ r = .failed then { x with role := r, out := .dark, rlock := false, cdr := false, los := false } else { x with role := r }) s

/-- Queues a lane-control message for the port's Hatstand (R111, R174). -/
def sendCtl (p : Nat) (m : LaneMsg) (s : State) : State :=
  updPort p (fun x => { x with tx := { x.tx with hatCtl := x.tx.hatCtl ++ [m.slot] } }) s

/-! ### Repair (R109 to R115) -/

/-- The effective tick of a request that arises now (R110). -/
def effTick (s : State) : Nat := if s.cyc ≤ 767 then s.tick + 2 else s.tick + 3

/-- The tick nearest to the present whose low 16 bits are `e` (R111). -/
def tickNear (now e : Nat) : Nat :=
  let base := now - 32768
  base + (e + 65536 - base % 65536) % 65536

/-- The fault code of a repair cause (R394). -/
def RepairCause.fault : RepairCause → Nat
  | .los => 0x0101 | .cdr => 0x0102 | .err => 0x0103 | .noconv => 0x0104

/-- The record of a lane that leaves service, made when it does so (R18, R394). -/
def laneRecord (l : Nat) (c : RepairCause) (act : FaultAct) (s : State) : State :=
  let detail := chanOf l + (if c = .err then (s.lane l).lastWindow % 2 ^ 32 * 2 ^ 16 else 0)
  handOver (unitLane l) (unitLane l) .lane c.fault act detail s

/-- A link reset becomes due at the next tick boundary with a cause number; the lowest stands (R106). -/
def resetDue (p cause : Nat) (s : State) : State :=
  updLn p (fun x => { x with
    resetDue := some (match x.resetDue with | some c => min c cause | none => cause), dueTick := s.tick + 1 }) s

/-- The lane becomes FAILED at the next tick boundary. -/
def failNext (l : Nat) (c : RepairCause) (s : State) : State :=
  updLn (portOf l) (fun x => { x with failing := x.failing ++ [(chanOf l, c)] }) s

/-- A lane in CAL that is to return by a swap takes its saved heater code again (R122). -/
def recallHeater (p sub : Nat) (abort : Bool) (s : State) : State :=
  match (s.lane (cellOf p sub)).saved with
  | some (some h, _) => if abort then blsbSend .train kindHeaterSet (cellOf p sub) h s else s
  | _ => s

/-- A swap of channel `lane` for channel `sub` is agreed from this side: SWAP_REQ goes out (R110, R111). -/
def planSwap (p lane sub : Nat) (abort : Bool) (c : RepairCause) (s : State) : State :=
  let eff := effTick s
  sendCtl p { kind := .swapReq, lane := lane, sub := sub, abortCal := abort, eff := eff % 65536 }
    (recallHeater p sub abort
      (updLn p (fun x => { x with swap := some { lane := lane, sub := sub, abortCal := abort, eff := eff, mine := true, cause := c } }) s))

/-- A deep calibration of the port with a lane in CAL. -/
def calLane (d : Option Dcal) : Option Nat :=
  match d with
  | some ⟨a, _, .inCal _, _, _, _⟩ => some a
  | some ⟨a, _, .back _ _, _, _, _⟩ => some a
  | _ => none

/-- A second failure, or a failure with no spare: the lane fails and a link reset begins, both at the next tick
boundary (R113, R114). -/
def failAndReset (l : Nat) (c : RepairCause) (s : State) : State := resetDue (portOf l) 1 (failNext l c s)

/-- A repair request of an ACTIVE or SPARE lane, carried out (R110, R113, R114, R122). -/
def repair (l : Nat) (c : RepairCause) (s : State) : State :=
  let p := portOf l
  let ch := chanOf l
  let ln := (s.port p).ln
  match ln.swap with
  | some w =>
    if w.lane = ch then s
    else if w.sub = ch then failAndReset (cellOf p w.lane) w.cause (failNext l c (updLn p (fun x => { x with swap := none, wakeSwap := false }) s))
    else failAndReset l c s
  | none =>
    if (s.lane l).role = .spare then
      failNext l c (match ln.dcal with | some d => (match d.stage with | .out _ => updLn p (fun x => { x with dcal := none }) s | _ => s) | none => s)
    else match calLane ln.dcal with
      | some a => planSwap p ch a true c s
      | none =>
        match spareOf p s with
        | some sub =>
          let t := if ln.dcal.isSome then raise evCal 1 (updLn p (fun x => { x with dcal := none }) s) else s
          planSwap p ch sub false c t
        | none => failAndReset l c s

/-- A lane's health condition becomes a repair request: at once in P0, kept for wake from P1, and none in P2, P3
or in training (R100, R109, R115). -/
def requestRepair (l : Nat) (c : RepairCause) (s : State) : State :=
  let p := portOf l
  let role := (s.lane l).role
  if role ≠ .active ∧ role ≠ .spare then s
  else match (s.port p).pw.state with
    | .p0 => repair l c s
    | .p1 => updLn p (fun x => { x with standing := x.standing ++ [(chanOf l, c)] }) s
    | _ => s

/-- A lane reports its condition: in training it counts against the lane there (R104), else while it is ACTIVE or
SPARE in P0 or P1 (R100, R109). -/
def reports (l : Nat) (s : State) : Bool :=
  s.acts && !s.bnd.cellsDark &&
    (match (s.lane l).role with
     | .active => decide ((s.port (portOf l)).pw.state = .p0 ∨ (s.port (portOf l)).pw.state = .p1)
     | .spare => decide ((s.port (portOf l)).pw.state = .p0 ∨ (s.port (portOf l)).pw.state = .p1)
     | _ => false)

/-- The lane takes part in a training. -/
def inTraining (l : Nat) (s : State) : Bool := s.acts && decide ((s.lane l).role = .training)

/-- The symbol times of the peer's marker and ledger, in which alone a spare's bursts come, as they arrive: from the flight time after
slots 0 and 128 on, and the cycle after the flit, which may arrive within a cycle (R74, R95). -/
def inBurst (p : Nat) (s : State) : Bool :=
  let c := (s.cyc + 1024 - getF s (tbLinkdly p) 0 16 / 16 % 1024) % 512
  decide (c ≤ 5)

/-- LOSS_OF_LIGHT (R108, R109): on a SPARE it is measured within its bursts only (R95). -/
def execLossOfLight (l : LaneId) (s : State) : Outcome State Fault Refusal :=
  if reports l s && (decide ((s.lane l).role ≠ .spare) || inBurst (portOf l) s) then
    .next (requestRepair l .los (raise (evLn l) 0 (bump (lnPiloterr l) 24 8 (updLane l (fun x => { x with los := true }) s))))
  else if inTraining l s then .next (bump (lnPiloterr l) 24 8 (updLane l (fun x => { x with los := true }) s))
  else .next s

/-- CDR_UNLOCK (R109). `pattern` says that every active lane of the port sees the CDR pattern or unmodulated light: the peer trains,
and R379 handles it without a repair request. -/
def execCdrUnlock (l : CdrLoss) (s : State) : Outcome State Fault Refusal :=
  let t := updLane l.lane (fun x => { x with cdr := false }) s
  if reports l.lane s then
    .next (if l.pattern && decide ((s.lane l.lane).role = .active) then t else requestRepair l.lane .cdr (raise (evLn l.lane) 1 t))
  else if inTraining l.lane s then .next t
  else .next s

/-- LANE_ERR_WINDOW (R109): the window that ended held more than ERR_THR corrected bytes on the lane. -/
def execLaneErrWindow (l : LaneId) (s : State) : Outcome State Fault Refusal :=
  if reports l s && decide (getF s calThr 0 16 < (s.lane l).lastWindow) then
    .next (requestRepair l .err (raise (evLn l) 2 s))
  else .next s

/-- A swap that ends a deep calibration: `sub` returns with its saved settings. A link reset follows where it stands in for its own
stand-in and its heater code has not come into force again by then (R122). -/
def endCal (p : Nat) (w : SwapPlan) (s : State) : State :=
  let into := cellOf p w.sub
  let late := match (s.lane into).saved, (s.port p).ln.dcal with
    | some (some h, _), some d => decide (d.sub = w.lane) && decide ((s.lane into).heater ≠ some h)
    | _, _ => false
  let t := raise evCal 1 (updLane into (fun x =>
    match x.saved with
    | some (_, b) => { x with rbias := b, saved := none }
    | none => x) (updLn p (fun x => { x with dcal := none }) s))
  if late then resetDue p 1 t else t

/-- A swap takes effect: `lane` becomes FAILED and `sub` ACTIVE (R110, R112, R122). -/
def swapNow (p : Nat) (w : SwapPlan) (s : State) : State :=
  let out := cellOf p w.lane
  let into := cellOf p w.sub
  let s1 := if w.abortCal then endCal p w s else s
  let s2 := setRole into .active (setRole out .failed s1)
  let s3 := raise (evLn into) 5 (raise (evLn out) 4 (bump (prtLswap p) 0 16 s2))
  laneRecord out w.cause .laneSwap (updLn p (fun x => { x with swap := none, wakeSwap := false }) s3)

/-- LANE_SWAP_EFFECTIVE (R112): at cycle 0 of the effective tick, or of the first tick after a late request. -/
def execLaneSwapEffective (p : PortId) (s : State) : Outcome State Fault Refusal :=
  match (s.port p).ln.swap with
  | some w => if s.acts && decide (s.cyc = 0) && decide (w.eff ≤ s.tick) then .next (swapNow p w s) else .next s
  | none => .next s

/-- Takes the front control message of the port's Hatstand buffer, freeing its entry (R177): the message, if it is a
lane-control message of that kind, and the state without it. -/
def takeCtl (p : Nat) (k : LKind) (s : State) : Option (LaneMsg × State) :=
  match (s.port p).rx.hat.find? isControl with
  | some x =>
    match LaneMsg.ofSlot x with
    | some m =>
      if m.kind = k ∧ s.acts then
        some (m, updPort p (fun q => { q with
          rx := { q.rx with hat := q.rx.hat.erase x }
          cr := { q.cr with hfreeCtl := (q.cr.hfreeCtl + 1) % 65536 } }) s)
      else none
    | none => none
  | none => none

/-- A word of the Hatstand buffer is uncorrectable: the first control message, or fragment, is discarded as a bad one (R177,
R388). -/
def hatUncorr (p : Nat) (ctl : Bool) (s : State) : State :=
  match (s.port p).rx.hat.find? (fun x => isControl x == ctl) with
  | some x =>
    raise (evPrt p) 15 (sramUncorr (unitPort p) (unitPort p) .port 2 .poisoned (updPort p (fun q => { q with
      rx := { q.rx with hat := q.rx.hat.erase x }
      cr := if ctl then { q.cr with hfreeCtl := (q.cr.hfreeCtl + 1) % 65536 } else { q.cr with hfreePlv := (q.cr.hfreePlv + 1) % 65536 } }) s))
  | none => s

/-- A control message is consumed; `bad` says that its word is uncorrectable. -/
def onCtl (p : Nat) (k : LKind) (bad : Bool) (f : LaneMsg → State → State) (s : State) : State :=
  match takeCtl p k s with
  | some (m, t) => if bad then hatUncorr p true s else f m t
  | none => s

/-- The effective tick of a peer's message in this adapter's numbering; a tick already reached becomes the next one
(R111, R112). -/
def effHere (p : Nat) (m : LaneMsg) (s : State) : Nat :=
  let mine := tickNear s.tick ((ofInt 16 ((m.eff : Int) + (s.port p).ln.tickDiff)))
  max mine (s.tick + 1)

/-- The peer's die at port `p`: the die of this layer at site `p` (R13). -/
def peerDie (p : Nat) (s : State) : Nat := layerOf s.die * 64 + p

/-- Which of two requests that cross stands where they name different lanes: the one from the die with the lower die ID (R113). The
gateway port has no die ID; on the spur the model lets the own request stand (log 96). -/
def peerWins (p : Nat) (s : State) : Bool := decide (p ≠ s.site) && decide (peerDie p s < s.die)

/-- A received SWAP_REQ: recorded for its effective tick and answered; against a request of the own side, the later
tick for the same lane, and the lower die ID for different lanes (R112, R113). LANE and SUB values of 5 to 7, of which the rules say
nothing, are taken modulo 5 (log 97). The cause the peer had is not told: a free value stands in the record. -/
def acceptSwap (p : Nat) (m : LaneMsg) (s : State) : State :=
  let (c, s0) := takeFree s
  let cause := match c % 4 with | 0 => RepairCause.los | 1 => .cdr | 2 => .err | _ => .noconv
  let plan : SwapPlan := { lane := m.lane % 5, sub := m.sub % 5, abortCal := m.abortCal, eff := effHere p m s, mine := false, cause := cause }
  let ack (t : State) := sendCtl p { m with kind := .swapAck } t
  let s1 := recallHeater p plan.sub plan.abortCal s0
  match (s.port p).ln.swap with
  | some w =>
    if !w.mine then ack s
    else if w.lane = plan.lane then ack (updLn p (fun x => { x with swap := some { w with eff := max w.eff plan.eff } }) s)
    else if peerWins p s then
      failAndReset (cellOf p w.lane) w.cause (ack (updLn p (fun x => { x with swap := some plan }) s1))
    else failAndReset (cellOf p plan.lane) cause (ack s1)
  | none => ack (updLn p (fun x => { x with swap := some plan }) s1)

/-- SWAP_REQ (R112). -/
def execSwapReq (p : PortId) (bad : Bool) (s : State) : Outcome State Fault Refusal :=
  .next (onCtl p .swapReq bad (acceptSwap p) s)

/-- SWAP_ACK (R111): the message is consumed; the switch does not wait for it (R112). -/
def execSwapAck (p : PortId) (bad : Bool) (s : State) : Outcome State Fault Refusal :=
  .next (onCtl p .swapAck bad (fun _ t => t) s)

/-! ### Gap calibration (R116 to R118) -/

/-- A code moved toward `x` by at most `d`. -/
def moveBy (d cur x : Nat) : Nat := if cur < x then min x (cur + d) else max x (cur - d)

/-- The lane's heater code: the layer's default until one is set (R50). -/
def heaterOf (l : Nat) (s : State) : Nat := (s.lane l).heater.getD (Config.heaterDefault l)

/-- The heater turns rotate over the ACTIVE and SPARE lanes of the adapter in ascending lane order, one turn a lane in 256 ticks
(R116): whether lane `l` has the next one. -/
def heaterTurn (l : Nat) (s : State) : Bool :=
  let ls := (s.lanes.filter (fun e => decide (e.2.role = .active ∨ e.2.role = .spare))).map (·.1)
  let next := match s.blsb.turn with
    | none => ls.head?
    | some a => match ls.find? (fun k => decide (a < k)) with | some k => some k | none => ls.head?
  next == some l && (match (s.lane l).turnAt with | some t => decide (t + 256 ≤ s.tick) | none => true)

/-- One step of a lane: the equaliser adapts, which leaves an eye height that the rules do not fix, and the bias moves by at most one
code; the lane's turn takes a monitor read and a heater update of at most 8 codes, which completes the pass after 64 or more steps
(R116, R118; log 95). -/
def gapStep (l : Nat) (bias : Nat) (heater : Option Nat) (s : State) : State :=
  let (n, s0) := takeFree s
  let s1 := setF (lnEye l) 0 8 (n % 256) (updLane l (fun x => { x with steps := x.steps + 1, rbias := moveBy 1 x.rbias bias, stepAt := some s.tick }) s0)
  match heater with
  | none => s1
  | some h =>
    if !heaterTurn l s then s1
    else
      let s2 := blsbSend .gap kindHeaterSet l (moveBy 8 (heaterOf l s) h) (blsbSend .gap kindMonitorRead l 0
        (updLane l (fun x => { x with turnAt := some s.tick }) { s1 with blsb := { s1.blsb with turn := some l } }))
      if 64 ≤ (s1.lane l).steps then
        bumpWrap (lnGcalCnt l) 1 (updLane l (fun x => { x with steps := 0, gcts := s.cts }) s2)
      else s2

/-- GAP_CAL_STEP (R116): the settings the step found, and whether the bias or the heater is at the end of its range. A lane takes one
step a tick. -/
def execGapCalStep (l : LaneId) (bias : BitVec 12) (heater : Option (BitVec 16)) (atEnd : Bool) (s : State) :
    Outcome State Fault Refusal :=
  if reports l s && decide ((s.lane l).stepAt ≠ some s.tick) then
    let t := gapStep l bias.toNat (heater.map BitVec.toNat) s
    if atEnd then .next (requestRepair l .noconv (raise (evLn l) 3 t)) else .next t
  else .next s

/-! ### Deep calibration (R119 to R123) -/

/-- The port's temperature as last sensed, 1/16 °C. -/
def tempOf (p : Nat) (s : State) : Int := toInt 16 (getF s (prtLtemp p) 0 16)

/-- Ports with a deep calibration under way. -/
def dcalPorts (s : State) : Nat := (s.ports.filter (fun e => e.2.ln.dcal.isSome)).length

/-- A lane becomes due, or falls back to gap calibration where its port has no spare (R119, R121). -/
def becomeDue (l : Nat) (r : DueReason) (s : State) : State :=
  if (spareOf (portOf l) s).isSome then
    updLane l (fun x => { x with due := some (r, s.tick, false), fallback := false }) s
  else
    raise (evLn l) 8 (updLane l (fun x => { x with fallback := true, dueBase := s.tick }) s)

/-- A lane that is due stays in service on gap calibration alone once its port has no spare (R121). -/
def dueFallback (p : Nat) (s : State) : State :=
  if (s.port p).ln.lstate = .up ∧ (s.port p).ln.dcal.isNone ∧ (spareOf p s).isNone then
    (List.range 5).foldl (fun t i =>
      let l := cellOf p i
      if (t.lane l).due.isSome then
        raise (evLn l) 8 (updLane l (fun x => { x with due := none, fallback := true, dueBase := s.tick }) t)
      else t) s
  else s

/-- DCAL_DUE (R119): the port's temperature is sensed; the lane is due by drift or by period. -/
def execDcalDue (l : LaneId) (temp : BitVec 16) (s : State) : Outcome State Fault Refusal :=
  if !s.acts then .next s else
  let s1 := setF (prtLtemp (portOf l)) 0 16 temp.toNat s
  let x := s1.lane l
  if x.due.isSome then .next s1
  else if getF s calCfg 12 8 < (toInt 16 temp.toNat - x.tempDcal).natAbs then .next (becomeDue l .drift s1)
  else if max (x.dcts / 1024) x.dueBase + getF s calCfg 0 12 * 1600 ≤ s.tick then .next (becomeDue l .period s1)
  else .next s1

/-- A lane is asked for: due at once if it is not due already (R119). -/
def requestDcal (l : Nat) (s : State) : State := if (s.lane l).due = none then becomeDue l .requested s else s

/-- Whether the due lane `a` is taken before the due lane `b` (R119). -/
def dueBefore (s : State) (a b : Nat) : Bool :=
  let rank (l : Nat) := match (s.lane l).due with | some (.drift, _, _) => 0 | _ => 1
  decide (rank a < rank b) || (rank a == rank b &&
    (decide ((s.lane a).dcts < (s.lane b).dcts) || ((s.lane a).dcts == (s.lane b).dcts && decide (a < b))))

/-- A port that could take up a deep calibration. -/
def canDcal (p : Nat) (s : State) : Bool :=
  let x := s.port p
  decide (x.ln.lstate = .up) && decide (x.pw.state = .p0 ∨ x.pw.state = .p1) && x.ln.dcal.isNone && x.ln.swap.isNone &&
    (spareOf p s).isSome

/-- The due lane that is taken next (R119). -/
def chooseDue (s : State) : Option Nat :=
  let due := (s.lanes.map (·.1)).filter (fun l =>
    (s.lane l).due.isSome && decide ((s.lane l).role = .active) && canDcal (portOf l) s)
  match due with
  | [] => none
  | a :: t => some (t.foldl (fun best l => if dueBefore s l best then l else best) a)

/-- CAL_OUT_REQ goes out for lane `l` (R120). -/
def startDcal (l sub : Nat) (s : State) : State :=
  let eff := effTick s
  let p := portOf l
  sendCtl p { kind := .calOutReq, lane := chanOf l, sub := sub, abortCal := false, eff := eff % 65536 }
    (updLn p (fun x => { x with dcal := some { lane := chanOf l, sub := sub, stage := .out eff, mine := true } }) s)

/-- DCAL_START (R119, R120): within DCAL_MAX ports, the next due lane is chosen. -/
def execDcalStart (s : State) : Outcome State Fault Refusal :=
  if !s.acts || decide (min (getF s calCfg 20 4) 8 ≤ dcalPorts s) then .next s
  else match chooseDue s with
    | some l =>
      match spareOf (portOf l) s with
      | some sub => .next (startDcal l sub s)
      | none => .next s
    | none => .next s

/-- A received CAL_OUT_REQ: this side takes part, or answers CAL_REFUSE with DCAL_MAX ports already in deep calibration. Where both
ends ask before either has heard the other, the disagreement rule applies: for one lane the later tick, for different lanes the
request of the lower die ID; the other lane stays due (R113, R120; log 98). -/
def acceptCalOut (p : Nat) (m : LaneMsg) (s : State) : State :=
  let eff := effHere p m s
  let join (t : State) := sendCtl p { m with kind := .calOutAck }
    (updLn p (fun x => { x with dcal := some { lane := m.lane % 5, sub := m.sub % 5, stage := .out eff, mine := false } }) t)
  match (s.port p).ln.dcal with
  | some d =>
    match d.stage with
    | .out mineEff =>
      if d.lane = m.lane % 5 then
        sendCtl p { m with kind := .calOutAck } (updLn p (fun x => { x with dcal := some { d with stage := .out (max mineEff eff) } }) s)
      else if !d.mine || peerWins p s then join s
      else s
    | .retry _ => if min (getF s calCfg 20 4) 8 < dcalPorts s then sendCtl p { m with kind := .calRefuse } s else join s
    | _ => sendCtl p { m with kind := .calRefuse } s
  | none =>
    if min (getF s calCfg 20 4) 8 ≤ dcalPorts s then sendCtl p { m with kind := .calRefuse } s else join s

/-- CAL_OUT_REQ (R120). -/
def execCalOutReq (p : PortId) (bad : Bool) (s : State) : Outcome State Fault Refusal :=
  .next (onCtl p .calOutReq bad (acceptCalOut p) s)

/-- Notes that the peer acknowledged the hand-over under way. -/
def ackDcal (p : Nat) (s : State) : State :=
  updLn p (fun x => { x with dcal := x.dcal.map (fun d => { d with acked := true }) }) s

/-- CAL_OUT_ACK (R120). -/
def execCalOutAck (p : PortId) (bad : Bool) (s : State) : Outcome State Fault Refusal :=
  .next (onCtl p .calOutAck bad (fun _ t => ackDcal p t) s)

/-- CAL_IN_ACK (R120). -/
def execCalInAck (p : PortId) (bad : Bool) (s : State) : Outcome State Fault Refusal :=
  .next (onCtl p .calInAck bad (fun _ t => ackDcal p t) s)

/-- CAL_REFUSE (R120): DCAL_REFUSED; the port asks again after 64 ticks. -/
def execCalRefuse (p : PortId) (bad : Bool) (s : State) : Outcome State Fault Refusal :=
  .next (onCtl p .calRefuse bad (fun _ t =>
    raise evCal 0 (updLn p (fun x => { x with dcal := x.dcal.map (fun d =>
      match d.stage with
      | .out _ => { d with stage := .retry (t.tick + 64) }
      | _ => d) }) t)) s)

/-- DCAL_RETRY (R120). -/
def execDcalRetry (p : PortId) (s : State) : Outcome State Fault Refusal :=
  match (s.port p).ln.dcal with
  | some ⟨a, sub, .retry t, _, _, _⟩ =>
    if s.acts && decide (t ≤ s.tick) then .next (startDcal (cellOf p a) sub s) else .next s
  | _ => .next s

/-- The CAL_OUT hand-over: the stand-in becomes ACTIVE, the lane CAL, its settings saved; the sweep begins (R120). Where the stand-in
is no longer SPARE the calibration does not begin. -/
def calOutNow (p : Nat) (d : Dcal) (s : State) : State :=
  let a := cellOf p d.lane
  let b := cellOf p d.sub
  if (s.lane b).role ≠ .spare ∨ (s.lane a).role ≠ .active then updLn p (fun x => { x with dcal := none }) s
  else
    let s1 := updLane a (fun x => { x with role := .cal, saved := some (x.heater, x.rbias), due := none }) (setRole b .active s)
    raise (evLn a) 4 (updLn p (fun x => { x with dcal := some { d with stage := .inCal s.tick, acked := false, phase := .ring } }) s1)

/-- The CAL_IN hand-over: the lane is ACTIVE again and the stand-in SPARE; the deep calibration is recorded (R120). -/
def calInNow (p : Nat) (d : Dcal) (s : State) : State :=
  let a := cellOf p d.lane
  let b := cellOf p d.sub
  let s1 := updLane a (fun x => { x with
    role := .active, saved := none, dcts := s.cts, tempDcal := tempOf p s, fallback := false, dueBase := s.tick }) (setRole b .spare s)
  let s2 := bump (prtLswap p) 16 16 (bumpWrap (lnDcalCnt a) 1 s1)
  raise (evLn a) 6 (raise (evLn a) 5 (updLn p (fun x => { x with dcal := none }) s2))

/-- CAL_HANDOVER_EFFECTIVE (R120): at cycle 0 of the effective tick. A CAL_IN gives way to a swap that ends the deep calibration
(R122). -/
def execCalHandoverEffective (p : PortId) (s : State) : Outcome State Fault Refusal :=
  if !s.acts || decide (s.cyc ≠ 0) then .next s else
  match (s.port p).ln.dcal with
  | some d =>
    match d.stage with
    | .out eff => if eff ≤ s.tick then .next (calOutNow p d s) else .next s
    | .back eff _ => if eff ≤ s.tick ∧ (s.port p).ln.swap.isNone then .next (calInNow p d s) else .next s
    | _ => .next s
  | none => .next s

/-- The lane in CAL has completed a step of its calibration, the sweep, CDR or LEVEL, on both sides: the next follows (R120). -/
def calPhaseEnd (p : Nat) (done : BitVec 5) (s : State) : State :=
  updLn p (fun x => { x with dcal := x.dcal.map (fun d =>
    match d.stage with
    | .inCal _ =>
      if done.toNat / 2 ^ d.lane % 2 = 0 then d
      else { d with phase := match d.phase with | .ring => .cdr | .cdr => .level | .level => .deskew | q => q }
    | _ => d) }) s

/-- DCAL_CONVERGED (R120): the lane's new settings are in force and CAL_IN_REQ goes out. -/
def execDcalConverged (p : PortId) (heater : BitVec 16) (rbias : BitVec 12) (s : State) : Outcome State Fault Refusal :=
  match (s.port p).ln.dcal with
  | some ⟨a, sub, .inCal since, mine, _, ph⟩ =>
    if !s.acts then .next s else
    let s1 := updLane (cellOf p a) (fun x => { x with heater := some heater.toNat, rbias := rbias.toNat }) s
    if mine then
      let eff := effTick s
      .next (sendCtl p { kind := .calInReq, lane := a, sub := sub, abortCal := false, eff := eff % 65536 }
        (updLn p (fun x => { x with dcal := some ⟨a, sub, .back eff since, true, false, ph⟩ }) s1))
    else .next s1
  | _ => .next s

/-- CAL_IN_REQ (R120). -/
def execCalInReq (p : PortId) (bad : Bool) (s : State) : Outcome State Fault Refusal :=
  .next (onCtl p .calInReq bad (fun m t =>
    sendCtl p { m with kind := .calInAck } (updLn p (fun x => { x with dcal := x.dcal.map (fun d =>
      match d.stage with
      | .inCal since => { d with stage := .back (effHere p m t) since }
      | _ => d) }) t)) s)

/-- DCAL_TIMEOUT (R122): not converged 12,800 ticks after EFF; the lane becomes FAILED and its stand-in stays. -/
def execDcalTimeout (p : PortId) (s : State) : Outcome State Fault Refusal :=
  match (s.port p).ln.dcal with
  | some ⟨a, _, .inCal since, _, _, _⟩ =>
    if s.acts && decide (since + 12800 ≤ s.tick) then
      let l := cellOf p a
      .next (handOver (unitLane l) (unitLane l) .lane 0x0105 .laneFailed a
        (raise (evLn l) 7 (setRole l .failed (updLn p (fun x => { x with dcal := none }) s))))
    else .next s
  | _ => .next s

/-- CAL_OVERDUE (R121): due for 1,600,000 ticks without starting; raised once for the occasion. -/
def execCalOverdue (l : LaneId) (s : State) : Outcome State Fault Refusal :=
  match (s.lane l).due with
  | some (r, since, false) =>
    if s.acts && decide (since + 1600000 ≤ s.tick) then
      .next (raise (evLn l) 9 (updLane l (fun x => { x with due := some (r, since, true) }) s))
    else .next s
  | _ => .next s

/-- A deep calibration under way is aborted by a link reset: a lane in CAL is due again at once on the side that
chose it, with DCAL_ABORTED (R122); one only agreed is dropped. -/
def abortDcal (p : Nat) (s : State) : State :=
  match (s.port p).ln.dcal with
  | some d =>
    let t := updLn p (fun x => { x with dcal := none }) s
    if (calLane (some d)).isSome then
      raise evCal 1 (updLane (cellOf p d.lane) (fun x => { x with
        due := if d.mine then some (.requested, s.tick, false) else x.due, saved := none }) t)
    else t
  | none => s

end Sys2Proof.Machine
end

