-- ==== Sys2Proof/Machine/Time.lean ====
section
/-!
DEFINITION. The time base: states, acquisition and servo (03_time_and_tick.md R66 to R83).
-/
namespace Sys2Proof.Machine
open Host

/-- ROLE, UPPORT and GMID of the configuration in force (R90). -/
def State.role (s : State) : Nat := getF s tbCfg 0 2
def State.gmid (s : State) : Nat := getF s tbCfg 14 18

/-- The upstream port of the role in force (R69). -/
def State.upstream (s : State) : Option Nat :=
  if s.role = 0 then some (getF s tbCfg 8 6) else if s.role = 1 then some s.site else none

/-- The stratum of the adapter's own markers: 0 as system time master, 15 while FREE or ACQUIRING, else the
upstream's plus one (R69, R73). -/
def State.stratum (s : State) : Nat :=
  if s.role = 2 then 0
  else if s.tb.state = .free ∨ s.tb.state = .acquiring then 15
  else min (s.tb.upStratum + 1) 15

/-- UNLOCK_THR (R90). -/
def State.unlockThr (s : State) : Nat := getF s tbLimits 0 8

/-- What a marker says of time: its fields of R73 and its receive reference in 1/16 cc (R74). -/
structure MarkerTime where
  ctsTx : Nat
  gmid : Nat
  stratum : Nat
  tq : Nat
  tsv : Bool
  ref : Nat
  deriving DecidableEq, Repr

/-- The conditions of R78 but for GMID. FEC and CRC have passed. -/
def MarkerTime.sound (m : MarkerTime) : Bool :=
  m.tsv && (m.tq == 2 || m.tq == 3 || m.tq == 4 || m.tq == 5)

/-- The mean of a list of whole numbers, rounded toward zero; 0 of the empty list. -/
def meanInt (l : List Int) : Int := if l.isEmpty then 0 else (l.foldl (· + ·) 0).tdiv l.length

/-- The offset e of a marker on port `p`: receive reference less CTS_TX and link delay, in 1/16 cc. -/
def markerOffset (p : Nat) (m : MarkerTime) (s : State) : Int :=
  (m.ref : Int) - ((m.ctsTx : Int) * 16 + (getF s (tbLinkdly p) 0 16 : Int))

/-- Enters a time state, with the counts of consecutive markers at zero. -/
def toTime (st : TimeState) (s : State) : State :=
  { s with tb := { s.tb with state := st, good := 0, bad := 0, hold := 0, expired := false } }

/-- −(kp·e + ki·acc) in 1/100 ppm, rounded toward zero (R82; log 21). -/
def servoTarget (e acc : Int) : Int := -((Config.servoKp * e + Config.servoKi * acc).tdiv (2 ^ Config.servoFraction))

/-- One update of the servo (R82): the trim moves toward the target, from where it stood at cycle 0 of the tick by at most
0.5 ppm, within ±150 ppm. -/
def servo (e : Int) (s : State) : State :=
  let acc := s.tb.acc + e
  let trim := clampInt (clampInt (servoTarget e acc) (s.tb.before - 50) (s.tb.before + 50)) (-15000) 15000
  { s with tb := { s.tb with acc := acc, trim := trim, moved := some (e, s.tb.trim, s.tb.acc) } }

/-- The servo update of this tick overran: the trim is held, and the measurement waits for the next tick (R85, item 4). -/
def servoLate (s : State) : State :=
  match s.tb.moved with
  | some (e, trim, acc) => { s with tb := { s.tb with trim := trim, acc := acc, moved := none, late := some e } }
  | none => s

/-- Cycle 0 of a tick: a measurement whose update overran is applied, the servo still running (R82, R85, item 4). -/
def servoTick (s : State) : State :=
  let t := { s with tb := { s.tb with before := s.tb.trim, moved := none, late := none } }
  match s.tb.late with
  | some e => if s.tb.state = .locked ∨ s.tb.state = .unlocked then { (servo e t) with tb := { (servo e t).tb with moved := none } } else t
  | none => t

/-- Notes a valid upstream marker: its offset for TB_OFFSET, the trim for the holdover mean, the stratum. The mean of R79 is taken over
the trims in force as the markers arrived, each before its own update (log 100). -/
def noteMarker (m : MarkerTime) (e : Int) (s : State) : State :=
  let t := { s with tb := { s.tb with
    offsets := (e :: s.tb.offsets).take 64, trims := (s.tb.trim :: s.tb.trims).take 64
    miss := 0, upStratum := m.stratum, upTick := some s.tick } }
  setF tbOffset 16 16 (ofInt 16 (meanInt t.tb.offsets)) (setF tbOffset 0 16 (ofInt 16 e) t)

/-- The one step of CTS, in ACQUIRING: to CTS_TX plus L plus the time since the receive reference, rounded to
the nearest cycle (R81). The ticks of the last markers are renumbered with it; what else counts from a cycle of the old numbering is
not corrected (log 101). -/
def acquireStep (p : Nat) (m : MarkerTime) (s : State) : State :=
  let sixteenth := m.ctsTx * 16 + getF s (tbLinkdly p) 0 16 + (s.cts * 16 - m.ref)
  let now := (sixteenth + 8) / 16
  let shift : Int := ((now / 1024 : Nat) : Int) - (s.tick : Int)
  { s with
      cts := now
      ports := tmod port0 s.ports p (fun x => { x with pw := { x.pw with peerTick := if x.pw.peerTick = some s.tick then some (now / 1024) else none } })
      tb := { s.tb with
        stepped := true, good := 0, bad := 0, upTick := some (now / 1024), lostTick := none
        peerTick := s.tb.peerTick.map (fun e => (e.1, e.2.map (· + shift))) } }

/-- A valid upstream marker in each time state (R79, R81, R82). The marker that leaves FREE is the first of the 16 over which the
frequency is estimated (log 100). -/
def upstreamMarker (p : Nat) (m : MarkerTime) (s0 : State) : State :=
  let e := markerOffset p m s0
  let s := noteMarker m e s0
  let within : Bool := decide (e.natAbs ≤ s0.unlockThr)
  match s0.tb.state with
  | .master => s
  | .free => { (toTime .acquiring s) with tb := { (toTime .acquiring s).tb with estimate := [e], stepped := false } }
  | .acquiring =>
    if s0.tb.estimate.length < 16 then
      let es := e :: s0.tb.estimate
      let trim := if es.length = 16 then clampInt (Config.acquireTrim es) (-15000) 15000 else s.tb.trim
      { s with tb := { s.tb with estimate := es, trim := trim } }
    else if !s0.tb.stepped then acquireStep p m s
    else if within then
      if s0.tb.good + 1 = 16 then raise evTb 6 (toTime .locked s)
      else { s with tb := { s.tb with good := s0.tb.good + 1 } }
    else { s with tb := { s.tb with good := 0 } }
  | .locked =>
    let t := servo e s
    if within then { t with tb := { t.tb with bad := 0 } }
    else if s0.tb.bad + 1 = 16 then raise evTb 5 (toTime .unlocked t)
    else { t with tb := { t.tb with bad := s0.tb.bad + 1 } }
  | .holdover =>
    if within then raise evTb 6 (toTime .locked (servo e s))
    else raise evTb 5 (toTime .unlocked (servo e s))
  | .unlocked =>
    let t := servo e s
    if decide (e.natAbs ≤ s0.unlockThr / 2) then
      if s0.tb.good + 1 = 64 then raise evTb 6 (toTime .locked t)
      else { t with tb := { t.tb with good := s0.tb.good + 1 } }
    else { t with tb := { t.tb with good := 0 } }

/-- A marker whose time is valid is published for its port (R83). An offset that does not fit 16 signed bits is shown modulo 2^16, in
E_LAST and E_AVG too (log 100). -/
def notePeer (p : Nat) (m : MarkerTime) (s : State) : State :=
  setF (tbPeerOfs p) 0 16 (ofInt 16 (markerOffset p m s))
    { s with tb := { s.tb with peerTick := tset (fun _ => none) s.tb.peerTick p (some (s.tick : Int)) } }

/-- The time fields of a marker that passed the checks, on port `p` (R78, R83): a valid one is published, and on
the upstream port it feeds the servo; one that fails only the GMID condition raises GM_MISMATCH there. -/
def markerTime (p : Nat) (m : MarkerTime) (s : State) : State :=
  if m.sound then
    if m.gmid = s.gmid then
      let t := notePeer p m s
      if s.upstream = some p then upstreamMarker p m t else t
    else if s.upstream = some p then raise evTb 2 s else s
  else s

/-- A valid upstream marker arrived in the present tick. -/
def State.markerSeen (s : State) : Bool := decide (s.tb.upTick = some s.tick)

/-- A tick without a valid upstream marker (R78, R79): MARKER_LOST, and after eight in a row FREE from ACQUIRING
and HOLDOVER from LOCKED, whose trim is frozen at its mean over the last 64 valid markers. A lost tick leaves the counts of consecutive
valid markers as they are: markers are consecutive where no marker that misses the bound stands between them (log 100). -/
def markerLost (s : State) : State :=
  let t := raise evTb 1 { s with tb := { s.tb with miss := min (s.tb.miss + 1) 255, lostTick := some s.tick } }
  if s.tb.miss + 1 < 8 then t
  else match s.tb.state with
    | .acquiring => { (toTime .free t) with tb := { (toTime .free t).tb with trim := 0, estimate := [], stepped := false, acc := 0 } }
    | .locked => raise evTb 3 { (toTime .holdover t) with tb := { (toTime .holdover t).tb with trim := meanInt s.tb.trims } }
    | _ => t

/-- MARKER_LOST (R78): cycle 1,023 of a tick in which no valid upstream marker arrived; once in a tick. -/
def execMarkerLost (s : State) : Outcome State Fault Refusal :=
  if s.acts && s.upstream.isSome && !s.markerSeen && decide (s.tb.lostTick ≠ some s.tick) then .next (markerLost (arrive 1023 s)) else .next s

/-- HOLDOVER_EXPIRED (R80): the state has lasted 2^HOLD_MAX_LOG2 ticks; raised once. -/
def execHoldoverExpired (s : State) : Outcome State Fault Refusal :=
  if s.acts && decide (s.tb.state = .holdover) && !s.tb.expired && decide (2 ^ getF s tbLimits 8 5 ≤ s.tb.hold) then
    .next (raise evTb 4 { s with tb := { s.tb with expired := true } })
  else .next s

/-- A role takes effect at an epoch tick (R79). A system time master has no upstream, and so no tick with MARKER_LOST (R69, R90). -/
def takeRole (s : State) : State :=
  if s.role = 2 then (if s.tb.state = .master then s else toTime .master { s with tb := { s.tb with miss := 0 } })
  else if s.tb.state = .master then toTime .locked { s with tb := { s.tb with acc := 0 } } else s

/-- TB_CTS_LO_READ (R67): the read returns CTS [31:0] and latches CTS [63:32] into TB_CTS_HI. -/
def execTbCtsLoRead (s : State) : Outcome State Fault Refusal :=
  if s.mready then .next (setF tbCtsHi 0 32 (s.cts / 2 ^ 32) (hostRead (BitVec.ofNat 32 s.cts) s)) else .next s

end Sys2Proof.Machine
end

