-- ==== Sys2Proof/Machine/Training.lean ====
section
/-!
DEFINITION. Training: link resets and cold trainings, their phases, link-up, and what they do to the link and
credit state (R101 to R107, R153, R154, R172, R181, R251, R379, R470).
-/
namespace Sys2Proof.Machine
open Host

def updTx (p : Nat) (f : PortTx → PortTx) (s : State) : State := updPort p (fun x => { x with tx := f x.tx }) s
def updRx (p : Nat) (f : PortRx → PortRx) (s : State) : State := updPort p (fun x => { x with rx := f x.rx }) s
def updCr (p : Nat) (f : PortCredit → PortCredit) (s : State) : State := updPort p (fun x => { x with cr := f x.cr }) s

/-- UNACKED: data flits not yet acknowledged (R136). -/
def PortTx.unacked (t : PortTx) : Nat := (t.nextTx - t.oldest).toNat

/-! ### Budgets (R101) -/

/-- Budget of a phase, in ticks. -/
def budget (cold : Bool) : TPhase → Nat
  | .ring => 720
  | .cdr => if cold then 96 else 8
  | .level => if cold then 560 else 24
  | .deskew => if cold then 32 else 4
  | .delay => if cold then 32 else 4
  | .verify => if cold then 256 else 16
  | .up => if cold then 64 else 8

/-- The phase after a phase. -/
def TPhase.next : TPhase → TPhase
  | .ring => .cdr | .cdr => .level | .level => .deskew | .deskew => .delay | .delay => .verify | .verify => .up | .up => .up

/-! ### Pool configuration (R171, R172) -/

/-- The staged configuration of port `p`'s receive side. -/
def stagedPool (p : Nat) (s : State) : PoolConfig :=
  { priv := getF s (prtPoolcfg p) 0 1 == 1, vcmap := getF s (prtVcmap p) 0 24
    limits := (List.range 8).map (fun v => getF s (prtVclim p v) 0 13) }

/-- Ports other than `p` with a privileged receive side in force. -/
def privPorts (p : Nat) (s : State) : Nat := (s.ports.filter (fun e => decide (e.1 ≠ p) && e.2.cr.own.priv)).length

/-- A staged configuration meets R171 and R172. -/
def poolOk (p : Nat) (s : State) : Bool :=
  let c := stagedPool p s
  let nvc := getF s (prtPoolcfg p) 1 3 + 1
  if c.priv then
    decide (privPorts p s < 8) && (c.limits.take nvc).all (fun x => decide (257 ≤ x)) &&
      (c.limits.take nvc).foldl (· + ·) 0 == 7936 &&
      (List.range 8).all (fun k => decide (c.vcmap / 2 ^ (3 * k) % 8 < nvc))
  else true

/-- The staged configuration is applied at a cold training, or refused with POOL_CFG_BAD (R172). -/
def applyPool (p : Nat) (s : State) : State :=
  let c := stagedPool p s
  if poolOk p s then
    let nvc := getF s (prtPoolcfg p) 1 3
    setF (prtPoolcfg p) 4 1 (bit c.priv) (setF (prtPoolcfg p) 5 3 (if c.priv then nvc else 0)
      (updCr p (fun x => { x with own := if c.priv then { c with limits := c.limits.take (nvc + 1) } else {} }) s))
  else raise (evPrt p) 16 s

/-! ### What training does to the link (R153, R154, R181) -/

/-- SELCTL in force (R159). -/
def selCtl (p : Nat) (s : State) : Nat := effF s (prtLinkCtl p) 26 2

/-- A warm retraining keeps the sequence, Sideboard and credit state, drops due acknowledgements and NAKs, clears
the replay and copy counts, and returns the direction to go-back-N unless SELCTL is ALWAYS (R151, R153). -/
def warmLink (p : Nat) (s : State) : State :=
  let always := decide (selCtl p s = 1)
  updPort p (fun x => { x with
    tx := { x.tx with replay := none, starts := [], selQueue := [], consecutive := 0, retries := 0, timer := none, stopped := none
                      expiredDark := false, selective := always && x.tx.selective, modeNext := none, cleanTicks := 0 }
    rx := { x.rx with ackDue := false, nakDue := false, accepted := 0, ackTimer := none } }) s

/-- What an emptied send side hands back (R154, R205): every packet in it but an ATOMIC_RELEASE that has been sent, which is never sent
again (R222). -/
def handedBack (t : PortTx) : List Packet :=
  let sent := t.sb.flatMap (·.pids)
  (t.flight.filter (fun e => !((PktHdr.ofSlot (e.2.slots.headD 0)).opc == opAtomicRelease && sent.contains e.1))).map (·.2) ++ t.staged

/-- A cold training starts both directions afresh, in go-back-N mode; packets in the emptied Sideboard are handed back, and the
Cupboard and Hatstand buffer are emptied. What a consumer has taken up of a packet stays with it, cut where the rest was
discarded; its cells count no more (R154, R181, R193). -/
def coldLink (p : Nat) (s : State) : State :=
  applyPool p (setF (prtPeerFsum p 0) 0 4 0 (updPort p (fun x => { x with
    rt := { x.rt with handback := x.rt.handback ++ handedBack x.tx }
    tx := { nextPid := x.tx.nextPid, hatCtl := [], hatPlv := x.tx.hatPlv, wire := x.tx.wire }
    rx := { nextId := x.rx.nextId, lastGood := x.rx.lastGood, dark := x.rx.dark, tickGood := x.rx.tickGood
            cup := (x.rx.cup.filter (fun c => c.taken)).map (fun c => { c with cut := decide (c.slots.length < c.need), void := true }) }
    cr := { own := x.cr.own } }) s))

/-! ### Beginning a training (R101, R106, R107) -/

/-- Lanes of the port that take part: all but those FAILED (R104). -/
def trainable (p : Nat) (s : State) : List Nat :=
  (List.range 5).filter (fun i => decide ((s.lane (cellOf p i)).role ≠ .failed))

/-- Every lane that takes part shows TRAINING, with its conditions to be met afresh; the rings of a warm retraining stay locked (R101,
R107). A cold training sets each heater to its stored code first (R101, RING). -/
def enterTraining (p : Nat) (cold : Bool) (s : State) : State :=
  (trainable p s).foldl (fun t i =>
    let l := cellOf p i
    let u := updLane l (fun x => { x with role := .training, los := false, cdr := false, rlock := x.rlock && !cold, verify := 0, ringSteps := 0 }) t
    if cold then blsbSend .train kindHeaterSet l (heaterOf l u) u else u) s

/-- A swap that was agreed, and repair requests that waited for a wake, meet a training: the swapped lane becomes FAILED as it begins,
and the requests are entered in the fault log with no action of their own, since the training settles them (R18, R113, R114). -/
def settleRepairs (p : Nat) (s : State) : State :=
  let ln := (s.port p).ln
  let s1 := match ln.swap with
    | some w => laneRecord (cellOf p w.lane) w.cause .laneFailed (setRole (cellOf p w.lane) .failed s)
    | none => s
  let s2 := ln.standing.foldl (fun t r => laneRecord (cellOf p r.1) r.2 .none t) s1
  updLn p (fun x => { x with swap := none, standing := [], wakeSwap := false }) s2

/-- The lanes that were to fail at this boundary do (R110, R114). -/
def failLanes (p : Nat) (s : State) : State :=
  let t := (s.port p).ln.failing.foldl (fun t f =>
    laneRecord (cellOf p f.1) f.2 .laneFailed (setRole (cellOf p f.1) .failed t)) s
  updLn p (fun x => { x with failing := [] }) t

/-- LSTATE leaves UP: LINK_DOWN (R161). -/
def linkDown (p : Nat) (s : State) : State :=
  if (s.port p).ln.lstate = .up then raise (evPrt p) 11 s else s

/-- A training begins in its first phase. -/
def beginTraining (p : Nat) (cold : Bool) (s0 : State) : State :=
  let s := abortDcal p (settleRepairs p (failLanes p (linkDown p s0)))
  let lanes := trainable p s
  let t := enterTraining p cold (updPort p (fun x => { x with
    ln := { x.ln with
      lstate := .training, width := 0, resetDue := none, coldDue := none
      wmax := getF s (prtLctl p) 0 3
      training := some { phase := if cold then .ring else .cdr, cold := cold, began := s.tick, lanes := maskOf lanes } }
    sc := { x.sc with dValid := false, flows := if cold then [] else x.sc.flows, displaced := if cold then [] else x.sc.displaced }
    pw := { x.pw with state := .p0, enter := none, missed := none, enterLate := none
                      wake := match x.pw.state with | .p3 => x.pw.wake | _ => none } }) s)
  if cold then bump (prtLtrn p) 8 8 (coldLink p t) else bump (prtLtrn p) 16 16 (warmLink p t)

/-- The record of a link reset (R106, R394). -/
def linkResetRecord (p cause : Nat) (s : State) : State :=
  handOver (unitPort p) (unitPort p) .port 0x0201 .linkReset cause s

/-- LINK_RESET (R21, R106): at cycle 0 of a tick, with its cause due; a cold training that is due takes its place (R156). -/
def execLinkReset (p : PortId) (s : State) : Outcome State Fault Refusal :=
  match (s.port p).ln.resetDue with
  | some cause =>
    if s.acts && decide (s.cyc = 0) && decide ((s.port p).ln.dueTick ≤ s.tick) && (s.port p).ln.coldDue.isNone then .next (beginTraining p false (linkResetRecord p cause s)) else .next s
  | none => .next s

/-! ### Failing and retrying (R105, R106, R470) -/

/-- Whether a failed cold training starts again at the next tick boundary (R470). -/
def retries (p : Nat) (s : State) : Bool :=
  decide (s.bnd.adp = .train) && decide ((getF s (mgtPortMask (p / 32)) (p % 32) 1) = 1) &&
    ((decide (s.upstream = some p) && decide (s.tb.state = .free ∨ s.tb.state = .acquiring)) ||
      (decide (s.upstream ≠ some p) && decide ((s.port p).ln.attempts < 6)))

/-- A training fails in a phase: its lanes are OFF, RESULT FAIL, a record; a failed warm retraining loses the port and
begins a cold training at once, in the same cycle 0, a failed cold one is retried as R470 says (R105, R106, R205). -/
def failTraining (p : Nat) (ph : TPhase) (s : State) : State :=
  match (s.port p).ln.training with
  | none => s
  | some t =>
    let again := t.cold && retries p s
    let s1 := (inRole p .training s).foldl (fun u i =>
      raise (evLn (cellOf p i)) 11 (setRole (cellOf p i) .off u)) s
    let s2 := setF (prtLtrn p) 0 4 4 (setF (prtLtrn p) 4 4 ph.code s1)
    let follows := !t.cold || again
    let s3 := handOver (unitPort p) (unitPort p) .port 0x0202 (if follows then .coldTrain else .none)
      (ph.code + 16 * bit t.cold) s2
    let woke := t.cold && (s.port p).pw.wake.isSome
    let s4 := if woke then handOver (unitPort p) (unitPort p) .port 0x0205 .none 3 s3 else s3
    updPort p (fun x => { x with
      pw := { x.pw with wake := none }
      ln := { x.ln with
        lstate := .down, training := none, ended := t.cold && !again
        afterWarm := !t.cold, coldDue := if follows then some (!t.cold) else none, dueTick := if t.cold then s.tick + 1 else s.tick }
      rt := { x.rt with
        lossDue := if woke then some .wake else if t.cold then x.rt.lossDue else some .training
        lossTick := if woke || !t.cold then s.tick + 1 else x.rt.lossTick } }) s4

/-- A training under way ends ABORTED when the port is taken down (R107). -/
def abortTraining (p : Nat) (s : State) : State :=
  match (s.port p).ln.training with
  | none => s
  | some _ =>
    setF (prtLtrn p) 0 4 5 ((inRole p .training s).foldl (fun u i => setRole (cellOf p i) .off u)
      (updLn p (fun x => { x with lstate := .down, training := none }) s))

/-- The port is taken down: its lanes go dark, a training under way ends ABORTED, nothing is due (R107, R205). -/
def takeDown (p : Nat) (s : State) : State :=
  let t := abortTraining p (abortDcal p (settleRepairs p (failLanes p (linkDown p s))))
  updPort p (fun x => { x with
    ln := { x.ln with lstate := .down, width := 0, resetDue := none, coldDue := none, ended := true }
    pw := { x.pw with state := .p0, enter := none, missed := none, enterLate := none, wake := none } })
    ((inRole p .active t ++ inRole p .spare t ++ inRole p .cal t).foldl (fun u i => setRole (cellOf p i) .off u) t)

/-! ### The phases (R101 to R105) -/

/-- The mean of the link-delay samples, kept in 1/16 cc. R75 does not say how it is rounded: each half round trip is cut toward zero,
the mean of the sixteen too, and a mean below 0 is taken as 0 (log 99). -/
def delayOf (t : Training) : Nat := (meanInt t.samples).toNat

/-- The DELAY phase ends: L is stored, measured on the lowest lane in training; a warm retraining that moves it by more than 4/16 cc raises DELAY_STEP (R75, R76). -/
def storeDelay (p : Nat) (t : Training) (s : State) : State :=
  let old := getF s (tbLinkdly p) 0 16
  let had := getF s (tbLinkdly p) 16 1 = 1
  let new := delayOf t
  let s0 := updLn p (fun x => { x with measured := (ofMask t.lanes).headD x.measured }) s
  let s1 := setF (tbLinkdly p) 0 16 new (setF (tbLinkdly p) 16 1 1 s0)
  if !t.cold && had && decide (4 < ((new : Int) - (old : Int)).natAbs) then raise evTb 7 s1 else s1

/-- Skews measured in DESKEW are recorded; a lane beyond ±2 cc raises SKEW_LIMIT (R99). -/
def storeSkews (p : Nat) (skews : List (BitVec 8)) (s : State) : State :=
  (List.range 5).foldl (fun t i =>
    let k := (skews.getD i 0).toNat
    let t1 := setF (lnEye (cellOf p i)) 8 8 k t
    if decide ((s.lane (cellOf p i)).role = .training) && decide (32 < (toInt 8 k).natAbs) then raise (evLn (cellOf p i)) 10 t1 else t1) s

/-- Lanes within the skew limit. -/
def skewPass (skews : List (BitVec 8)) : BitVec 5 :=
  maskOf ((List.range 5).filter (fun i => decide ((toInt 8 (skews.getD i 0).toNat).natAbs ≤ 32)))

/-- Lanes over the corrected-byte threshold of VERIFY (R104). -/
def verifyOver (p : Nat) (cold : Bool) (s : State) : BitVec 5 :=
  maskOf ((List.range 5).filter (fun i =>
    decide (getF s calThr 0 16 * budget cold .verify / 64 < (s.lane (cellOf p i)).verify)))

/-- Lanes that reported no loss of light and kept clock recovery (R104). -/
def verifyLit (p : Nat) (s : State) : BitVec 5 :=
  maskOf ((List.range 5).filter (fun i => !(s.lane (cellOf p i)).los && (s.lane (cellOf p i)).cdr))

/-- The width and lane sets both sides compute after VERIFY (R104). -/
def agreeWidth (wmax : Nat) (t : Training) : Nat × BitVec 5 × Option Nat :=
  let common := ofMask (t.lanes &&& t.passPeer)
  let w := min 4 (min wmax (min t.wmaxPeer common.length))
  (w, maskOf (common.take w), (common.drop w).head?)

/-- Lanes that leave the training at the end of a phase become OFF and raise TRAIN_FAIL. -/
def dropLanes (p : Nat) (gone : BitVec 5) (s : State) : State :=
  (ofMask gone).foldl (fun u i => raise (evLn (cellOf p i)) 11 (setRole (cellOf p i) .off u)) s

/-- What a phase that a lane has completed leaves on it: its rings locked, its clock recovery locked, an eye that the rules do not
fix; VERIFY counts from its beginning (R101, R104, R125; log 95). -/
def lanePassed (ph : TPhase) (l : Nat) (s : State) : State :=
  match ph with
  | .ring => updLane l (fun x => { x with rlock := true }) s
  | .cdr => updLane l (fun x => { x with cdr := true }) s
  | .level => let (n, t) := takeFree s; setF (lnEye l) 0 8 (n % 256) t
  | .delay => updLane l (fun x => { x with verify := 0, los := false, cdr := true }) s
  | _ => s

/-- The training goes on to its next phase with the lanes left. -/
def nextPhase (p : Nat) (t : Training) (lanes : BitVec 5) (s : State) : State :=
  let s1 := (ofMask lanes).foldl (fun u i => lanePassed t.phase (cellOf p i) u) (dropLanes p (t.lanes &&& ~~~lanes) s)
  updLn p (fun x => { x with training := some { t with
    phase := t.phase.next, began := s.tick, lanes := lanes, peerDone := false } }) s1

/-- The end of a phase with `left` the lanes that completed it on both sides (R101, R104, R105). -/
def endPhase (p : Nat) (t : Training) (left : BitVec 5) (skews : List (BitVec 8)) (s : State) : State :=
  match t.phase with
  | .up => failTraining p .up s
  | .deskew =>
    let s1 := storeSkews p skews s
    let keep := left &&& skewPass skews
    if keep = 0 then failTraining p .deskew s1 else nextPhase p t keep s1
  | .delay =>
    if left = 0 ∨ t.samples.length < 16 then failTraining p .delay s else nextPhase p t left (storeDelay p t s)
  | .verify =>
    let exceeded := verifyOver p t.cold s
    let keep := left &&& ~~~exceeded &&& verifyLit p s
    if 0 < t.uncorr ∧ exceeded &&& left = 0 then failTraining p .verify s
    else if keep = 0 then failTraining p .verify s
    else
      let t1 := { t with lanes := keep }
      let (w, act, sp) := agreeWidth (s.port p).ln.wmax t1
      if w = 0 then failTraining p .up s
      else nextPhase p { t1 with lanes := t.lanes, active := act, spare := sp } keep s
  | _ => if left = 0 then failTraining p t.phase s else nextPhase p t left s

/-- Budgets of the phases of a wake from P2 (R264). -/
def wakeBudget : TPhase → Nat
  | .cdr => 4 | .level => 20 | .deskew => 3 | .verify => 4 | _ => 0

/-- A phase of a wake from P2 ends when every active lane has completed it on both sides (R264). -/
def wakePhaseEnd (p : Nat) (done : BitVec 5) (s : State) : State :=
  match (s.port p).pw.wake with
  | none => s
  | some w =>
    if (s.port p).pw.state = .p2 ∧ w.began ≤ s.tick ∧ maskOf (inRole p .active s) &&& ~~~done = 0 then
      updPort p (fun x => { x with pw := { x.pw with wake := some (match w.phase with
        | .cdr => { w with phase := .level, began := s.tick }
        | .level => { w with phase := .deskew, began := s.tick }
        | .deskew => { w with phase := .verify, began := s.tick }
        | _ => { w with ready := true }) } }) s
    else s

/-- TRAINING_PHASE_END (R101): the lanes that completed the phase on both sides, and the skews measured. It ends when every lane still
in training has, or when the budget runs out, and what follows takes effect at cycle 0 of a tick (R21, R100). The wake of a port from
P2, and the calibration of a lane in CAL, go through phases of their own (R120, R264). -/
def execTrainingPhaseEnd (p : PortId) (done : BitVec 5) (skews : List (BitVec 8)) (s : State) : Outcome State Fault Refusal :=
  if !s.acts || decide (s.cyc ≠ 0) then .next s else
  match (s.port p).ln.training with
  | none => .next (if (s.port p).pw.wake.isSome then wakePhaseEnd p done s else calPhaseEnd p done s)
  | some t =>
    if decide (t.lanes &&& ~~~done = 0 ∧ t.phase ≠ .up) || decide (t.began + budget t.cold t.phase ≤ s.tick) then
      .next (endPhase p t (t.lanes &&& done) skews s)
    else .next s

/-! ### Training flits (R75, R103) -/

/-- A training flit received at reference `ref`, in 1/16 cc: the peer's masks and width, an exchange of R75 in DELAY
(none while the peer has received no training flit to echo, which its zero ECHO and TURN say), and in UP the count of consecutive flits whose ACTIVE equals the own set. -/
def trainMsg (p : Nat) (m : TrainMsg) (ref : Nat) (s : State) : State :=
  updLn p (fun x => { x with training := x.training.map (fun t =>
    let t1 := { t with
      passPeer := BitVec.ofNat 5 m.pass, wmaxPeer := m.wmax, peerDone := m.done && decide (m.phase = t.phase.code)
      echo := some (m.tref, ref) }
    match t.phase with
    | .delay =>
      if m.phase = 5 ∧ t.samples.length < 16 ∧ ¬(m.echo = 0 ∧ m.turn = 0) then
        let rtt := toInt 32 (ofInt 32 ((ref : Int) - (m.echo : Int) - (m.turn : Int)))
        { t1 with samples := rtt.tdiv 2 :: t.samples }
      else t1
    | .up =>
      if m.phase = 7 ∧ BitVec.ofNat 5 m.active = t.active then { t1 with upCount := t.upCount + 1 } else { t1 with upCount := 0 }
    | _ => t1) }) s

/-- The present phase is complete on this side: the exchanges of DELAY, the span of VERIFY, the agreement of UP (R101). -/
def phaseDone (t : Training) (s : State) : Bool :=
  match t.phase with
  | .delay => decide (16 ≤ t.samples.length)
  | .verify => decide (t.began + budget t.cold .verify ≤ s.tick)
  | .up => decide (4 ≤ t.upCount)
  | _ => false

/-- TREF, ECHO and TURN of a training flit whose transmit reference is `tref`, where the peer's last had that TREF and came at that
receive reference (R103). -/
def withRefs (m : TrainMsg) (tref : Nat) (echo : Option (Nat × Nat)) : TrainMsg :=
  { m with tref := tref % 2 ^ 32, echo := (echo.map (·.1)).getD 0, turn := (echo.map (fun e => (tref - e.2) % 2 ^ 32)).getD 0 }

/-- A training flit that says nothing yet. -/
def blankMsg : TrainMsg := { phase := 7, pass := 0, active := 0, wmax := 0, cold := false, done := false, tref := 0, echo := 0, turn := 0 }

/-- The message of the training, or of the wake from P2, under way (R103, R264). -/
def ownMsg (p : Nat) (s : State) : TrainMsg :=
  let x := s.port p
  match x.ln.training, x.pw.wake with
  | some t, _ =>
    { blankMsg with phase := t.phase.code, pass := t.lanes.toNat, active := if t.phase = .up then t.active.toNat else 0
                    wmax := x.ln.wmax, cold := t.cold, done := phaseDone t s }
  | none, some w =>
    { blankMsg with phase := w.phase.code, pass := (maskOf (inRole p .active s)).toNat, wmax := x.ln.wmax
                    done := w.ready || decide (w.began + wakeBudget w.phase ≤ s.tick) }
  | none, none => blankMsg

/-- The training flit the port sends now, with its transmit reference in 1/16 cc (R103). -/
def trainFlit (p : Nat) (tref : Nat) (s : State) : Flit :=
  let x := s.port p
  let echo := match x.ln.training with | some t => t.echo | none => x.pw.wake.bind (·.echo)
  { hdr := { kind := 4, nslot := 1 }, slots := [(withRefs (ownMsg p s) tref echo).slot] }

/-- A training flit received in VERIFY of a wake from P2 (R264). -/
def wakeMsg (p : Nat) (m : TrainMsg) (ref : Nat) (s : State) : State :=
  if wakeVerify p s then
    updPort p (fun x => { x with pw := { x.pw with wake := x.pw.wake.map (fun w => { w with echo := some (m.tref, ref) }) } }) s
  else s

/-! ### Link-up (R104, R123, R153, R251) -/

/-- RESULT of a training that came up (R124). -/
def upResult (w : Nat) (spare : Option Nat) : Nat := if w < 4 then 3 else if spare.isSome then 1 else 2

/-- The scheduled latency D at a width, with L in 1/16 cc (R251). -/
def latencyD (w l16 : Nat) : Nat := 96 + 4 * (4 - w) + (l16 + 15) / 16

/-- A lane that passed a cold training counts as deeply calibrated (R123). -/
def countCold (p i : Nat) (s : State) : State :=
  bumpWrap (lnDcalCnt (cellOf p i)) 1 (updLane (cellOf p i) (fun x => { x with
    dcts := s.cts, tempDcal := tempOf p s, due := none, fallback := false, dueBase := s.tick }) s)

/-- A sender with flits unacknowledged starts a replay from OLDEST (R153): go-back-N, counting as neither first nor
consecutive (R148). -/
def replayAtUp (p : Nat) (s : State) : State :=
  let tx := (s.port p).tx
  if tx.unacked = 0 then s
  else raise (evPrt p) 4 (bump (prtCntReplay p) 0 16
    (updTx p (fun x => { x with replay := some (x.oldest, x.nextTx - 1), timer := none }) s))

/-- Entry to selective mode: SEL_ENTER, counted (R149, R160). -/
def enterSel (p : Nat) (s : State) : State :=
  raise (evPrt p) 6 (bump (prtCntSel p) 0 16 (updTx p (fun x => { x with selective := true, cleanTicks := 0 }) s))

/-- A port that comes up with SELCTL at ALWAYS is in selective mode (R149). -/
def selAtUp (p : Nat) (s : State) : State := if selCtl p s = 1 ∧ !(s.port p).tx.selective then enterSel p s else s

/-- The link comes up with the lanes as computed (R104). -/
def bringUp (p : Nat) (t : Training) (s : State) : State :=
  let acts := ofMask t.active
  let s1 := (List.range 5).foldl (fun u i =>
    if (u.lane (cellOf p i)).role = .failed then u
    else
      let r : LaneRole := if acts.contains i then .active else if t.spare = some i then .spare else .off
      setRole (cellOf p i) r (updLane (cellOf p i) (fun x => { x with los := false, window := 0 }) u)) s
  let s2 := if t.cold then (ofMask (t.lanes &&& t.passPeer)).foldl (fun u i => countCold p i u) s1 else s1
  let w := acts.length
  let s3 := setF (prtLtrn p) 0 4 (upResult w t.spare) s2
  replayAtUp p (selAtUp p (updPort p (fun x => { x with
    ln := { x.ln with lstate := .up, width := w, training := none, ended := true, afterWarm := false, upTick := some s.tick }
    rx := { x.rx with empty := 0, tickGood := true, dark := false, lastGood := some s.cts }
    pw := { x.pw with wake := none }
    sc := { x.sc with d := latencyD w (getF s (tbLinkdly p) 0 16), dValid := true, dWidth := w } }) s3))

/-- LINK_UP (R104): at cycle 0 of the tick after each side has received four consecutive UP flits that agree; the peer's DONE says
that it has. -/
def execLinkUp (p : PortId) (s : State) : Outcome State Fault Refusal :=
  match (s.port p).ln.training with
  | some t => if s.acts && decide (s.cyc = 0) && decide (t.phase = .up) && decide (4 ≤ t.upCount) && t.peerDone then .next (bringUp p t s) else .next s
  | none => .next s

/-! ### Causes of a training (R106, R124, R379) -/

/-- A cold training becomes due at the next tick boundary. -/
def coldDue (p : Nat) (afterWarm : Bool) (s : State) : State :=
  updLn p (fun x => { x with coldDue := some afterWarm, dueTick := s.tick + 1 }) s

/-- NO_FLIT_TIMEOUT (R106, cause 0): found at the cycle 0 that ends the eighth empty tick, the link reset begins there. -/
def execNoFlitTimeout (p : PortId) (s : State) : Outcome State Fault Refusal :=
  let x := s.port p
  if s.acts && decide (x.ln.lstate = .up) && decide (8 ≤ x.rx.empty) && decide (x.pw.state = .p0 ∨ x.pw.state = .p1) then
    .next (updLn p (fun y => { y with dueTick := if s.cyc = 0 then s.tick else y.dueTick }) (resetDue p 0 s))
  else .next s

/-- PEER_TRAINING_JOIN (R379): the CDR pattern, or unmodulated light, on every active lane for 64 cc. -/
def execPeerTrainingJoin (p : PortId) (light : Bool) (s : State) : Outcome State Fault Refusal :=
  let x := s.port p
  if s.acts && decide (x.ln.lstate = .up) && decide (x.pw.state = .p0 ∨ x.pw.state = .p1) then
    .next (if light then coldDue p false s else resetDue p 5 s)
  else .next s

/-- PRT_RETRAIN (R106 cause 2, R124): a write of RETRAIN. -/
def execPrtRetrain (p : PortId) (s : State) : Outcome State Fault Refusal :=
  .next (hostWrite (resetDue p 2) s)

/-- PRT_COLD (R124): a write of COLD. -/
def execPrtCold (p : PortId) (s : State) : Outcome State Fault Refusal :=
  .next (hostWrite (coldDue p false) s)

/-! ### Software on a lane (R125) -/

/-- LN_DCAL_REQ (R119, R125). -/
def execLnDcalReq (l : LaneId) (s : State) : Outcome State Fault Refusal :=
  .next (hostWrite (requestDcal l) s)

/-- The lane's error counters are zeroed (R125). -/
def clearLaneCounters (l : Nat) (s : State) : State := putReg (lnPiloterr l) 0 (putReg (lnErrcnt l) 0 s)

/-- LN_CNT_CLR (R125). -/
def execLnCntClr (l : LaneId) (s : State) : Outcome State Fault Refusal :=
  .next (hostWrite (clearLaneCounters l) s)

/-- LN_CTS_LO_READ (R125): the recorded stamp's low half is returned and its high half latched. -/
def execLnCtsLoRead (l : LaneId) (dcal : Bool) (s : State) : Outcome State Fault Refusal :=
  if s.mready then
    let stamp := if dcal then (s.lane l).dcts else (s.lane l).gcts
    .next (setF (if dcal then lnDcalCtsHi l else lnGcalCtsHi l) 0 32 (stamp / 2 ^ 32) (hostRead (BitVec.ofNat 32 stamp) s))
  else .next s

end Sys2Proof.Machine
end

