-- ==== Sys2Proof/Machine/Wire.lean ====
section
/-!
DEFINITION. What the lanes carry: PAM4 levels, the scrambler, striping, standby bursts, and the signals of training
(R92 to R97, R101, R102, R258).
-/
namespace Sys2Proof.Machine
open Host

/-! ### Symbols (R92) -/

/-- The levels of a word's sixteen symbols, symbol k in bits [2k+1:2k]: 0b00 is level 0, 0b01 level 1, 0b11 level 2, 0b10 level 3. -/
def levels (w : Word) : Word := w ^^^ ((w >>> 1) &&& 0x55555555)

/-! ### The scrambler (R93) -/

/-- The scrambler is loaded with this at the first bit of slot 0, by wavelength channel. -/
def scrLoad (i : Nat) : Nat := 0x7FFFFF00 + i

/-- Sixteen bits taken in the opposite order. -/
def flip16 (x : Nat) : Nat :=
  let a := (x &&& 0x5555) <<< 1 ||| (x >>> 1 &&& 0x5555)
  let b := (a &&& 0x3333) <<< 2 ||| (a >>> 2 &&& 0x3333)
  let c := (b &&& 0x0F0F) <<< 4 ||| (b >>> 4 &&& 0x0F0F)
  (c &&& 0x00FF) <<< 8 ||| c >>> 8

/-- The next sixteen bits of x^31 + x^28 + 1, the earliest highest, from a state whose bit 30 is the oldest (log 93). -/
def scrBits (r : Nat) : Nat := (r >>> 15 ^^^ r >>> 12) % 65536

/-- The state sixteen bits on. -/
def scrNext (r : Nat) : Nat := (r <<< 16 ||| scrBits r) % 0x80000000

/-- The state a word time, 32 bits, on. -/
def scrWord (r : Nat) : Nat := scrNext (scrNext r)

/-- The 32 bits XORed onto a word: its bit 0 takes the earliest. -/
def scrMask (r : Nat) : Nat := flip16 (scrBits r) + flip16 (scrBits (scrNext r)) * 65536

/-- The state `n` word times on. -/
def scrSkip : Nat → Nat → Nat
  | 0, r => r
  | n + 1, r => match scrWord r with
    | 0 => scrSkip n 0
    | q + 1 => scrSkip n (q + 1)

/-- Word times of a tick: 17 in a slot (R97). -/
def tickWords : Nat := 256 * 17

/-- The words sent from a state on, and the state after them; `plain` words go unscrambled, and the scrambler runs on under them. -/
def scramble : Nat → List (Bool × Nat) → List Nat × Nat
  | r, [] => ([], r)
  | r, (plain, w) :: ws =>
    let (out, q) := scramble (scrWord r) ws
    ((if plain then w else w ^^^ scrMask r) :: out, q)

/-! ### Striping (R96, R97) -/

/-- The lanes a port's flits are striped over: its active lanes, or in training the four lowest of those in training (log 93). -/
def stripeLanes (p : Nat) (s : State) : List Nat :=
  match (s.port p).ln.training with
  | some t => (ofMask t.lanes).take 4
  | none => inRole p .active s

/-- The striping position of word `n` of the flit in slot `k` at width `w`. -/
def wordPos (w k n : Nat) : Nat := (68 * (k % 4) + n) % max w 1

/-- Its word time within the tick. -/
def wordTime (w k n : Nat) : Nat := 68 * (k / 4) + (68 * (k % 4) + n) / max w 1

/-- Word `n` of a marker carries pilots, bytes 24 to 247 (R94, R129). -/
def pilotWord (n : Nat) : Bool := decide (6 ≤ n) && decide (n ≤ 61)

/-- The 68 words of 272 bytes. -/
def flitWords (raw : List Byte) : List Nat :=
  (List.range 68).map (fun n => leNum (nats ((raw.drop (4 * n)).take 4)))

/-- The words of a flit that go on striping position `q`, each with whether it goes unscrambled. -/
def laneWords (w k q : Nat) (marker : Bool) (ws : List Nat) : List (Bool × Nat) :=
  (ws.zipIdx.filter (fun e => wordPos w k e.2 == q)).map (fun e => (marker && pilotWord e.2, e.1))

/-- The word time of the first word on position `q`. -/
def firstTime (w k q : Nat) : Nat := wordTime w k ((List.range 68).find? (fun n => wordPos w k n == q) |>.getD 0)

/-! ### Descrambling (R93, R134) -/

/-- What descrambling XORs onto the words received on wavelength channel `i`, from a word time on. -/
def laneMasks (i t n : Nat) : List Nat :=
  (scramble (scrSkip t (scrLoad i)) (List.replicate n (false, 0))).1

/-- The flit as its lanes carried it, descrambled by the frame alignment of the peer's slot `k`; the pilot words of a marker, which an
up port takes in slot 0, came unscrambled. The same XOR scrambles (R93, R94). -/
def descramble (p k : Nat) (raw : List Byte) (s : State) : List Byte :=
  let ls := stripeLanes p s
  let w := ls.length
  let marker := decide (k = 0) && (s.port p).ln.training.isNone
  let masks := ls.zipIdx.map (fun e => laneMasks e.1 (firstTime w k e.2) 68)
  let words := (flitWords raw).zipIdx.map (fun e =>
    if marker && pilotWord e.2 then e.1
    else e.1 ^^^ (masks.getD (wordPos w k e.2) []).getD (wordTime w k e.2 - firstTime w k (wordPos w k e.2)) 0)
  (bytesOf (words.flatMap (leBytes 4))).take raw.length

/-! ### What the drivers send (R93 to R95, R100 to R102, R258) -/

/-- The lane's driver sends something. -/
def setOut (l : Nat) (o : LaneOut) (s : State) : State := updLane l (fun x => { x with out := o }) s

/-- The lane sends words from word time `t` of the present tick on, its scrambler having run since its load in slot 0 (R93). -/
def sendWords (p i t : Nat) (ws : List (Bool × Nat)) (s : State) : State :=
  let start := s.tick * tickWords
  updLane (cellOf p i) (fun x =>
    let here : Nat := if start < x.scrAt ∧ x.scrAt ≤ start + t then scrSkip (start + t - x.scrAt) x.scr.toNat else scrSkip t (scrLoad i)
    let (out, r) := scramble here ws
    { x with out := .words (out.map (fun w => levels (BitVec.ofNat 32 w))), scr := BitVec.ofNat 31 r, scrAt := start + t + ws.length }) s

/-- A flit's bytes leave striped over the lanes `ls`. -/
def sendStriped (p k : Nat) (ls : List Nat) (marker : Bool) (raw : List Byte) (s : State) : State :=
  ls.zipIdx.foldl (fun t e =>
    sendWords p e.1 (firstTime ls.length k e.2) (laneWords ls.length k e.2 marker (flitWords raw)) t) s

/-- The spare, and a fifth lane in training, carry the words of the lowest-numbered lane, under their own scramblers (R95; log 93). -/
def sendTwin (p k : Nat) (ls : List Nat) (i : Nat) (marker : Bool) (raw : List Byte) (s : State) : State :=
  sendWords p i (firstTime ls.length k 0) (laneWords ls.length k 0 marker (flitWords raw)) s

/-- The pilot sequence as words, four times over (R94, R102). -/
def pilotWords : List Nat :=
  (List.replicate 4 [0xFF00FF00, 0xE41BE41B, 0xCC33CC33, 0xF00FF00F]).flatMap id

/-- The lane training word (R102). -/
def laneTrainWord (i phase k : Nat) (ready : Bool) (fb : Nat) : Nat :=
  pack [(0, 8, 0x5A), (8, 3, i), (11, 4, phase), (15, 1, bit ready), (16, 8, k), (24, 4, fb)]

/-- A lane training frame leaves, unscrambled. Whether this side's receiver has completed the phase on the lane, and its eye quality,
are the receiver's to say: free values (R102; log 95). -/
def sendFrame (p k phase i : Nat) (s : State) : State :=
  let (n, t) := takeFree s
  sendWords p i (17 * k) ((laneTrainWord i phase k (n % 2 == 1) (n / 2 % 16) :: pilotWords).map (fun w => (true, w))) t

/-- The signal of a phase on one lane, where flits are not striped yet (R101). -/
def sendPhase (p k : Nat) (ph : TPhase) (s : State) (i : Nat) : State :=
  match ph with
  | .ring => setOut (cellOf p i) .light s
  | .cdr => setOut (cellOf p i) .prbs7 s
  | .level => sendFrame p k 3 i s
  | .deskew => sendFrame p k 4 i s
  | _ => s

/-- Drivers of lanes that send nothing are at level 0. -/
def darken (p : Nat) (ls : List Nat) (s : State) : State := ls.foldl (fun t i => setOut (cellOf p i) .dark t) s

/-- The lanes of a port in training send the signal of the phase in slot `k` (R101). -/
def driveTraining (p k : Nat) (t : Training) (s : State) : State :=
  match t.phase with
  | .delay | .verify | .up =>
    match (s.port p).tx.wire with
    | some raw =>
      let ls := (ofMask t.lanes).take 4
      ((ofMask t.lanes).drop 4).foldl (fun u i => sendTwin p k ls i false raw u) (sendStriped p k ls false raw s)
    | none => s
  | ph => (ofMask t.lanes).foldl (sendPhase p k ph) s

/-- The 272 zero bytes whose scrambled symbols are idle symbols (R94). -/
def idleBytes : List Byte := List.replicate 272 0

/-- The lanes of an up port in slot `k`: the active lanes carry the flit, or in P1 idle symbols in slot 128, or nothing; the spare
carries its bursts in slots 0 and 128; a lane in CAL its calibration's signal (R93 to R95, R100, R116, R120, R258). -/
def driveUp (p k : Nat) (s : State) : State :=
  let ls := inRole p .active s
  let quiet := decide ((s.port p).pw.state = .p1) && decide (k = 128)
  let raw := match (s.port p).tx.wire with | some r => some r | none => if quiet then some idleBytes else none
  let s1 := match raw with | some r => sendStriped p k ls (decide (k = 0)) r s | none => darken p ls s
  let s2 := match spareOf p s, raw with
    | some i, some r => if k = 0 ∨ k = 128 then sendTwin p k ls i (decide (k = 0)) r s1 else setOut (cellOf p i) .dark s1
    | some i, none => setOut (cellOf p i) .dark s1
    | none, _ => s1
  match (s.port p).ln.dcal with
  | some d => (inRole p .cal s).foldl (sendPhase p k d.phase) s2
  | none => s2

/-- The lanes of a port in P2 that wakes: the active lanes send the signal of the wake's phase (R264). -/
def driveWake (p k : Nat) (w : Wake) (s : State) : State :=
  match w.phase with
  | .verify => match (s.port p).tx.wire with | some raw => sendStriped p k (inRole p .active s) false raw s | none => s
  | ph => (inRole p .active s).foldl (sendPhase p k ph) s

end Sys2Proof.Machine
end

