-- ==== Sys2Proof/Machine/Credits.lean ====
section
/-!
DEFINITION. Pools, credit and the Cupboard (R162 to R168, R172, R178 to R180).
-/
namespace Sys2Proof.Machine
open Host

/-- No credit is taken, and no cell counted, where nothing is listed. -/
def zero0 (_ : Nat) : Nat := 0
/-- A count by pool. -/
def cget (t : Tab Nat) (k : Nat) : Nat := tget zero0 t k
def cset (t : Tab Nat) (k v : Nat) : Tab Nat := tset zero0 t k v
/-- Adds to a count kept modulo 2^32 (R179). -/
def cadd32 (t : Tab Nat) (k n : Nat) : Tab Nat := cset t k ((cget t k + n) % 2 ^ 32)

/-! ### Pools (R162, R163, R171) -/

/-- Virtual channels of a privileged side: its non-zero limits. -/
def PoolConfig.channels (c : PoolConfig) : Nat := (c.limits.takeWhile (fun x => x != 0)).length

/-- Whether pool `k` is in use on a side with this configuration. -/
def PoolConfig.inUse (c : PoolConfig) (k : Nat) : Bool :=
  k == 8 || decide (k < (if c.priv then c.channels else 4))

/-- RES_k: cells reserved for pool `k` (R162, R171). -/
def PoolConfig.reserve (c : PoolConfig) (k : Nat) : Nat :=
  if k = 8 then 256 else if c.priv then (c.limits.getD k 0) else if k < 4 then 128 else 0

/-- Cells of the shared pool. -/
def sharedCells : Nat := 7424

/-- A packet is in transit on the hop from die `a` to die `b` over port `p` (R163). -/
def inTransit (p a b : Nat) (h : PktHdr) (s : State) : Bool :=
  decide (p ≠ s.site) && (decide (h.src ≠ a) || decide (h.dst ≠ b))

/-- The pool a packet is charged to under a configuration (R162, R163, R171). -/
def poolFor (c : PoolConfig) (transit : Bool) (cls : Nat) : Nat :=
  if transit then 8 else if c.priv then c.vcmap / 2 ^ (3 * (cls % 8)) % 8 else cls % 4

/-- The pool of the peer's Cupboard that a packet sent on port `p` is charged to. -/
def txPool (p : Nat) (h : PktHdr) (s : State) : Nat :=
  poolFor ((s.port p).cr.peer.getD {}) (inTransit p s.die (peerDie p s) h s) h.cls

/-- The pool of the own Cupboard that a packet received on port `p` is charged to. -/
def rxPool (p : Nat) (h : PktHdr) (s : State) : Nat :=
  poolFor (s.port p).cr.own (inTransit p (peerDie p s) s.die h s) h.cls

/-! ### Credit at the sender (R164, R167) -/

/-- The shared part of pool `k`. -/
def PortCredit.shared (c : PortCredit) (k : Nat) : Nat :=
  if (c.peer.getD {}).priv then 0 else cget c.out k + cget c.pend k - (c.peer.getD {}).reserve k

/-- SHARED_USED. -/
def PortCredit.sharedUsed (c : PortCredit) : Nat := ((List.range 9).map c.shared).foldl (· + ·) 0

/-- A packet of pool `k` with `n` slots fits its reservation. -/
def PortCredit.fits (c : PortCredit) (k n : Nat) : Bool :=
  decide (cget c.out k + cget c.pend k + n ≤ (c.peer.getD {}).reserve k)

/-- A packet of pool `k` with `n` slots can be started (R164): within the reservation, or, on an ordinary side,
with its shared part within the shared pool. -/
def PortCredit.canStart (c : PortCredit) (k n : Nat) : Bool :=
  c.fits k n || (!(c.peer.getD {}).priv &&
    decide (c.sharedUsed + (cget c.out k + cget c.pend k + n - (c.peer.getD {}).reserve k - c.shared k) ≤ sharedCells))

/-- The pool with the largest shared part, ties going to the highest CPOOL (R167). -/
def largestShared (c : PortCredit) : Nat :=
  (List.range 9).foldl (fun b k => if c.shared b ≤ c.shared k then k else b) 0

/-- A credit return received (R167, R179). -/
def creditReturn (p cpool cred : Nat) (s : State) : State :=
  let c := (s.port p).cr
  if cred = 0 then s
  else if cpool = 15 then
    let k := largestShared c
    let n := min cred (c.shared k)
    let t := updCr p (fun x => { x with out := cset x.out k (cget x.out k - n), ret := cadd32 x.ret k n }) s
    if n < cred then raise (evPrt p) 13 t else t
  else if (c.peer.getD {}).inUse cpool then
    let t := updCr p (fun x => { x with
      out := cset x.out cpool (cget x.out cpool - cred), ret := cadd32 x.ret cpool cred }) s
    if cget c.out cpool < cred then raise (evPrt p) 13 t else t
  else raise (evPrt p) 13 s

/-! ### Returns owed (R166, R167) -/

/-- Cells of pool `k` are freed: returns become pending. -/
def freeCells (p k n : Nat) (s : State) : State :=
  updCr p (fun x => { x with owed := cset x.owed k (cget x.owed k + n) }) s

/-- The return the next flit carries: the pool with the most pending returns, ties to the lowest CPOOL, up to 511. -/
def nextReturn (c : PortCredit) : Nat × Nat :=
  let k := (List.range 9).foldl (fun b k => if cget c.owed b < cget c.owed k then k else b) 0
  (k, min (cget c.owed k) 511)

/-- The return leaves in a flit. -/
def takeReturn (k n : Nat) (c : PortCredit) : PortCredit :=
  { c with owed := cset c.owed k (cget c.owed k - n), freed := cadd32 c.freed k n }

/-! ### The Cupboard (R162, R166, R193) -/

/-- Cells the Cupboard holds: packet slots not yet freed, and those of held flits (R138). -/
def cupUsed (x : PortRx) : Nat :=
  (x.cup.map (fun c => if c.void then 0 else c.slots.length - c.freed)).foldl (· + ·) 0 +
  (x.held.map (fun h => h.slots.length - h.hslot)).foldl (· + ·) 0

/-- The header of a Cupboard packet. -/
def CupPkt.hdr (c : CupPkt) : PktHdr := PktHdr.ofSlot (c.slots.headD 0)
/-- Its slots have all been reassembled. -/
def CupPkt.complete (c : CupPkt) : Bool := decide (c.need ≤ c.slots.length)

/-- Replaces the Cupboard packet numbered `id`. -/
def updPkt (p id : Nat) (f : CupPkt → CupPkt) (s : State) : State :=
  updRx p (fun x => { x with cup := x.cup.map (fun c => if c.id = id then f c else c) }) s

/-- Cells of a packet are freed: their credits are owed, but for cells that a cold training emptied (R166, R181). -/
def freeOf (p : Nat) (c : CupPkt) (n : Nat) (s : State) : State := if c.void then s else freeCells p c.pool n s

/-- Frees `n` more cells of a packet; one with nothing left in its cells leaves the Cupboard. -/
def freePkt (p : Nat) (c : CupPkt) (n : Nat) (s : State) : State :=
  let m := min n (c.slots.length - c.freed)
  let s1 := updPkt p c.id (fun x => { x with freed := x.freed + m }) (freeOf p c m s)
  if c.need ≤ c.freed + m ∨ c.cut then updRx p (fun x => { x with cup := x.cup.filter (fun q => q.id != c.id) }) s1 else s1

/-- Frees all cells of a packet and forgets it, once its last slot has come. -/
def dropPkt (p : Nat) (c : CupPkt) (s : State) : State :=
  let t := freeOf p c (c.slots.length - c.freed) s
  if c.complete ∨ c.cut then updRx p (fun x => { x with cup := x.cup.filter (fun q => q.id != c.id) }) t
  else updPkt p c.id (fun x => { x with freed := c.slots.length, taken := true, dead := true }) t

/-- The packet with number `id` of a port's Cupboard is freed and forgotten. -/
def dropNumbered (p id : Nat) (s : State) : State :=
  match (s.port p).rx.cup.find? (fun c => c.id == id) with
  | some c => dropPkt p c s
  | none => s

/-- A slot that came for a packet already dealt with is freed at once. -/
def buryDead (p id : Nat) (s : State) : State :=
  match (s.port p).rx.cup.find? (fun c => c.id == id && c.dead) with
  | some c => dropPkt p c s
  | none => s

/-- A TC2 packet whole at last, some of it released late, counts as LATE (R252, R254, R267). -/
def countLate (p : Nat) (late whole : Bool) (h : PktHdr) (s : State) : State :=
  if late && whole && decide (h.cls % 4 = 2) then bump (prtSchedCnt p 3) 0 16 s else s

/-- A packet slot released in sequence order enters reassembly: it continues the packet in progress, or it is the
header slot of the next. Its cell counts in the packet's pool (R138, R165). -/
def placeSlot (p : Nat) (late bad : Bool) (when_ : Nat) (x : Slot) (s : State) : State :=
  let rx := (s.port p).rx
  match rx.cup.getLast? with
  | some c =>
    if c.slots.length < c.need ∧ !c.cut then
      buryDead p c.id (countLate p (late || c.late) (decide (c.slots.length + 1 = (if c.slots.length = 1 then 1 + c.hdr.payloadOf x else c.need))) c.hdr
        (updCr p (fun q => { q with rcvd := cadd32 q.rcvd c.pool 1 })
        (updPkt p c.id (fun q => { q with
          slots := q.slots ++ [x], late := q.late || late, times := q.times ++ [when_]
          need := if q.slots.length = 1 then 1 + q.hdr.payloadOf x else q.need
          bad := if bad then q.bad ++ [q.slots.length] else q.bad }) s)))
    else newPkt
  | none => newPkt
where
  /-- A packet begins with its header slot. -/
  newPkt : State :=
    let h := PktHdr.ofSlot x
    let k := rxPool p h s
    countLate p late (decide (h.payload = 0)) h (updPort p (fun q => { q with
      cr := { q.cr with rcvd := cadd32 q.cr.rcvd k 1 }
      rx := { q.rx with nextId := q.rx.nextId + 1, cup := q.rx.cup ++
        [{ id := q.rx.nextId, slots := [x], need := 1 + h.payload, late := late, pool := k, times := [when_]
           bad := if bad then [0] else [] }] } }) s)

/-! ### Held flits (R138, R165, R179) -/

/-- The flits held after `base`, in sequence order: where a flit stands among them. -/
def insHeld (base : Seq) (h : HeldFlit) : List HeldFlit → List HeldFlit
  | [] => [h]
  | g :: gs => if (h.seq - base).toNat < (g.seq - base).toNat then h :: g :: gs else g :: insHeld base h gs

/-- Cells counted so far by pool, the slots still to come of the packet in progress, its pool, and its header until its next slot comes. -/
structure HeldWalk where
  cells : Tab Nat
  left : Nat
  pool : Nat
  hdr : Option PktHdr
  deriving DecidableEq, Repr

/-- One packet slot of a held flit takes a cell: in the pool of the packet it continues, or of the header it is. -/
def walkSlot (p : Nat) (s : State) (w : HeldWalk) (x : Slot) : HeldWalk :=
  if w.left = 0 then
    let h := PktHdr.ofSlot x
    let k := rxPool p h s
    { cells := cset w.cells k (cget w.cells k + 1), left := h.payload, pool := k, hdr := some h }
  else
    let left := match w.hdr with | some h => h.payloadOf x | none => w.left
    { cells := cset w.cells w.pool (cget w.cells w.pool + 1), left := left - 1, pool := w.pool, hdr := none }

/-- The cells that held flits have taken, by pool (R138, R165). What a missing flit carries is not known: its packet slots are
passed over, so that the pool of a held slot can turn out another when the gap is filled (log 92). -/
def heldPools (p : Nat) (s : State) : Tab Nat :=
  let start : HeldWalk := match (s.port p).rx.cup.getLast? with
    | some c =>
      if c.slots.length < c.need ∧ !c.cut then
        { cells := [], left := c.need - c.slots.length, pool := c.pool, hdr := if c.slots.length = 1 then some c.hdr else none }
      else { cells := [], left := 0, pool := 0, hdr := none }
    | none => { cells := [], left := 0, pool := 0, hdr := none }
  ((s.port p).rx.held.foldl (fun w h => (h.slots.drop h.hslot).foldl (walkSlot p s) w) start).cells

/-- Hatstand messages the receive buffer holds: released ones not yet consumed, and those of held flits (R138). -/
def hatsHeld (x : PortRx) : List Slot := x.hat ++ x.held.flatMap (fun h => h.slots.take h.hslot)

/-! ### Ledgers: what is sent (R178, R179) -/

/-- The sum of two counts by pool, modulo 2^32. -/
def caddAll (a b : Tab Nat) : Tab Nat := (List.range 9).foldl (fun t k => cadd32 t k (cget b k)) a

/-- The snapshot of a tick, taken at its cycle 0 (R179), with the cells `held` that held flits have taken; the last two are kept. -/
def takeSnap (tick : Nat) (held : Tab Nat) (c : PortCredit) : PortCredit :=
  { c with snaps := ({ tick := tick, sent := c.sent, rcvd := caddAll c.rcvd held, freed := c.freed } :: c.snaps).take 2 }

/-- The ledger of the present tick is built: it carries the snapshot that overran in the last tick, if one did, or
the snapshot of this tick (R179). -/
def buildLedger (p : Nat) (s : State) : State :=
  updCr p (fun c => { c with
    ledger := some (s.tick, some (c.deferred.getD (c.snaps.headD { tick := s.tick, sent := [], rcvd := [], freed := [] })))
    deferred := none }) s

/-- The ledger task overran: slot 128 carries a ledger marked not valid, and its snapshot goes in the next (R85, R179). -/
def overrunLedger (p : Nat) (s : State) : State :=
  updCr p (fun c => { c with
    ledger := some (s.tick, none)
    deferred := some (c.snaps.headD { tick := s.tick, sent := [], rcvd := [], freed := [] }) }) s

/-! ### Ledgers: what is received (R172, R175, R180) -/

/-- The correction of one pool: the cells restored and the new OUT (R180). -/
def correctPool (c : PortCredit) (latch : Tab Nat) (freed k : Nat) : Int × Nat :=
  let since := toInt 32 (ofInt 32 ((cget c.ret k : Int) - (cget latch k : Int)))
  let outNew := toInt 32 (ofInt 32 ((cget c.sent k : Int) - ((freed : Int) + since)))
  ((cget c.out k : Int) - max outNew 0, (max outNew 0).toNat)

/-- The once-per-window correction (R180). -/
def correct (p : Nat) (l : Ledger) (window : Nat) (latch : Tab Nat) (s : State) : State :=
  let c := (s.port p).cr
  let ks := (List.range 9).filter (fun k => (c.peer.getD {}).inUse k)
  let rs := ks.map (fun k => (k, correctPool c latch ((l.counts.getD k (0, 0, 0)).2.2) k))
  let s1 := updCr p (fun x => { x with
    out := rs.foldl (fun o r => cset o r.1 r.2.2) x.out
    corrected := some window }) s
  let snap := c.snaps.find? (fun q => q.tick % 65536 == l.rtick)
  let s2 := match snap with
    | some q => setF (prtShared p) 16 16
        ((ks.map (fun k => (cget q.sent k + 2 ^ 32 - (l.counts.getD k (0, 0, 0)).2.1) % 2 ^ 32)).foldl (· + ·) 0) s1
    | none => s1
  if rs.any (fun r => decide (r.2.1 ≠ 0)) then
    setF (prtCcorr p) 16 16 (ofInt 16 (rs.foldl (fun a r => a + r.2.1) 0)) (bump (prtCcorr p) 0 16 (raise (evPrt p) 12 s2))
  else s2

/-- What a valid ledger does to the credit state: the peer's configuration where none is held, the Hatstand counts,
and the correction at the first ledger of the window whose latch is held (R172, R175, R180). -/
def ledgerCredit (p : Nat) (l : Ledger) (s : State) : State :=
  let s1 := updCr p (fun x => { x with
    peer := some (x.peer.getD l.cfg), peerFreeCtl := l.hfreeCtl, peerFreePlv := l.hfreePlv }) s
  let c := (s1.port p).cr
  match c.retl.find? (fun r => r.1 % 65536 == l.rtick) with
  | some r => if c.corrected ≠ some (r.1 / 64) then correct p l (r.1 / 64) r.2 s1 else s1
  | none => s1

/-- The latch of the peer's tick: taken at the receive reference of its slot 0, before the marker is acted on (R179). -/
def latchReturns (p peerTick : Nat) (s : State) : State :=
  updCr p (fun c => { c with retl := ((peerTick, c.ret) :: c.retl).take 2 }) s

end Sys2Proof.Machine
end

