-- ==== Sys2Proof/Machine/FlitRx.lean ====
section
/-!
DEFINITION. The receive side of the flit link: the checks of R134, sequence handling, acknowledgements received and
due, darkness (R134 to R142, R146 to R155).
-/
namespace Sys2Proof.Machine
open Host

/-! ### What is on the wire (R134) -/

/-- A flit is received in a slot time: the port is training or up, not in P2 or P3, and not every active lane reports
loss of light (R134). -/
def receives (p : Nat) (s : State) : Bool :=
  let x := s.port p
  s.acts && !s.bnd.cellsDark && !x.stopped && decide (x.ln.lstate ≠ .down) && (decide (x.pw.state = .p0 ∨ x.pw.state = .p1) || wakeVerify p s) &&
    (stripeLanes p s).any (fun i => !(s.lane (cellOf p i)).los)

/-- The lane cell that carried byte `b` of the flit in slot `k` (R97). -/
def laneOfByte (p k b : Nat) (s : State) : Option Nat :=
  let ls := stripeLanes p s
  (ls[wordPos ls.length k (b / 4)]?).map (cellOf p)

/-- Each corrected byte counts on the lane that carried it (R108). -/
def countFixed (p k : Nat) (fixed : List Nat) (s : State) : State :=
  let s1 := if fixed.isEmpty then s else bumpWrap (prtCntFec p) 1 s
  fixed.foldl (fun t b =>
    match laneOfByte p k b t with
    | some l => bump (lnErrcnt l) 0 32 (updLane l (fun x => { x with window := x.window + 1, verify := x.verify + 1 }) t)
    | none => t) s1

/-- Symbols in error between two bytes: bit pairs that differ (R92). -/
def symbolErrors (a b : Nat) : Nat :=
  let x := a ^^^ b
  bit (x % 4 != 0) + bit (x / 4 % 4 != 0) + bit (x / 16 % 4 != 0) + bit (x / 64 % 4 != 0)

/-- Pilot symbols in error in a marker, counted before FEC (R94, R108). -/
def countPilots (p : Nat) (raw : List Byte) (s : State) : State :=
  (List.range 224).foldl (fun t i =>
    let n := symbolErrors (raw.getD (24 + i) 0).toNat ((slotBytes pilotSlot).getD (i % 16) 0)
    match laneOfByte p 0 (24 + i) t with
    | some l => if n = 0 then t else bumpN (lnPiloterr l) 0 24 n t
    | none => t) s

/-- Pilot symbols in error in the marker's burst on the spare: `raw` holds the bytes its receiver took, word by word those of the
lowest-numbered active lane (R95, R108). -/
def countSpare (p : Nat) (raw : List Byte) (s : State) : State :=
  match spareOf p s with
  | none => s
  | some i =>
    let w := (stripeLanes p s).length
    let n := (raw.zipIdx.map (fun e =>
      let n := e.2 / 4 * w
      if pilotWord n then symbolErrors e.1.toNat ((slotBytes pilotSlot).getD ((4 * n + e.2 % 4 - 24) % 16) 0) else 0)).foldl (· + ·) 0
    if n = 0 then s else bumpN (lnPiloterr (cellOf p i)) 0 24 n s

/-- Step 3 of R134: the header against R130 and R131. `k` is the slot the flit stood in, `training` whether the
receiving port is. -/
def headerOk (k : Nat) (training : Bool) (h : FlitHdr) : Bool :=
  let plain := decide (h.seq = 0) && !h.rpl && !h.sel
  let kindOk :=
    if h.kind = 0 then decide (k ≠ 0 ∧ k ≠ 128) && plain && decide (h.nslot = 0 ∧ h.hslot = 0)
    else if h.kind = 1 then decide (k ≠ 0 ∧ k ≠ 128) && decide (1 ≤ h.nslot ∧ h.hslot ≤ h.nslot) && !(h.rpl && h.sel)
    else if h.kind = 2 then decide (k = 0) && plain && decide (h.nslot = 1 ∧ h.hslot = 0)
    else if h.kind = 3 then decide (k = 128) && plain && decide (h.nslot = 15 ∧ h.hslot = 0)
    else if h.kind = 4 then training && plain && decide (h.nslot = 1 ∧ h.hslot = 0)
    else false
  kindOk && decide (h.low = 0) && (h.ackv || !h.nakv) &&
    (decide (h.cred = 0) || decide (h.cpool ≤ 8) || decide (h.cpool = 15))

/-! ### Acknowledgements due (R140, R141) -/

/-- ACK_TIMER and ACK_COAL in force (R159). -/
def ackTimer (p : Nat) (s : State) : Nat := effF s (prtLinkCtl p) 0 8
def ackCoal (p : Nat) (s : State) : Nat := effF s (prtLinkCtl p) 8 6

/-- A NAK becomes due for a discarded flit (R141): in a slot other than 0 and 128, UP and in P0, and while the peer's
marker of this tick does not say P1 or deeper. -/
def nakForDiscard (p k : Nat) (s : State) : State :=
  let x := s.port p
  if k ≠ 0 ∧ k ≠ 128 ∧ x.ln.lstate = .up ∧ x.pw.state = .p0 ∧ !(x.pw.peerTick == some s.tick && x.pw.peerCur != 0) then
    updRx p (fun r => { r with nakDue := true }) s
  else s

/-- Flits accepted: the count and the timer of R140 run, and NEXT_RX having moved, a due NAK lapses (R141). -/
def noteAccepted (p n : Nat) (s : State) : State :=
  let coal := ackCoal p s
  bumpWrap (prtCntRx p) n (updRx p (fun r => { r with
    accepted := r.accepted + n
    ackTimer := some (r.ackTimer.getD s.cts)
    ackDue := r.ackDue || decide (coal ≤ r.accepted + n)
    nakDue := false }) s)

/-- A duplicate makes an acknowledgement due, unless one naming NEXT_RX - 1, or a NAK naming NEXT_RX, was sent fewer
than ACK_TIMER cc before (R140). -/
def noteDuplicate (p : Nat) (s : State) : State :=
  let r := (s.port p).rx
  let recent := match r.lastSent with
    | some (nak, a, c) => decide (s.cts < c + ackTimer p s) && decide (a = if nak then r.nextRx else r.nextRx - 1)
    | none => false
  let t := bumpWrap (prtCntDup p) 1 s
  if recent then t else updRx p (fun q => { q with ackDue := true }) t

/-! ### Sequence handling (R137, R138) -/

/-- A released message whose MTYPE is not valid or reserved is discarded, raises HAT_BAD and is freed; the others wait
for their consumer (R177). -/
def releaseHat (p : Nat) (x : Slot) (s : State) : State :=
  if (LaneMsg.ofSlot x).isSome || isFragment x then updRx p (fun r => { r with hat := r.hat ++ [x] }) s
  else raise (evPrt p) 15 (updCr p (fun c =>
    if isControl x then { c with hfreeCtl := (c.hfreeCtl + 1) % 65536 } else { c with hfreePlv := (c.hfreePlv + 1) % 65536 }) s)

/-- The start of the last slot `k`, in the sender's tick numbering (R252). -/
def slotStart (k : Nat) (s : State) : Nat :=
  let b := s.tick * 1024 + 4 * k
  if b ≤ s.cts then b else b - 1024

/-- An accepted flit's Hatstand messages and packet slots are released, in slot order (R138, R177). -/
def releaseFlit (p k hslot : Nat) (slots : List Slot) (late : Bool) (s : State) : State :=
  let s1 := (slots.take hslot).foldl (fun t x => releaseHat p x t) s
  (slots.drop hslot).foldl (fun t x => placeSlot p late false (slotStart k s) x t) s1

/-- Held flits that follow in order are accepted in turn, marked late (R137, R138); `n` bounds them, and the count of
flits accepted comes back. -/
def acceptHeld : Nat → Nat → State → State
  | 0, _, s => s
  | n + 1, p, s =>
    let r := (s.port p).rx
    match r.held.find? (fun h => h.seq == r.nextRx) with
    | none => s
    | some h =>
      let s1 := updRx p (fun q => { q with nextRx := q.nextRx + 1, held := q.held.filter (fun g => g.seq != h.seq) }) s
      acceptHeld n p (noteAccepted p 1 (releaseFlit p 0 h.hslot h.slots true s1))

/-- The outcomes of R137 for a data flit. -/
inductive SeqCase where
  | accept | hold | duplicate | beyond
  deriving DecidableEq, Repr

/-- Which row of R137 a sequence number falls in. -/
def seqCase (r : PortRx) (seq : Seq) : SeqCase :=
  let d := (seq - r.nextRx).toNat
  if d = 0 then .accept
  else if d ≤ 255 then (if r.held.any (fun h => h.seq == seq) then .duplicate else .hold)
  else if d ≤ 32767 then .beyond
  else .duplicate

/-- A gap stands below a held flit: a NAK for the flit it misses is due (R150). -/
def nakNextGap (p : Nat) (s : State) : State :=
  if (s.port p).rx.held.isEmpty then s else updRx p (fun r => { r with nakDue := true }) s

/-- A data flit that passed steps 1 to 3 (R137, R138). -/
def handleData (p k : Nat) (f : Flit) (s : State) : State :=
  let r := (s.port p).rx
  let seq : Seq := BitVec.ofNat 16 f.hdr.seq
  let slots := f.slots.take f.hdr.nslot
  match seqCase r seq with
  | .accept =>
    let s1 := updRx p (fun q => { q with nextRx := q.nextRx + 1 }) s
    nakNextGap p (acceptHeld 255 p (noteAccepted p 1 (releaseFlit p k f.hdr.hslot slots (f.hdr.rpl || f.hdr.sel) s1)))
  | .hold =>
    updRx p (fun q => { q with held := insHeld q.nextRx { seq := seq, hslot := f.hdr.hslot, slots := slots } q.held, nakDue := true }) s
  | .duplicate => noteDuplicate p s
  | .beyond => bump (prtCntProto p) 16 16 (updRx p (fun q => { q with nakDue := true }) s)

/-! ### Acknowledgements received (R142, R147, R150) -/

/-- The turn-around guard G, in cc (R142). -/
def guardG (p : Nat) (s : State) : Nat := 136 + (2 * getF s (tbLinkdly p) 0 16 + 15) / 16

/-- A go-back-N replay from flit `n` is decided (R147), which slots from 8 cc on act upon (R143); `counts` says whether it counts
under R148. The third consecutive one moves the direction to selective mode at the next tick boundary (R149). -/
def startReplay (p : Nat) (n : Seq) (counts : Bool) (s : State) : State :=
  let tx := (s.port p).tx
  let c := if counts then tx.consecutive + 1 else tx.consecutive
  let sel := decide (3 ≤ c) && counts && decide (selCtl p s ≠ 2) && !tx.selective
  raise (evPrt p) 4 (bump (prtCntReplay p) 0 16 (updTx p (fun x => { x with
    starts := x.starts ++ [(s.cts, n)], timer := none, consecutive := c
    modeNext := if sel then some true else x.modeNext }) s))

/-- A NAK starts a replay. One that the timer started in the same cycle is the same replay, from the NAK's flit (R147). `old` is
when the timer had started that the NAK stops. -/
def nakReplay (p : Nat) (n : Seq) (old : Option Nat) (s : State) : State :=
  let tx := (s.port p).tx
  let t := if tx.starts.any (fun e => e.1 == s.cts) then
      updTx p (fun x => { x with starts := x.starts.filter (fun e => e.1 != s.cts) ++ [(s.cts, n)], timer := none }) s
    else startReplay p n true s
  updTx p (fun x => { x with stopped := old.map (fun c => (c, s.cts)) }) t

/-- One selective copy of a flit is queued, to leave from 8 cc on (R143, R150). -/
def queueSel (p : Nat) (n : Seq) (s : State) : State :=
  updTx p (fun x => { x with selQueue := if x.selQueue.any (fun e => e.1 == n) then x.selQueue else x.selQueue ++ [(n, s.cts + 8)] }) s

/-- A replay is in progress: it runs, or is decided (R147). -/
def PortTx.replaying (x : PortTx) : Bool := x.replay.isSome || !x.starts.isEmpty

/-! ### The Sideboard (R136, R143, R144) -/

/-- Sideboard entries that a slot at cycle `now` finds in use: an entry released less than 8 cc before still counts, and with it its
flit as unacknowledged (R143). -/
def sbUsed (t : PortTx) (now : Nat) : Nat :=
  (t.sb.filter (fun e => match e.released with | none => true | some c => decide (now < c + 8))).length

/-- The limit on UNACKED in the mode (R136). -/
def unackedLimit (t : PortTx) : Nat := if t.selective then 256 else 512

/-- A new data flit may be sent: UNACKED below the limit, and room in the Sideboard, whose last 16 entries take only flits of
Hatstand messages alone (R144). -/
def sbRoom (t : PortTx) (now : Nat) (hatsOnly : Bool) : Bool :=
  decide (sbUsed t now < unackedLimit t) && decide (sbUsed t now < if hatsOnly then 512 else 496)

/-- Some slot of packet `n` has been started and stands in no flit sent. -/
def unsent (y : Port) (n : Nat) : Bool :=
  y.tx.crossed.any (fun c => c.pid == n) || y.tx.asm.pks.any (fun c => c.pid == n) ||
  (match y.tx.cur with | some c => c.pid == n | none => false) ||
  y.sc.flows.any (fun f => f.pid == n) || y.sc.displaced.any (fun d => d.2.any (fun c => c.pid == n))

/-- Flits up to and including `a` are released: acknowledgement progress (R142, R146, R152). -/
def releaseAcked (p : Nat) (a : Seq) (s : State) : State :=
  let tx := (s.port p).tx
  if tx.oldest = a + 1 then s
  else
    let gone (e : SbEntry) : Bool := decide ((e.seq - tx.oldest).toNat ≤ (a - tx.oldest).toNat)
    updPort p (fun y =>
      let x := y.tx
      let sb := x.sb.map (fun e => if e.released.isNone && gone e then { e with released := some s.cts } else e)
      let live := sb.filter (fun e => e.released.isNone)
      { y with tx := { x with
        sb := sb, oldest := a + 1, consecutive := 0, retries := 0, exhausted := none
        flight := x.flight.filter (fun f => live.any (fun e => e.pids.contains f.1) || unsent y f.1)
        blocked := x.blocked && !sbRoom { x with sb := sb } (s.cts + 8) false
        timer := if x.replaying then none else if live.isEmpty then none else some s.cts } }) s

/-- A NAK passes the G test: the flit it names was sent, and its last transmission was at or before t - G (R147). -/
def passesG (p : Nat) (n : Seq) (s : State) : Bool :=
  let tx := (s.port p).tx
  match tx.sb.find? (fun e => e.seq == n && e.released.isNone) with
  | some e => decide (e.sent + guardG p s ≤ s.cts)
  | none => false

/-- The ACKV, NAKV and ACK fields of a flit that passed the checks (R139, R142, R147, R150). -/
def ackFields (p : Nat) (h : FlitHdr) (s : State) : State :=
  if !h.ackv then s else
  let tx := (s.port p).tx
  let ack : Seq := BitVec.ofNat 16 h.ack
  let a := if h.nakv then ack - 1 else ack
  if (a - tx.oldest + 1).toNat ≤ tx.unacked then
    let s1 := releaseAcked p a s
    if h.nakv && passesG p ack s1 then
      let s2 := bump (prtCntNak p) 16 16 (updTx p (fun x => { x with tickClean := false, cleanTicks := 0 }) s1)
      if tx.selective then queueSel p ack s2 else nakReplay p ack tx.timer s2
    else s1
  else if (a - tx.oldest + 1).toNat < 32768 then raise (evPrt p) 3 s
  else s

/-! ### The timers of the link (R140, R146, R149, R151, R155) -/

/-- None of the port's received flits has passed the checks in the last 1,024 cc (R155); a port in P2 or P3 is not called dark
(R258). -/
def isDark (p : Nat) (s : State) : Bool :=
  let r := (s.port p).rx
  decide ((s.port p).pw.state = .p0 ∨ (s.port p).pw.state = .p1) &&
  (r.dark || match r.lastGood with | some c => decide (c + 1024 ≤ s.cts) | none => true)

/-- ACK_TIMER_EXPIRY (R140). -/
def execAckTimerExpiry (p : PortId) (s : State) : Outcome State Fault Refusal :=
  match (s.port p).rx.ackTimer with
  | some c =>
    if s.acts && !(s.port p).stopped && decide (c + ackTimer p s ≤ s.cts) then .next (updRx p (fun r => { r with ackDue := true, ackTimer := none }) s)
    else .next s
  | none => .next s

/-- DARK_ENTRY (R155). -/
def execDarkEntry (p : PortId) (s : State) : Outcome State Fault Refusal :=
  if s.acts && isDark p s then .next (updRx p (fun r => { r with dark := true }) s) else .next s

/-- An expiry of the replay timer: raised and counted (R146, R160). -/
def expiry (p : Nat) (s : State) : State := raise (evPrt p) 5 (bump (prtCntReplay p) 16 16 s)

/-- REPLAY_TIMEOUT (R146, R155). Where a NAK of the same cycle has stopped the timer, the expiry is still raised and counted; the
replay is the NAK's (R147). -/
def execReplayTimeout (p : PortId) (s : State) : Outcome State Fault Refusal :=
  let tx := (s.port p).tx
  let due (c : Nat) : Bool := s.acts && !(s.port p).stopped && decide (0 < tx.unacked) && decide (c + effF s (prtLinkCtl p) 14 12 ≤ s.cts)
  match tx.timer, tx.stopped with
  | some c, _ =>
    if due c then
      if isDark p s then .next (updTx p (fun x => { x with timer := some s.cts, expiredDark := true }) (expiry p s))
      else if tx.selective then .next (queueSel p tx.oldest (updTx p (fun x => { x with timer := none }) (expiry p s)))
      else .next (startReplay p tx.oldest true (expiry p s))
    else .next s
  | none, some (c, t) =>
    if due c && decide (t = s.cts) then .next (updTx p (fun x => { x with stopped := none }) (expiry p s)) else .next s
  | none, none => .next s

/-- The copy ratio of the window that ended: 1,024 x copies / data flits sent, floored (R160). -/
def copyRatio (t : PortTx) : Nat :=
  if t.winFirst + t.winCopies = 0 then 0 else 1024 * t.winCopies / (t.winFirst + t.winCopies)

/-- SEL_ENTER (R149): at the end of an aligned window of 64 ticks whose copies exceed RATIO_THR / 1,024 of the data
flits sent in it, the direction enters selective mode at the next tick boundary. -/
def execSelEnter (p : PortId) (s : State) : Outcome State Fault Refusal :=
  let tx := (s.port p).tx
  if s.acts && decide ((s.port p).ln.lstate = .up) && !tx.selective && decide (selCtl p s ≠ 2) &&
      decide (effF s (prtLinkCtl2 p) 0 10 * (tx.winFirst + tx.winCopies) < 1024 * tx.winCopies) &&
      decide (s.tick % 64 = 63) then
    .next (updTx p (fun x => { x with modeNext := some true }) (arrive 1023 s))
  else .next s

/-- SEL_EXIT (R151): CLEAN_TICKS whole clean ticks; the direction returns to go-back-N at the next tick boundary. -/
def execSelExit (p : PortId) (s : State) : Outcome State Fault Refusal :=
  let tx := (s.port p).tx
  if s.acts && tx.selective && decide (selCtl p s ≠ 1) && decide (effF s (prtLinkCtl2 p) 10 16 ≤ tx.cleanTicks) then
    .next (updTx p (fun x => { x with modeNext := some false }) s)
  else .next s

/-- A flit passed steps 1 to 3: the direction is not dark, and a timer that expired in the darkness starts its replay
or copy now, which counts under neither R148 nor R152 (R148, R155). A lane without light damages every flit beyond repair, so that
light stands on every lane that carried it (R134). -/
def noteGood (p : Nat) (s : State) : State :=
  let tx := (s.port p).tx
  let s0 := (stripeLanes p s).foldl (fun t i => updLane (cellOf p i) (fun x => { x with los := false }) t) s
  let s1 := updRx p (fun r => { r with lastGood := some s.cts, dark := false, tickGood := true, empty := 0 }) s0
  if tx.expiredDark then
    let s2 := updTx p (fun x => { x with expiredDark := false }) s1
    if tx.unacked = 0 then s2
    else if tx.selective then queueSel p tx.oldest s2 else startReplay p tx.oldest false s2
  else s1

end Sys2Proof.Machine
end

