-- ==== Sys2Proof/Machine/FlitTx.lean ====
section
/-!
DEFINITION. The send side of the flit link: starting packets against credit, assembling flits, the Sideboard,
copies, and the header each flit is given (R130, R135, R140 to R152, R164 to R170, R175, R176).
-/
namespace Sys2Proof.Machine
open Host

/-! ### Hatstand credit (R175) -/

/-- Control messages, and fragments, that may be placed now. -/
def ctlRoom (c : PortCredit) : Nat := 48 - (c.hsentCtl + 65536 - c.peerFreeCtl) % 65536
def plvRoom (c : PortCredit) : Nat := 16 - (c.hsentPlv + 65536 - c.peerFreePlv) % 65536

/-- Messages placed in flits that have not left: the flit under assembly, and displaced ones. -/
def placedHats (x : Port) : List Slot := x.tx.asm.hats ++ x.sc.displaced.flatMap (·.1)

/-- Control messages before fragments, each kind in its order (R20, R176). -/
def orderHats (hs : List Slot) : List Slot := hs.filter isControl ++ hs.filter (fun x => !isControl x)

/-- The messages waiting that may be placed, control before fragments (R176), beside those placed already (R175). -/
def readyHats (x : Port) : List Slot :=
  let c := ((placedHats x).filter isControl).length
  let f := (placedHats x).length - c
  x.tx.hatCtl.take (ctlRoom x.cr - c) ++ x.tx.hatPlv.take (plvRoom x.cr - f)

/-- The messages placed leave the queues. -/
def takeHats (hs : List Slot) (x : PortTx) : PortTx :=
  let c := (hs.filter isControl).length
  { x with hatCtl := x.hatCtl.drop c, hatPlv := x.hatPlv.drop (hs.length - c) }

/-- The messages of a flit that is not sealed, or, with `all`, of any, wait again, ahead of the others, for the flit of this slot
to take (R144, R176). -/
def unplace (all : Bool) (x : PortTx) : PortTx :=
  if x.asm.sealed && !all then x
  else { x with hatCtl := x.asm.hats.filter isControl ++ x.hatCtl, hatPlv := x.asm.hats.filter (fun h => !isControl h) ++ x.hatPlv
                asm := { x.asm with hats := [] } }

/-- Messages leave in a flit for the first time (R175). -/
def debitHats (hs : List Slot) (c : PortCredit) : PortCredit :=
  let n := (hs.filter isControl).length
  { c with hsentCtl := (c.hsentCtl + n) % 65536, hsentPlv := (c.hsentPlv + (hs.length - n)) % 65536 }

/-! ### Assembly (R169, R170) -/

/-- Fills the flit under assembly: Hatstand messages first while there is room, control before fragments, then packet slots that have crossed,
up to fifteen; a full flit is sealed (R169, R176). -/
def fill (p : Nat) (s : State) : State :=
  let x := s.port p
  if x.tx.asm.sealed then s
  else
    let room := 15 - x.tx.asm.hats.length - x.tx.asm.pks.length
    let hs := if x.tx.alone then [] else (readyHats x).take room
    let ps := x.tx.crossed.take (room - hs.length)
    let asm : Assembly := { x.tx.asm with
      hats := orderHats (x.tx.asm.hats ++ hs), pks := x.tx.asm.pks ++ ps
      first := if x.tx.asm.pks.isEmpty then s.cts else x.tx.asm.first }
    let full := decide (15 ≤ asm.hats.length + asm.pks.length)
    updTx p (fun t => { (takeHats hs t) with
      crossed := t.crossed.drop ps.length
      asm := { asm with sealed := full && !asm.pks.isEmpty } }) s

/-- The next `n` slots of the packet in progress cross the crossbar (R491). -/
def cross (p n : Nat) (s : State) : State :=
  match (s.port p).tx.cur with
  | none => s
  | some c =>
    let go := c.rest.take n
    let left := c.rest.drop n
    fill p (updTx p (fun t => { t with
      crossed := t.crossed ++ go, cur := if left.isEmpty then none else some { c with rest := left } }) s)

/-! ### Starting packets (R164, R168, R172) -/

def Packet.hdr (k : Packet) : PktHdr := PktHdr.ofSlot (k.slots.headD 0)

/-- The order in which pools start packets in slots of rank 3 (R168): relay reserve, TC0, TC2, TC1, TC3; on a
privileged side the relay reserve and then the virtual channels in turn, from the one after the channel served last. -/
def poolOrder (c : PortCredit) (lastVc : Nat) : List Nat :=
  if (c.peer.getD {}).priv then
    let n := (c.peer.getD {}).channels
    8 :: (List.range n).map (fun i => (lastVc + 1 + i) % max n 1)
  else [8, 0, 2, 1, 3]

/-- The next packet of a pool among those staged. -/
def nextOfPool (p k : Nat) (s : State) : Option Packet :=
  (s.port p).tx.staged.find? (fun q => decide (txPool p q.hdr s = k) && q.flow.isNone)

/-- A packet of pool `k` may start now: credit for all its slots, and, while another pool's packet has waited 256 flits,
within the pool's own reservation (R164, R168). -/
def mayStart (p k : Nat) (q : Packet) (s : State) : Bool :=
  let x := s.port p
  x.cr.canStart k q.slots.length &&
    (match x.tx.barring with
     | some b => b == k || x.cr.fits k q.slots.length
     | none => true)

/-- The packet that starts next, with its pool (R168): the first pool in order whose next packet can be started. -/
def nextStart (p : Nat) (s : State) : Option (Nat × Packet) :=
  (poolOrder (s.port p).cr (s.port p).tx.lastVc).findSome? (fun k =>
    match nextOfPool p k s with
    | some q => if mayStart p k q s then some (k, q) else none
    | none => none)

/-- The slots of a packet numbered `n` and charged to pool `k`. -/
def Packet.txSlots (q : Packet) (n k : Nat) : List TxSlot :=
  q.slots.zipIdx.map (fun e => { bits := e.1, pid := n, first := e.2 == 0, last := e.2 + 1 == q.slots.length, pool := k, origin := q.origin })

/-- The pool that bars the others once pool `k` has started a packet: where `k` barred them, the next in order that has waited 256
flits too (R168). -/
def nextBar (k : Nat) (x : Port) : Option Nat :=
  if x.tx.barring = some k then (poolOrder x.cr x.tx.lastVc).find? (fun j => j != k && decide (256 ≤ cget x.tx.waits j)) else x.tx.barring

/-- A packet starts: its credit is reserved, it has a number, and its slots wait to cross (R164). -/
def startPacket (p k : Nat) (q : Packet) (s : State) : State :=
  updPort p (fun x => { x with
    tx := { x.tx with
      staged := x.tx.staged.erase q, cur := some { pid := x.tx.nextPid, pool := k, rest := q.txSlots x.tx.nextPid k }
      flight := x.tx.flight ++ [(x.tx.nextPid, q)], nextPid := x.tx.nextPid + 1
      waits := tset zero0 x.tx.waits k 0, barring := nextBar k x
      lastVc := if k = 8 then x.tx.lastVc else k }
    cr := { x.cr with pend := cset x.cr.pend k (cget x.cr.pend k + q.slots.length) } }) s

/-- A port takes packets: up, not lost, and past the first valid ledger after a cold training (R172, R205). -/
def takesPackets (p : Nat) (s : State) : Bool :=
  let x := s.port p
  s.acts && !x.stopped && decide (x.ln.lstate = .up) && !x.rt.lost && x.cr.peer.isSome

/-- FLUSH_TIMER (R169): FLUSH_CC cc after its first packet slot the flit under assembly is sealed. -/
def execFlushTimer (p : PortId) (s : State) : Outcome State Fault Refusal :=
  let a := (s.port p).tx.asm
  if s.acts && !(s.port p).stopped && !a.pks.isEmpty && decide (a.first + effF s (prtPoolcfg p) 8 8 ≤ s.cts) then
    .next (updTx p (fun t => { t with asm := { t.asm with sealed := true } }) s)
  else .next s

/-! ### Blocked flits (R144) -/

/-- New data flits are blocked: SB_FULL is raised once while they are (R144). -/
def noteBlock (p : Nat) (blocked : Bool) (s : State) : State :=
  let t := s.port p
  let s1 := if blocked && !t.tx.blocked then raise (evPrt p) 8 s else s
  updTx p (fun x => { x with blocked := blocked }) s1

/-! ### The control fields of a header (R135, R140, R141, R167) -/

/-- A due NAK may leave now: G cc or more after one with the same ACK (R141). -/
def nakMayGo (p : Nat) (s : State) : Bool :=
  let r := (s.port p).rx
  r.nakDue && (match r.lastNak with
    | some (a, c) => decide (a ≠ r.nextRx) || decide (c + guardG p s ≤ s.cts)
    | none => true)

/-- The header of a flit that begins now, with the acknowledgement or NAK and the credit return that are due. -/
def freshHdr (p : Nat) (h : FlitHdr) (s : State) : FlitHdr :=
  let x := s.port p
  let nak := nakMayGo p s
  let ackv := nak || x.rx.ackDue
  let (k, n) := nextReturn x.cr
  { h with ackv := ackv, nakv := nak
           ack := if nak then x.rx.nextRx.toNat else if ackv then (x.rx.nextRx - 1).toNat else 0
           cpool := if n = 0 then 0 else k, cred := n }

/-- The receive side after a header has left: the acknowledgement or NAK sent is noted, the count cleared and the timer
stopped, and the return is counted (R140, R141, R167). -/
def sentHdr (p : Nat) (h : FlitHdr) (s : State) : State :=
  let s1 := updPort p (fun x => { x with
    cr := takeReturn h.cpool h.cred x.cr
    rx := if h.ackv then
        { x.rx with
          ackDue := false, nakDue := x.rx.nakDue && !h.nakv, accepted := 0, ackTimer := none
          lastAck := BitVec.ofNat 16 h.ack, lastSent := some (h.nakv, BitVec.ofNat 16 h.ack, s.cts)
          lastNak := if h.nakv then some (BitVec.ofNat 16 h.ack, s.cts) else x.rx.lastNak }
      else x.rx }) s
  if h.nakv then bump (prtCntNak p) 0 16 s1 else s1

/-- A flit leaves on the wire, its control fields built afresh. -/
def emit (p : Nat) (h : FlitHdr) (slots : List Slot) (s : State) : State :=
  let f : Flit := { hdr := freshHdr p h s, slots := slots }
  sentHdr p f.hdr (updTx p (fun x => { x with wire := some f.wire }) s)

/-! ### Data flits and copies (R136, R145, R147, R150, R152, R165) -/

/-- The packet that packet slots leave unfinished on the wire (R169). -/
def cutAfter (pks : List TxSlot) (old : Option Nat) : Option Nat :=
  match pks.getLast? with
  | none => old
  | some k => if k.last then none else some k.pid

/-- Packet slots may be sent next: they continue the packet that those sent last left unfinished, or begin with a header slot where
none is unfinished (R169). -/
def mayFollow (t : PortTx) (pks : List TxSlot) : Bool :=
  match pks.head?, t.cutPid with
  | none, _ => true
  | some k, none => k.first
  | some k, some n => k.pid == n

/-- A new data flit: it takes NEXT_TX, its packet slots' credit is debited, its messages count as sent, and the
Sideboard keeps it (R136, R144, R165, R175). -/
def sendData (p : Nat) (hats : List Slot) (pks : List TxSlot) (s : State) : State :=
  let tx := (s.port p).tx
  let slots := hats ++ pks.map (·.bits)
  let s1 := emit p { kind := 1, seq := tx.nextTx.toNat, nslot := slots.length, hslot := hats.length } slots s
  bumpWrap (prtCntTx p) 1 (updPort p (fun x => { x with
    tx := { x.tx with
      nextTx := x.tx.nextTx + 1, winFirst := x.tx.winFirst + 1, justSent := pks, cutPid := cutAfter pks x.tx.cutPid
      timer := if x.tx.replaying then none else some (x.tx.timer.getD s.cts)
      sb := (x.tx.sb.filter (fun e => match e.released with | some c => decide (s.cts < c + 8) | none => true)) ++
        [{ seq := tx.nextTx, hslot := hats.length, slots := slots, sent := s.cts
           pids := (pks.map (·.pid)).eraseDups }] }
    cr := debitHats hats (pks.foldl (fun c k => { c with
      pend := cset c.pend k.pool (cget c.pend k.pool - 1), out := cset c.out k.pool (cget c.out k.pool + 1)
      sent := cadd32 c.sent k.pool 1 }) x.cr) }) s1)

/-- RETRY_MAX is reached for OLDEST (R152): a link reset at the first exhaustion of the flit; at the second the port
engine is handed upward, which the caller does. -/
def exhaust (p : Nat) (s : State) : State :=
  let tx := (s.port p).tx
  let second := decide (tx.exhausted = some tx.oldest)
  let s1 := raise (evPrt p) 9 (bump (prtCntSel p) 16 8 s)
  let s2 := handOver (unitPort p) (unitPort p) .port 0x0203 (if second then .none else .linkReset) tx.oldest.toNat s1
  if second then updTx p (fun x => { x with handUp := true }) s2 else resetDue p 4 (updTx p (fun x => { x with exhausted := some x.oldest }) s2)

/-- A copy of the Sideboard entry `e`, with RPL or SEL (R145). Copies of OLDEST count toward RETRY_MAX (R152). -/
def sendCopy (p : Nat) (e : SbEntry) (sel : Bool) (s : State) : State :=
  let s1 := emit p { kind := 1, rpl := !sel, sel := sel, seq := e.seq.toNat, nslot := e.slots.length, hslot := e.hslot } e.slots s
  let s2 := bumpWrap (prtCntCopy p) 1 (updTx p (fun x => { x with
    winCopies := x.winCopies + 1, tickClean := false, cleanTicks := 0
    timer := if sel then (if x.unacked = 0 then none else some s.cts) else x.timer
    sb := x.sb.map (fun q => if q.seq = e.seq then { q with sent := s.cts } else q) }) s1)
  if e.seq = (s.port p).tx.oldest ∧ e.released = none then
    let n := (s.port p).tx.retries + 1
    let s3 := updTx p (fun x => { x with retries := min n 63 }) s2
    if n = effF s (prtLinkCtl2 p) 26 6 then exhaust p s3 else s3
  else s2

/-- The Sideboard entry a copy is made of: one not released, or released less than 8 cc before the slot (R143, R158). -/
def copyOf (t : PortTx) (q : Seq) (now : Nat) : Option SbEntry :=
  t.sb.find? (fun e => e.seq == q && (match e.released with | none => true | some c => decide (now < c + 8)))

/-- The first flit from `q` to `last` that is still to be copied; `n` bounds the search (R147). -/
def nextCopy : Nat → PortTx → Seq → Seq → Nat → Option SbEntry
  | 0, _, _, _, _ => none
  | n + 1, t, q, last, now =>
    match copyOf t q now with
    | some e => some e
    | none => if q = last then none else nextCopy n t (q + 1) last now

/-- The replay ends: the timer restarts while flits are unacknowledged (R146, R147). -/
def endReplay (p : Nat) (s : State) : State :=
  updTx p (fun x => { x with replay := none, timer := if x.unacked = 0 || !x.starts.isEmpty then none else some s.cts }) s

/-- A replay decided 8 cc ago or more begins: it ends one that runs, and goes to the flit sent last (R143, R147). -/
def actOnStarts (p : Nat) (s : State) : State :=
  updTx p (fun x =>
    match (x.starts.filter (fun e => decide (e.1 + 8 ≤ s.cts))).getLast? with
    | some (_, n) => { x with replay := some (n, x.nextTx - 1), starts := x.starts.filter (fun e => !decide (e.1 + 8 ≤ s.cts)) }
    | none => x) s

/-- The selective copies that may leave now. -/
def selDue (t : PortTx) (now : Nat) : List Seq := (t.selQueue.filter (fun e => decide (e.2 ≤ now))).map (·.1)

/-- A replay or selective copy claims the slot, from 8 cc after its decision: the entry, whether it is a selective
copy, and the state with the replay moved on (R143, R147, R150). A replay with nothing left to copy ends. -/
def claimCopy (p : Nat) (s0 : State) : Option (SbEntry × Bool) × State :=
  let s := actOnStarts p s0
  let tx := (s.port p).tx
  match tx.replay with
  | some (q, last) =>
    match nextCopy 513 tx q last s.cts with
    | some e =>
      (some (e, false),
        if e.seq = last then endReplay p s else updTx p (fun x => { x with replay := some (e.seq + 1, last) }) s)
    | none => (none, endReplay p s)
  | none =>
    match (selDue tx s.cts).findSome? (fun q => copyOf tx q s.cts) with
    | some e => (some (e, true), updTx p (fun x => { x with selQueue := x.selQueue.filter (fun q => q.1 != e.seq) }) s)
    | none => (none, updTx p (fun x => { x with selQueue := x.selQueue.filter (fun q => !decide (q.2 ≤ s.cts)) }) s)

/-- The Sideboard read for a copy is uncorrectable (R156): no copy; SB_UNCORR, a record, and a cold training at the
next tick boundary. -/
def sbUncorr (p : Nat) (s : State) : State :=
  coldDue p false (sramUncorr (unitPort p) (unitPort p) .port 0 .coldTrain (raise (evPrt p) 10 s))

/-! ### Credit waits (R168) -/

/-- A flit passes for every pool whose next packet waits for credit alone; at 256 CREDIT_WAIT is raised and no other
pool starts on shared cells until that packet has started. -/
def countWaits (p : Nat) (s : State) : State :=
  (poolOrder (s.port p).cr (s.port p).tx.lastVc).foldl (fun t k =>
    match nextOfPool p k t with
    | some q =>
      if (t.port p).cr.canStart k q.slots.length then updTx p (fun x => { x with waits := tset zero0 x.waits k 0 }) t
      else
        let n := cget (t.port p).tx.waits k + 1
        let t1 := updTx p (fun x => { x with waits := tset zero0 x.waits k (min n 256) }) t
        if n = 256 then raise (evPrt p) 17 (updTx p (fun x => { x with barring := some (x.barring.getD k) }) t1) else t1
    | none => t) s

/-! ### Unscheduled flits (R169, R170, R176) -/

/-- The flit under assembly is ready for its slot: sealed, or what was placed last ends a packet (R169). -/
def asmReady (a : Assembly) : Bool :=
  !a.pks.isEmpty && (a.sealed || (match a.pks.getLast? with | some k => k.last | none => false))

/-- A flit of Hatstand messages alone: those that wait, and those of the flit under assembly where it is not sealed, or where it is
blocked (R144, R170, R176). -/
def sendHats (p : Nat) (blocked : Bool) (s : State) : State :=
  let t := updTx p (unplace blocked) s
  let hs := (readyHats (t.port p)).take 15
  sendData p hs [] (updTx p (fun x => { (takeHats hs x) with alone := false }) t)

/-- Some message could leave in a flit of its own. -/
def hatsWait (blocked : Bool) (x : Port) : Bool := !(readyHats { x with tx := unplace blocked x.tx }).isEmpty

/-- The flit under assembly leaves; messages that found no room in it go in a flit of their own in the next slot (R169, R176). -/
def sendAsm (p : Nat) (s : State) : State :=
  let a := (s.port p).tx.asm
  let t := sendData p a.hats a.pks (updTx p (fun x => { x with asm := {} }) s)
  noteBlock p false (fill p (updTx p (fun x => { x with alone := !(readyHats (t.port p)).isEmpty }) t))

/-- A slot of rank 3: the flit under assembly, if it is ready and nothing but it may follow; messages that found no room in a flit
that carries none go before it; else a flit of the messages that wait; and an idle flit if there is nothing to send or no room
(R144, R169, R170, R176). No packet goes before the swap that a wake from P2 makes (R115; log 102). -/
def sendUnscheduled (p : Nat) (s : State) : State :=
  let x := s.port p
  let a := x.tx.asm
  let ready := asmReady a && mayFollow x.tx a.pks && !x.ln.wakeSwap
  let blocked := ready && !sbRoom x.tx s.cts false
  let idle (t : State) := emit p { kind := 0 } [] t
  if x.tx.replay.isSome then idle s
  else if ready && !blocked && !(a.hats.isEmpty && hatsWait false x) then sendAsm p s
  else if hatsWait blocked x then
    (if sbRoom x.tx s.cts true then sendHats p blocked (if blocked then noteBlock p true s else s) else idle (noteBlock p true s))
  else idle (if blocked then noteBlock p true s else s)

end Sys2Proof.Machine
end

