-- ==== Sys2Proof/Machine/Schedule.lean ====
section
/-!
DEFINITION. The slot calendar and scheduled mode: entries and flows, the mode of a send direction, a calendar slot, the
phase check (09_calendar_power.md R243 to R253, R257).
-/
namespace Sys2Proof.Machine
open Host

/-! ### Entries and flows (R243 to R245) -/

/-- A word of a bank where none is listed. -/
def word0 (_ : Nat) : Word := 0

/-- Calendar entry `e` of port `p`, and flow-table entry `f`, in force. -/
def calEntry (p e : Nat) (s : State) : Word := tget word0 s.banks.calAct (256 * p + e)
def flowEntry (f : Nat) (s : State) : Word := tget word0 s.banks.flowAct f

/-- VALID, PERIOD_LOG2, PHASE and FLOW of a calendar entry (R243). -/
def calValid (w : Word) : Bool := fld w 31 1 == 1
def calPeriod (w : Word) : Nat := fld w 28 3
def calPhase (w : Word) : Nat := fld w 22 6
def calFlow (w : Word) : Nat := fld w 0 12

/-- VALID of a flow-table entry (R245). -/
def flowBound (f : Nat) (s : State) : Bool := fld (flowEntry f s) 31 1 == 1

/-- Slot `k` is present at width `w` (R96): a slot whose place in its group of four is below the width. -/
def slotPresent (w k : Nat) : Bool := decide (k % 4 < w)

/-- The entry comes up in tick `t`. -/
def calTurn (w : Word) (t : Nat) : Bool := calValid w && t % 2 ^ calPeriod w == calPhase w

/-- Entry `k` of port `p` is valid in the present tick (R244), whatever the mode of the direction. -/
def entryValid (p k : Nat) (s : State) : Bool :=
  let w := calEntry p k s
  calTurn w s.tick && slotPresent (s.port p).ln.width k && flowBound (calFlow w) s && decide (k < (s.port p).sc.readNow)

/-- An entry comes up that names an unbound flow (R244). -/
def entryBad (p k : Nat) (s : State) : Bool :=
  let w := calEntry p k s
  calTurn w s.tick && slotPresent (s.port p).ln.width k && !flowBound (calFlow w) s

/-- A calendar of port `p` holds an entry that names the bound flow `f` in a slot present at the width (R96, R249). -/
def namedIn (p f : Nat) (cal flow : Tab Word) (s : State) : Bool :=
  fld (tget word0 flow f) 31 1 == 1 &&
    cal.any (fun e => decide (e.1 / 256 = p) && calValid e.2 && calFlow e.2 == f && slotPresent (s.port p).ln.width (e.1 % 256))

/-- The active calendar of port `p` names flow `f` (R249). -/
def namesFlow (p f : Nat) (s : State) : Bool := namedIn p f s.banks.calAct s.banks.flowAct s

/-- An activation takes effect at the next tick boundary: the staging banks are those in force at it (R248, R256). -/
def epochNext (s : State) : Bool := match s.banks.pend with | some a => decide (a.tick = s.tick + 1) | none => false

/-- The first tick from `t` on in which an entry comes up. -/
def nextTurn (w : Word) (t : Nat) : Nat :=
  let m := 2 ^ calPeriod w
  t + (calPhase w + m - t % m) % m

/-- The tick of the next valid entry of the port's active calendar, from tick `t` on (R260). -/
def nextEntry (p t : Nat) (s : State) : Option Nat :=
  ((s.banks.calAct.filter (fun e => decide (e.1 / 256 = p) && calValid e.2 && flowBound (calFlow e.2) s &&
      slotPresent (s.port p).ln.width (e.1 % 256) && decide (calPhase e.2 < 2 ^ calPeriod e.2))).map
    (fun e => nextTurn e.2 t)).foldl (fun m x => match m with | some y => some (min x y) | none => some x) none

/-- An uncorrectable calendar entry of the bank that will be in force at the next tick counts as not valid until it is rewritten and
activated (R248, R388). -/
def calUncorr (p : Nat) (s : State) (e : Fin 256) : State :=
  let t := sramUncorr (unitPort p) (unitPort p) .port 7 .poisoned s
  let off (b : Tab Word) : Tab Word := tmod word0 b (256 * p + e) (fun w => setFld w 31 1 0)
  { t with banks := if epochNext s then { t.banks with calStg := off t.banks.calStg } else { t.banks with calAct := off t.banks.calAct } }

/-- So does a flow-table entry. -/
def flowUncorr (p : Nat) (s : State) (f : Fin 4096) : State :=
  let t := sramUncorr (unitPort p) unitTest .adapter 7 .poisoned s
  let off (b : Tab Word) : Tab Word := tmod word0 b f (fun w => setFld w 31 1 0)
  { t with banks := if epochNext s then { t.banks with flowStg := off t.banks.flowStg } else { t.banks with flowAct := off t.banks.flowAct } }

/-- CALENDAR_READ (R85, item 2): the entries for the next tick are read; `bad` and `badFlows` are calendar and flow-table
entries whose words are uncorrectable. -/
def execCalendarRead (p : PortId) (bad : List (Fin 256)) (badFlows : List (Fin 4096)) (s : State) : Outcome State Fault Refusal :=
  if s.acts then
    .next (updPort p (fun x => { x with sc := { x.sc with readNext := 256 } }) (badFlows.foldl (flowUncorr p) (bad.foldl (calUncorr p) s)))
  else .next s

/-! ### Scheduled mode (R246, R257) -/

/-- What keeps the direction out of scheduled mode: time, phase, configuration, link (R246, R267). -/
def dmTime (p : Nat) (s : State) : Bool :=
  let x := s.port p
  !(decide (s.tb.state = .locked ∨ s.tb.state = .master) || (decide (s.tb.state = .holdover) && !s.tb.expired)) ||
  !(match x.pw.peerTick with
    | some t => decide (s.tick < t + 8) && (x.sc.peerTq == 2 || x.sc.peerTq == 3 || x.sc.peerTq == 5)
    | none => false)
def dmPhase (p : Nat) (s : State) : Bool := !(s.port p).sc.phases.all id
def dmCfg (p : Nat) (s : State) : Bool := (s.port p).sc.skew
def dmLink (p : Nat) (s : State) : Bool :=
  let x := s.port p
  !(decide (x.ln.lstate = .up) && decide (x.pw.state = .p0)) || x.rt.lost

/-- All conditions of R246 hold. -/
def schedWanted (p : Nat) (s : State) : Bool := !dmTime p s && !dmPhase p s && !dmCfg p s && !dmLink p s

/-- SCHED_MODE_CHANGE (R246): at a tick boundary the direction takes the mode its conditions give. -/
def execSchedModeChange (p : PortId) (s : State) : Outcome State Fault Refusal :=
  let want := schedWanted p s
  if s.acts && decide (s.cyc = 0) && want != (s.port p).sc.sched then
    let t := updPort p (fun x => { x with sc := { x.sc with sched := want } }) s
    .next (if want then t else raise (evPrt p) 19 t)
  else .next s

/-- The phase check of a marker: its CALPH against the own tick number modulo 64 (R257). -/
def phaseCheck (p : Nat) (m : Marker) (s : State) : State :=
  let ok : Bool := decide (m.calph = s.tick % 64)
  let t := updPort p (fun x => { x with sc := { x.sc with phases := (ok :: x.sc.phases).take 16 } }) s
  if ok then t else raise (evPrt p) 18 t

/-! ### Packets of flows (R247, R249) -/

/-- Flow `f` is served by calendar slots of port `p`: the direction is in scheduled mode and an entry names the flow. In the last 8
cycles of a tick, in which packets make themselves ready for the first slots of the next, the mode does not matter and the bank is
the one that will be in force then (R247, R248). -/
def flowSched (p f : Nat) (s : State) : Bool :=
  if 1016 ≤ s.cyc then (if epochNext s then namedIn p f s.banks.calStg s.banks.flowStg s else namesFlow p f s)
  else (s.port p).sc.sched && namesFlow p f s

/-- A packet of a flow that calendar slots serve starts against credit and lies ready (R164, R247). -/
def startFlow (p k f : Nat) (q : Packet) (s : State) : State :=
  let n := (s.port p).tx.nextPid
  updPort p (fun x => { x with
    tx := { x.tx with staged := x.tx.staged.erase q, flight := x.tx.flight ++ [(n, q)], nextPid := n + 1 }
    cr := { x.cr with pend := cset x.cr.pend k (cget x.cr.pend k + q.slots.length) }
    sc := { x.sc with flows := x.sc.flows ++ [{ flow := f, pid := n, pool := k, rest := q.txSlots n k, ready := s.cts }] } }) s

/-- The first staged packet of a flow that calendar slots serve and that credit lets start. -/
def nextFlow (p : Nat) (s : State) : Option (Nat × Nat × Packet) :=
  (s.port p).tx.staged.findSome? (fun q =>
    match q.flow with
    | some f => let k := txPool p q.hdr s
                if flowSched p f s && mayStart p k q s then some (k, f, q) else none
    | none => none)

/-- Staged packets of flows that no calendar slot serves go at rank 3, and count as DEMOTED (R249). -/
def demoteStaged (p : Nat) (s : State) : State :=
  let n := ((s.port p).tx.staged.filter (fun q => match q.flow with | some f => !flowSched p f s | none => false)).length
  let t := updTx p (fun x => { x with staged := x.staged.map (fun q =>
    match q.flow with | some f => if flowSched p f s then q else { q with flow := none } | none => q) }) s
  if n = 0 then s else bumpN (prtSchedCnt p 2) 0 16 n t

/-- Slots in flits of fifteen; `n` bounds them. -/
def fifteens : Nat → List TxSlot → List (List TxSlot)
  | 0, _ => []
  | n + 1, xs => if xs.isEmpty then [] else xs.take 15 :: fifteens n (xs.drop 15)

/-- A started packet of a flow whose slots have gone continues at rank 3 (R249, R256): its credit is reserved already. One that has
been cut by a seal goes on at once, since nothing but its slots may follow (R169); a whole one crosses when no other is crossing. -/
def demoteStarted (p : Nat) (s : State) : State :=
  match (s.port p).sc.flows.find? (fun f => !flowSched p f.flow s) with
  | none => s
  | some f =>
    let cutOff := !(match f.rest.head? with | some k => k.first | none => true)
    if !cutOff && ((s.port p).tx.cur.isSome || !(s.port p).tx.crossed.isEmpty) then s
    else
      bump (prtSchedCnt p 2) 0 16 (updPort p (fun x => { x with
        sc := { x.sc with flows := x.sc.flows.filter (fun g => g.pid != f.pid)
                          displaced := x.sc.displaced ++ if cutOff then (fifteens 18 f.rest).map (fun c => ([], c)) else [] }
        tx := { x.tx with crossed := if cutOff then x.tx.crossed else f.rest } }) s)

/-- How many slots of a packet of `n` have crossed when `crossed` have been let through: they cross in groups of 16, and a packet of
at most 16 in one cycle (R491). -/
def crossedBy (n crossed : Nat) : Nat := if n ≤ 16 then n else 16 * max 1 ((crossed + 15) / 16)

/-- PACKET_HANDOFF (R164, R169): a packet of a flow that calendar slots serve starts and lies ready for them; else the
packet next in order starts, and `crossed` of its slots cross to the port and are placed; the others cross by the next slot. -/
def execPacketHandoff (p : PortId) (crossed : Nat) (s0 : State) : Outcome State Fault Refusal :=
  if takesPackets p s0 then
    let s := demoteStarted p (demoteStaged p s0)
    match nextFlow p s with
    | some (k, f, q) => .next (startFlow p k f q s)
    | none =>
      if (s.port p).tx.cur.isNone then
        match nextStart p s with
        | some (k, q) => .next (cross p (crossedBy q.slots.length crossed) (startPacket p k q s))
        | none => .next s
      else .next s
  else .next s0

/-! ### A calendar slot (R247 to R249) -/

/-- The flow's packet slots that are ready for a slot that begins now: at most fifteen, the remainder of a packet cut
by a seal first, then whole packets that fit (R247). `n` bounds the packets. -/
def gather : Nat → List FlowPkt → Nat → Nat → Nat → List TxSlot
  | 0, _, _, _, _ => []
  | n + 1, fs, f, room, now =>
    match fs.find? (fun q => q.flow == f && decide (q.ready + 8 ≤ now)) with
    | none => []
    | some q =>
      if room < 15 ∧ room < q.rest.length then []
      else q.rest.take room ++ gather n (fs.filter (fun g => g.pid != q.pid)) f (room - q.rest.length) now

/-- The slots taken leave the started packets. -/
def ungather (pks : List TxSlot) (fs : List FlowPkt) : List FlowPkt :=
  (fs.map (fun q => { q with rest := q.rest.drop (pks.filter (fun k => k.pid == q.pid)).length })).filter (fun q => !q.rest.isEmpty)

/-- What the flow of entry `k` has ready. -/
def flowReady (p k : Nat) (s : State) : List TxSlot :=
  gather 15 (s.port p).sc.flows (calFlow (calEntry p k s)) 15 s.cts

/-- The flow's flit is sealed: Hatstand messages in the room its slots leave, then its slots (R176, R247). -/
def sealFlow (p : Nat) (pks : List TxSlot) (s : State) : List Slot × State :=
  let t := updTx p (unplace false) s
  let hs := (readyHats (t.port p)).take (15 - pks.length)
  (hs, updPort p (fun x => { x with tx := { (takeHats hs x.tx) with alone := false }, sc := { x.sc with flows := ungather pks x.sc.flows } }) t)

/-- A valid slot of a flow that is not served counts as MISS (R249, R254, R266). -/
def missed (p : Nat) (s : State) : State := bump (prtSchedCnt p 1) 0 16 s

/-- The flow's flit goes in its slot (R247). -/
def sendFlow (p : Nat) (pks : List TxSlot) (s : State) : State :=
  let (hs, t) := sealFlow p pks s
  noteBlock p false (bumpWrap (prtSchedCnt p 0) 1 (sendData p hs pks t))

/-- A copy takes the slot: the sealed flit waits for a slot nobody claims, and counts as DISPLACED (R249, R254). -/
def displace (p : Nat) (pks : List TxSlot) (s : State) : State :=
  let (hs, t) := sealFlow p pks s
  bump (prtSchedCnt p 1) 16 16 (updPort p (fun x => { x with sc := { x.sc with displaced := x.sc.displaced ++ [(hs, pks)] } }) t)

/-- A displaced flit is the next to go at rank 3: its slots may follow those sent last, and no replay holds it back (R169, R249). -/
def displacedNext (p : Nat) (s : State) : Bool :=
  match (s.port p).sc.displaced with
  | [] => false
  | d :: _ => (s.port p).tx.replay.isNone && mayFollow (s.port p).tx d.2 && !(s.port p).ln.wakeSwap

/-- The first displaced flit goes ahead of all traffic of rank 3 (R249). -/
def sendDisplaced (p : Nat) (s : State) : Option State :=
  match (s.port p).sc.displaced with
  | [] => none
  | d :: ds =>
    if displacedNext p s && sbRoom (s.port p).tx s.cts false then
      some (noteBlock p false (sendData p d.1 d.2 (updPort p (fun x => { x with sc := { x.sc with displaced := ds } }) s)))
    else none

end Sys2Proof.Machine
end

