-- ==== Sys2Proof/Machine/Power.lean ====
section
/-!
DEFINITION. The power states of a port: the handshake in the markers, entry, and waking (09_calendar_power.md R258 to
R266).
-/
namespace Sys2Proof.Machine
open Host

/-- Replaces the power part of a port. -/
def updPw (p : Nat) (f : PortPower → PortPower) (s : State) : State := updPort p (fun x => { x with pw := f x.pw }) s

/-! ### What keeps a port awake (R157, R260) -/

/-- The link of the port counts as busy (R157). -/
def linkBusy (p : Nat) (s : State) : Bool :=
  let x := s.port p
  decide (x.tx.unacked ≠ 0) || !x.rx.held.isEmpty || x.tx.replaying || x.rx.ackDue || x.rx.nakDue || decide (x.rx.accepted ≠ 0)

/-- A staged packet is sent at rank 3: it is bound to no flow, no entry of the port's active calendar names its flow, or the direction
is kept out of scheduled mode by more than the port's power state (R249; log 103). -/
def unscheduled (p : Nat) (s : State) (q : Packet) : Bool :=
  match q.flow with
  | none => true
  | some f => !namesFlow p f s || dmTime p s || dmPhase p s || dmCfg p s

/-- An unscheduled packet or a Hatstand message waits to be sent on the port. -/
def trafficWaits (p : Nat) (s : State) : Bool :=
  let x := s.port p
  x.tx.staged.any (unscheduled p s) || x.tx.cur.isSome || !x.tx.crossed.isEmpty || !x.tx.asm.pks.isEmpty ||
  !x.tx.asm.hats.isEmpty || !x.tx.hatCtl.isEmpty || !x.tx.hatPlv.isEmpty || !x.sc.displaced.isEmpty

/-- A lane repair request is pending. -/
def repairPending (p : Nat) (s : State) : Bool := (s.port p).ln.swap.isSome || !(s.port p).ln.standing.isEmpty

/-- MAXSTATE, GUARD and WAKE_EN in force (R267). -/
def maxState (p : Nat) (s : State) : Nat := effF s (prtPwrCtl p) 0 2
def guardTicks (p : Nat) (s : State) : Nat := effF s (prtPwrCtl p) 2 4

/-- Wake values in ticks (R260). -/
def wakeTicks : PState → Nat
  | .p0 => 0 | .p1 => 1 | .p2 => 32 | .p3 => 1761

/-- The smaller of two ticks, an absent one being unbounded. -/
def minTick : Option Nat → Option Nat → Option Nat
  | some a, some b => some (min a b)
  | some a, none => some a
  | none, b => b

/-- E of R260 as seen from tick `t`: the next valid entry, WTICK, and the epoch tick of a pending activation. WTICK holds
bits [31:0] of a tick number, and means the next such tick. -/
def wakeTick (p t : Nat) (s : State) : Option Nat :=
  let w := if effF s (prtPwrCtl p) 6 1 = 1 then some (t + (effF s (prtPwrWake p) 0 32 + 2 ^ 32 - t % 2 ^ 32) % 2 ^ 32) else none
  let e := match s.banks.pend with
    | some a => if t ≤ a.tick then some a.tick else none
    | none => none
  minTick (nextEntry p t s) (minTick w e)

/-- A state may be proposed for tick `t`: its wake and the guard fit before E (R260). -/
def wakeFits (p t : Nat) (st : PState) (s : State) : Bool :=
  match wakeTick p t s with
  | some e => decide (wakeTicks st + guardTicks p s + (t + 2) ≤ e)
  | none => true

/-- The cap on PROP (R260): MAXSTATE, and P1 for a port with a lane in CAL or the upstream port. -/
def powerCap (p : Nat) (s : State) : Nat :=
  if (calLane (s.port p).ln.dcal).isSome ∨ s.upstream = some p then min (maxState p s) 1 else maxState p s

/-- PROP of the marker of tick `t` (R260). -/
def propFor (p t : Nat) (s : State) : Nat :=
  if linkBusy p s || trafficWaits p s || decide ((s.port p).ln.lstate ≠ .up) || repairPending p s then 0
  else if 3 ≤ powerCap p s ∧ wakeFits p t .p3 s then 3
  else if 2 ≤ powerCap p s ∧ wakeFits p t .p2 s then 2
  else if 1 ≤ powerCap p s ∧ wakeFits p t .p1 s then 1
  else 0

/-! ### The handshake (R259, R261, R262) -/

/-- PROP, AGREE and AVALID of a PWR field. -/
def pwrProp (w : Nat) : Nat := w / 4 % 4
def pwrAgree (w : Nat) : Nat := w / 16 % 4
def pwrValid (w : Nat) : Bool := w / 64 % 2 == 1

/-- A power state from its encoding. -/
def PState.ofCode : Nat → PState
  | 0 => .p0 | 1 => .p1 | 2 => .p2 | _ => .p3

/-- The PWR field the own marker of the present tick carried, if its TSV was 1, and the peer's, if one was valid. -/
def ownPwr (p : Nat) (s : State) : Option Nat :=
  match (s.port p).pw.sent with
  | some (t, w, v) => if t = s.tick ∧ v then some w else none
  | none => none
def peerPwrNow (p : Nat) (s : State) : Option Nat :=
  if (s.port p).pw.peerTick = some s.tick then some (s.port p).pw.peerPwr else none

/-- AGREE and AVALID of the next marker (R261). -/
def agreeNext (p : Nat) (s : State) : Nat × Bool :=
  match ownPwr p s, peerPwrNow p s with
  | some a, some b => (min (pwrProp a) (pwrProp b), true)
  | some a, none => (min (pwrProp a) (s.port p).pw.peerProp, false)
  | none, _ => (0, false)

/-- The decision of the POWER task on what the markers of this tick agreed (R261, R262). -/
def decideEntry (p : Nat) (s : State) : State :=
  let x := (s.port p).pw
  let late := match x.missed with
    | some (st, t) =>
      if t + 1 = s.tick ∧ ((match peerPwrNow p s with | some w => w % 4 == st.code | none => false) ||
          (decide (2 ≤ st.code) && !(s.port p).rx.tickGood)) then some (st, s.tick + 1) else none
    | none => none
  match ownPwr p s with
  | some a =>
    let st := PState.ofCode (pwrAgree a)
    if pwrValid a ∧ x.state.code < st.code then
      match peerPwrNow p s with
      | some b => updPw p (fun y => { y with
          missed := none, enterLate := late
          enter := if pwrValid b ∧ pwrAgree b = pwrAgree a then some (st, s.tick + 1) else none }) s
      | none => updPw p (fun y => { y with missed := some (st, s.tick), enterLate := late, enter := none }) s
    else updPw p (fun y => { y with missed := none, enterLate := late, enter := none }) s
  | none => updPw p (fun y => { y with missed := none, enterLate := late, enter := none }) s

/-- POWER_TASK (R260, R261): at cycle 928 PROP, AGREE and AVALID of the next marker are set and entry is decided. -/
def execPowerTask (p : PortId) (s0 : State) : Outcome State Fault Refusal :=
  if s0.acts && decide ((s0.port p).ln.lstate = .up) && decide ((s0.port p).pw.state = .p0 ∨ (s0.port p).pw.state = .p1) then
    let s := arrive 928 s0
    let (a, v) := agreeNext p s
    .next (decideEntry p (updPw p (fun y => { y with next := some (s.tick + 1, propFor p (s.tick + 1) s, a, v) }) s))
  else .next s0

/-- The POWER task overran in this tick: the state holds, and the next marker carries AVALID 0 (R85, R266). -/
def powerOverrun (p : Nat) (s : State) : State :=
  updPw p (fun y => { y with next := none, enter := none, missed := none, enterLate := none }) s

/-- The PWR field of the marker sent in the present tick (R259). -/
def pwrField (p : Nat) (s : State) : Nat :=
  let x := (s.port p).pw
  match x.next with
  | some (t, prop, a, v) => if t = s.tick then x.state.code + 4 * prop + 16 * a + 64 * bit v else x.state.code
  | none => x.state.code

/-- A valid marker's PWR field (R259); CUR P0 stirs a port in P1 (R263). -/
def markerPower (p : Nat) (pwr : Nat) (s : State) : State :=
  updPw p (fun y => { y with
    peerPwr := pwr % 128, peerTick := some s.tick
    stir := if pwr % 4 = 0 ∧ y.state = .p1 then some s.tick else y.stir }) s

/-- A flit from the peer in a slot other than 0 stirs a port in P1 (R263). -/
def stirPort (p : Nat) (s : State) : State :=
  if (s.port p).pw.state = .p1 then updPw p (fun y => { y with stir := some s.tick }) s else s

/-! ### Entry (R258, R261, R262, R266) -/

/-- The receive ring watched in P2 and P3: the lowest-numbered active lane's (R258). -/
def watched (p : Nat) (s : State) : Option Nat := lowestActive p s

/-- Every heater but the watched ring's goes to the layer's park code (R258). -/
def parkHeaters (p : Nat) (s : State) : State :=
  (List.range 5).foldl (fun t i =>
    if watched p s = some i then t else updLane (cellOf p i) (fun x => { x with heater := some Config.heaterPark }) t) s

/-- An entry to P2 or P3 meets a swap that has not taken effect: the own side's request stands, its message is not sent any more, and
a request of the peer's is the peer's to keep (R109, R115). -/
def keepRepair (p : Nat) (s : State) : State :=
  match (s.port p).ln.swap with
  | some w =>
    updPort p (fun x => { x with
      ln := { x.ln with swap := none, wakeSwap := false, standing := x.ln.standing ++ if w.mine then [(w.lane, w.cause)] else [] }
      tx := { x.tx with hatCtl := x.tx.hatCtl.filter (fun m => match LaneMsg.ofSlot m with | some c => decide (c.kind ≠ .swapReq) | none => true) } }) s
  | none => s

/-- In P3 the requests are discarded; they were handed up, and enter the fault log (R18, R109, R266). -/
def dropRepairs (p : Nat) (s : State) : State :=
  updLn p (fun x => { x with standing := [] }) ((s.port p).ln.standing.foldl (fun t r => laneRecord (cellOf p r.1) r.2 .none t) s)

/-- The timers of the link stop (R157). -/
def stopTimers (p : Nat) (s : State) : State :=
  updPort p (fun x => { x with tx := { x.tx with timer := none, stopped := none }, rx := { x.rx with ackTimer := none } }) s

/-- The port enters a deeper state. A FORCE_WAKE written since cycle `since`, from which the entry could be proposed, wakes it at once
(R261, R266). -/
def enterState (p : Nat) (st : PState) (since : Nat) (s : State) : State :=
  let s1 := bump (prtPwrCnt p) 0 16 (updPw p (fun y => { y with
    state := st, enter := none, enterLate := none, missed := none, stir := none, wake := none
    force := match y.force with | some c => if since ≤ c then some c else none | none => none
    watchFrom := (s.tick + 1) * 1024 + (getF s (tbLinkdly p) 0 16 + 15) / 16 }) s)
  match st with
  | .p2 => keepRepair p (stopTimers p s1)
  | .p3 => parkHeaters p (dropRepairs p (keepRepair p (stopTimers p s1)))
  | _ => s1

/-- An entry decided for the present tick takes effect at its cycle 0 (R87, R261): the state. -/
def entersNow (p : Nat) (e : Option (PState × Nat)) (s : State) : Option PState :=
  match e with
  | some (st, t) =>
    if s.acts && decide (s.cyc = 0) && decide (t = s.tick) && decide ((s.port p).ln.lstate = .up) &&
      decide ((s.port p).pw.state.code < st.code) then some st else none
  | none => none

/-- POWER_ENTRY (R261): the PROP of three ticks before was set at its cycle 928. -/
def execPowerEntry (p : PortId) (s : State) : Outcome State Fault Refusal :=
  match entersNow p (s.port p).pw.enter s with
  | some st => .next (enterState p st ((s.tick - 3) * 1024 + 928) s)
  | none => .next s

/-- POWER_ENTRY_LATE (R262). -/
def execPowerEntryLate (p : PortId) (s : State) : Outcome State Fault Refusal :=
  match entersNow p (s.port p).pw.enterLate s with
  | some st => .next (enterState p st ((s.tick - 4) * 1024 + 928) s)
  | none => .next s

/-! ### Waking (R263 to R265) -/

/-- A repair request kept for wake is carried out (R115, R264). -/
def standingRepair (p : Nat) (s : State) : State :=
  (s.port p).ln.standing.foldl (fun t r => repair (cellOf p r.1) r.2 t) (updLn p (fun x => { x with standing := [] }) s)

/-- A swap to be made at a wake from P2 goes before any packet (R115; log 102). -/
def holdForSwap (p : Nat) (s : State) : State := updLn p (fun x => { x with wakeSwap := x.swap.isSome }) s

/-- Traffic waits, or FORCE_WAKE was written in an earlier tick. -/
def demand (p : Nat) (s : State) : Bool :=
  trafficWaits p s || (match (s.port p).pw.force with | some c => decide (c / 1024 < s.tick) | none => false)

/-- E is within `n` ticks and the guard of the present tick (R263, R264). -/
def guardDue (p n : Nat) (s : State) : Bool :=
  match wakeTick p s.tick s with
  | some e => decide (e ≤ s.tick + n + guardTicks p s)
  | none => false

/-- P1_WAKE (R263): at cycle 0 of the tick after its cause; of GUARD + 1 ticks that remained in the tick before, GUARD remain. An entry
that was agreed for this tick goes first (R261). -/
def execP1Wake (p : PortId) (s : State) : Outcome State Fault Refusal :=
  let x := s.port p
  let stirred := match x.pw.stir with | some t => decide (t < s.tick) | none => false
  if s.acts && decide (x.pw.state = .p1) && decide (s.cyc = 0) && (entersNow p x.pw.enter s).isNone && (entersNow p x.pw.enterLate s).isNone &&
      (demand p s || stirred || !x.ln.standing.isEmpty || guardDue p 0 s) then
    let t := updPw p (fun y => { y with state := .p0, force := none, stir := none, enter := none }) s
    .next (standingRepair p (if demand p s then bump (prtPwrCnt p) 16 16 t else t))
  else .next s

/-- FORCE_WAKE (R263, R264, R267): a write of FORCE_WAKE. -/
def forceWake (p : Nat) (s : State) : State := updPw p (fun y => { y with force := some s.cts }) s

def execForceWake (p : PortId) (s : State) : Outcome State Fault Refusal :=
  .next (hostWrite (forceWake p) s)

/-- A wake begins with wake tick `u`: from P2 its first phase begins at u + 1; from P3 a cold training is due at tick `t`. -/
def startWake (p u t : Nat) (own : Bool) (s : State) : State :=
  let s1 := updPw p (fun y => { y with wake := some { u := u, own := own, began := u + 1, lit := !own }, force := none }) s
  if (s.port p).pw.state = .p3 then
    updLn p (fun x => { x with coldDue := some false, dueTick := t }) s1
  else s1

/-- WAKE_START (R264): the port's own trigger at cycle 0 of U. -/
def execWakeStart (p : PortId) (s : State) : Outcome State Fault Refusal :=
  let x := s.port p
  if s.acts && decide (x.pw.state = .p2 ∨ x.pw.state = .p3) && x.pw.wake.isNone && decide (s.cyc = 0) &&
      (demand p s || guardDue p (wakeTicks x.pw.state) s) then
    let t := startWake p s.tick s.tick true s
    .next (if demand p s then bump (prtPwrCnt p) 16 16 t else t)
  else .next s

/-- LIGHT_WATCH (R264): the armed watch has seen light for LOS_CC cc: the port joins the peer's wake with U the present
tick; in a wake of its own it has seen the peer's light. -/
def execLightWatch (p : PortId) (s : State) : Outcome State Fault Refusal :=
  let x := s.port p
  if s.acts && decide (x.pw.state = .p2 ∨ x.pw.state = .p3) && decide (x.pw.watchFrom ≤ s.cts) then
    match x.pw.wake with
    | none => .next (startWake p s.tick (s.tick + 1) false s)
    | some w => .next (updPw p (fun y => { y with wake := some { w with lit := true } }) s)
  else .next s

/-- The port is in P0 after a wake from P2: timers restart from zero, and a repair kept in P2 is carried out (R115, R157, R264). -/
def wakeDone (p : Nat) (s : State) : State :=
  holdForSwap p (standingRepair p (updPort p (fun x => { x with
    ln := { x.ln with upTick := some s.tick }
    pw := { x.pw with state := .p0, wake := none, stir := none, force := none }
    tx := { x.tx with timer := if x.tx.unacked = 0 then none else some s.cts }
    rx := { x.rx with lastGood := some s.cts, dark := false, empty := 0, tickGood := true
                      ackTimer := if x.rx.accepted = 0 then none else some s.cts } }) s))

/-- WAKE_COMPLETE (R264): P0 at cycle 0 of U + 32. -/
def execWakeComplete (p : PortId) (s : State) : Outcome State Fault Refusal :=
  match (s.port p).pw.wake with
  | some w =>
    if s.acts && decide (s.cyc = 0) && decide ((s.port p).pw.state = .p2) && w.ready && decide (w.u + 32 ≤ s.tick) then .next (wakeDone p s)
    else .next s
  | none => .next s

/-- The wake from P2 has failed: no light from the peer by U + 8, or a phase past its budget (R265). -/
def wakeOver (w : Wake) (now : Nat) : Bool :=
  (w.own && !w.lit && decide (w.u + 8 ≤ now)) || (!w.ready && decide (w.began + wakeBudget w.phase ≤ now))

/-- WAKE_FAIL (R265): a warm retraining begins at the next tick boundary, with the effects of a link reset of cause 6. -/
def execWakeFail (p : PortId) (s : State) : Outcome State Fault Refusal :=
  match (s.port p).pw.wake with
  | some w =>
    if s.acts && decide ((s.port p).pw.state = .p2) && wakeOver w s.tick && (s.port p).ln.resetDue.isNone then
      .next (raise (evPrt p) 21 (handOver (unitPort p) (unitPort p) .port 0x0205 .linkReset 2 (resetDue p 6 s)))
    else .next s
  | none => .next s

/-- Ports in each power state, those not UP counting in P0 (R268). -/
def portsIn (st : PState) (s : State) : Nat :=
  let n := (s.ports.filter (fun e => decide (e.2.pw.state = st))).length
  if st = .p0 then 64 - (s.ports.filter (fun e => decide (e.2.pw.state ≠ .p0))).length else n

end Sys2Proof.Machine
end

