-- ==== Sys2Proof/Machine/Route.lean ====
section
/-!
DEFINITION. Windows, routes and the pair tables of the transaction layer, with the packets it gives to ports
(07_transactions.md R184 to R200, R203 to R207).
-/
namespace Sys2Proof.Machine
open Host

/-! ### Protection state in force (R404 to R406) -/

/-- Word `i` of the image in force. -/
def imgWord (i : Nat) (s : State) : Nat := (tget word0 s.prot.img i).toNat

/-- A window as the image in force has it (R214). -/
structure Window where
  en : Bool
  base : Nat
  size : Nat
  host : Nat
  aff : Nat
  ord : Bool
  atomEn : Bool
  mirEn : Bool
  msync : Bool
  perm : Nat
  mdie : Nat
  mwin : Nat
  deriving DecidableEq, Repr

def window (w : Nat) (s : State) : Window :=
  let i (k : Nat) := imgWord (8 * w + k) s
  let c := i 4
  { en := c % 2 == 1, size := c / 2 % 64, aff := c / 128 % 16, ord := c / 2 ^ 11 % 2 == 1, atomEn := c / 2 ^ 12 % 2 == 1
    mirEn := c / 2 ^ 13 % 2 == 1, msync := c / 2 ^ 14 % 2 == 1
    base := i 0 / 4096 * 4096 + i 1 % 65536 * 2 ^ 32, host := i 2 / 4096 * 4096 + i 3 % 65536 * 2 ^ 32
    perm := i 5 % 65536, mdie := i 6 % 2 ^ 18, mwin := i 6 / 2 ^ 18 % 64 }

/-- Window `w` holds address `a` (R185). -/
def Window.holds (w : Window) (a : Nat) : Bool := w.en && decide (w.base ≤ a) && decide (a < w.base + 2 ^ w.size)

/-- The lowest-numbered enabled window that holds `a` (R185). -/
def windowOf (a : Nat) (s : State) : Option Nat := (List.range 64).find? (fun w => (window w s).holds a)

/-- The source group of a die (R404). -/
def groupOf (d : Nat) (s : State) : Nat :=
  if layerOf d = layerOf s.die then imgWord (577 + siteOf d / 8) s / 2 ^ (4 * (siteOf d % 8)) % 16
  else imgWord (585 + layerOf d / 8) s / 2 ^ (4 * (layerOf d % 8)) % 16

/-- RT_RELAY[p] in force: the relay site, unless it equals p or this die's own site (R215). -/
def relaySite (p : Nat) (s : State) : Option Nat :=
  let w := imgWord (512 + p) s
  let site := w % 64
  if w / 64 % 2 = 1 ∧ site ≠ p ∧ site ≠ s.site then some site else none

/-- The word of RT_RELAY[p] is uncorrectable: the entry counts as disabled, until the two-party procedure restores it (R388). -/
def relayUncorr (p : Nat) (s : State) : State :=
  let t := sramUncorr unitProt unitProt .adapter 8 .poisoned s
  { t with prot := { t.prot with img := tmod word0 t.prot.img (512 + p) (fun v => setFld v 6 1 0) } }

/-- RT_CTL.RELAY_EN (R207). -/
def relayEn (s : State) : Bool := imgWord 576 s % 2 == 1

/-! ### Routes (R203, R469) -/

/-- A port is absent: its bit of the port mask is 0 (R469). -/
def absent (p : Nat) (s : State) : Bool := getF s (mgtPortMask (p / 32)) (p % 32) 1 == 0

/-- Route selection treats a port as lost (R203, R469). -/
def portLost (p : Nat) (s : State) : Bool := (s.port p).rt.lost || absent p s

inductive Route where
  | loop
  | port (p : Nat) (relay : Bool)
  | none
  deriving DecidableEq, Repr

/-- The direct port toward a die (R203). -/
def directPort (d : Nat) (s : State) : Nat := if layerOf d = layerOf s.die then siteOf d else s.site

/-- `route(d)` of R203. -/
def route (d : Nat) (s : State) : Route :=
  if d = s.die then .loop
  else
    let p := directPort d s
    if !portLost p s then .port p false
    else match relaySite p s with
      | some r => if portLost r s then .none else .port r true
      | none => .none

/-- RSTATE and RSITE a port shows when it is lost (R205). -/
def lostState (p : Nat) (s : State) : RState × Nat :=
  match relaySite p s with
  | some r => if portLost r s then (.unreachable, 0) else (.relay, r)
  | none => (.unreachable, 0)

/-- RSTATE and RSITE change; ROUTE_CHANGE where RSTATE does (R205, R209, R402). -/
def setRoute (p : Nat) (st : RState) (site : Nat) (s : State) : State :=
  let t := updPort p (fun x => { x with rt := { x.rt with rstate := st, rsite := site } }) s
  if (s.port p).rt.rstate = st then t else raise (evPrt p) 24 t

/-! ### Packets to ports (R169, R199, R206) -/

/-- A packet lies whole in the staging of port `p`. A flow's packet on a relay route goes at rank 3 and counts as
DEMOTED (R207, R249, R254). -/
def stage (p : Nat) (relay : Bool) (q : Packet) (s : State) : State :=
  let t := updTx p (fun x => { x with staged := x.staged ++ [if relay then { q with flow := none } else q] }) s
  if relay && q.flow.isSome then bump (prtSchedCnt p 2) 0 16 t else t

/-- A header slot with its RETRY bit set or clear. -/
def withRetry (r : Bool) (x : Slot) : Slot := (PktHdr.slot { PktHdr.ofSlot x with retry := r })

/-- Two COMPLETIONs that R199 lets merge: same pair, class, RESP and DUP, and TXIDs in a row, at most 256 in all. -/
def mergeComp (a b : PktHdr) : Option PktHdr :=
  let len (h : PktHdr) := (h.txidLast + 2 ^ 20 - h.txid) % 2 ^ 20 + 1
  if a.opc = opCompletion ∧ b.opc = opCompletion ∧ a.src = b.src ∧ a.dst = b.dst ∧ a.cls = b.cls ∧ a.dup = b.dup ∧
      a.resp = b.resp ∧ (a.txidLast + 1) % 2 ^ 20 = b.txid ∧ len a + len b ≤ 256 then
    some { a with addr := a.addr / 2 ^ 20 * 2 ^ 20 + b.txidLast }
  else none

/-- Merges a packet into the first staged one it can join, from either side. -/
def mergeInto (q : Packet) : List Packet → Option (List Packet)
  | [] => none
  | r :: rs =>
    match mergeComp r.hdr q.hdr with
    | some h => some ({ r with slots := [h.slot] } :: rs)
    | none =>
      match mergeComp q.hdr r.hdr with
      | some h => some ({ r with slots := [h.slot] } :: rs)
      | none => (mergeInto q rs).map (fun l => r :: l)

/-- A COMPLETION joins the staged packets, merging with its neighbours in TXID on both sides (R199); `n` bounds that. -/
def stageComp : Nat → Packet → List Packet → List Packet
  | 0, q, l => l ++ [q]
  | n + 1, q, l =>
    match mergeInto q l with
    | none => l ++ [q]
    | some l2 =>
      match l2.find? (fun r => (mergeInto r (l2.erase r)).isSome) with
      | some r => stageComp n r (l2.erase r)
      | none => l2

/-- A COMPLETION that has started toward a flit and is placed in none yet has the header `h` instead. -/
def rewriteStarted (n : Nat) (h : PktHdr) (x : PortTx) : PortTx :=
  let f (k : TxSlot) : TxSlot := if k.pid = n then { k with bits := h.slot } else k
  { x with
    crossed := x.crossed.map f
    cur := x.cur.map (fun c => { c with rest := c.rest.map f })
    flight := x.flight.map (fun e => if e.1 = n then (e.1, { e.2 with slots := [h.slot] }) else e) }

/-- Merges a header into a COMPLETION that has started toward a flit and is placed in none yet (R199). -/
def joinStarted (h : PktHdr) (x : PortTx) : Option PortTx :=
  ((x.cur.elim [] (·.rest)) ++ x.crossed).findSome? (fun k =>
    if k.first && k.last then
      ((mergeComp (PktHdr.ofSlot k.bits) h).orElse (fun _ => mergeComp h (PktHdr.ofSlot k.bits))).map (fun m => rewriteStarted k.pid m x)
    else none)

/-- A COMPLETION waits at a port: it merges with what is placed in no flit yet, and so do those staged that then can (R199); `n` bounds
that. -/
def waitComp : Nat → Packet → PortTx → PortTx
  | 0, q, x => { x with staged := stageComp 4 q x.staged }
  | n + 1, q, x =>
    match joinStarted (PktHdr.ofSlot (q.slots.headD 0)) x with
    | none => { x with staged := stageComp 4 q x.staged }
    | some y =>
      match y.staged.find? (fun r => (joinStarted (PktHdr.ofSlot (r.slots.headD 0)) y).isSome) with
      | some r => waitComp n r { y with staged := y.staged.erase r }
      | none => y

/-- A response goes on its own route to its requester, or is discarded and counted for want of one (R203). A request
this die made of itself does not come this way. -/
def sendResponse (q : Packet) (merges : Bool) (s : State) : State :=
  match route q.hdr.dst s with
  | .port p _ =>
    if merges then updTx p (waitComp 4 q) s else stage p false q s
  | _ => bump (glbTxCnt 6) 0 16 s

/-- Payload slots of `n` bytes that begin at an address with that offset in its granule (R189). -/
def granules (addr n : Nat) : Nat := (addr % 16 + n + 15) / 16

/-- Bytes put into granule slots after `skip` bytes that carry nothing; `n` is the number of slots. -/
def slotsOf (skip : Nat) (bs : List Byte) (n : Nat) : List Slot :=
  let all := List.replicate skip (0 : Byte) ++ bs
  (List.range n).map (fun i => slotFrom (nats ((all.drop (16 * i)).take 16)))

/-- Bytes read back out of granule slots. -/
def bytesFrom (skip n : Nat) (slots : List Slot) : List Byte :=
  ((bytesOf (slots.flatMap slotBytes)).drop skip).take n

/-- The response packet to a request from the fabric (R191, R192, R221). -/
def responsePacket (q : RemoteReq) (r : Nat) (data : List Byte) (die : Nat) : Packet :=
  let opc := if q.opc = opRead then opReadData else if q.opc = opAtomic then opAtomicResult else opCompletion
  let slots :=
    if opc = opReadData ∧ (r = 0 ∨ r = 3) then slotsOf (q.addr % 16) data (granules q.addr q.bytes)
    else if opc = opAtomicResult ∧ r = 0 then slotsOf 0 data 1 else []
  { slots := PktHdr.slot { opc := opc, len := slots.length, src := die, dst := q.src, cls := q.cls / 4 * 4
                           dup := q.dup, txid := q.txid, addr := q.txid + r * 2 ^ 20 } :: slots }

/-! ### Counting the answers given as a target (R212, R241) -/

/-- Counts an answer of code `r` to a request of opcode `opc`. -/
def countAnswer (opc r : Nat) (s : State) : State :=
  if r = 1 then bump (glbTxCnt 4) 0 16 s
  else if r = 2 then bump (glbTxCnt 4) 16 16 s
  else if r = 4 then bump (glbTxCnt 5) 0 16 s
  else if r = 5 then
    let t := bump (glbTxCnt 5) 16 16 s
    if opc = opAtomic then raise evAtm 1 (bump atmCntHit 16 16 t) else t
  else if r = 8 then bump (glbTxCnt 2) 16 16 s
  else s

/-- Answers a request from the fabric (R192, R199): WRITEs and REDUCEs by COMPLETIONs that may merge. -/
def respond (q : RemoteReq) (r : Nat) (data : List Byte) (s : State) : State :=
  sendResponse (responsePacket q r data s.die) (decide (q.opc = opWrite ∨ q.opc = opReduce)) (countAnswer q.opc r s)

/-! ### Target pairs (R195 to R197) -/

def tpair0 (_ : Nat) : Option TgtPair := none
def spair0 (_ : Nat) : Option SrcPair := none
def tx0 (_ : Nat) : TxState := .open

def updT (f : Transact → Transact) (s : State) : State := { s with tx := f s.tx }
def getTgt (s : State) (src : Nat) : Option TgtPair := tget tpair0 s.tx.tpairs src
def setTgt (src : Nat) (k : Option TgtPair) (s : State) : State := updT (fun t => { t with tpairs := tset tpair0 t.tpairs src k }) s

/-- PAIR_IDLE, RSP_TIMEOUT and RETRY_LIM in force (R212). -/
def pairIdle (s : State) : Nat := effF s glbTxCtl 16 16
def rspTimeout (s : State) : Nat := effF s glbTxCtl 0 11
def retryLim (s : State) : Nat := effF s glbTxCtl 11 4

/-- The TXID lies in the map: within 256 below and 255 above NEXT_EXP (R195). -/
def TgtPair.inMap (k : TgtPair) (txid : Nat) : Bool := decide ((txid + 2 ^ 20 + 256 - k.nextExp) % 2 ^ 20 < 512)

/-- NEXT_EXP moves past answered TXIDs, and the oldest states leave the map (R195); `n` bounds it. -/
def TgtPair.advance : Nat → TgtPair → TgtPair
  | 0, k => k
  | n + 1, k =>
    match tget tx0 k.map k.nextExp with
    | .applied => TgtPair.advance n { k with nextExp := (k.nextExp + 1) % 2 ^ 20, map := tset tx0 k.map ((k.nextExp + 2 ^ 20 - 256) % 2 ^ 20) .open }
    | .refused => TgtPair.advance n { k with nextExp := (k.nextExp + 1) % 2 ^ 20, map := tset tx0 k.map ((k.nextExp + 2 ^ 20 - 256) % 2 ^ 20) .open }
    | _ => k

/-- The state of a TXID changes. -/
def setTxid (src txid : Nat) (st : TxState) (s : State) : State :=
  match getTgt s src with
  | some k => setTgt src (some (TgtPair.advance 512 { k with map := tset tx0 k.map txid st })) s
  | none => s

/-- An answer of code `r` moves a PENDING TXID on (R195): APPLIED for OK, OPEN for BUSY, else REFUSED. -/
def settleTxid (src txid r : Nat) (s : State) : State :=
  match getTgt s src with
  | some k =>
    if tget tx0 k.map txid = .pending then
      setTxid src txid (if r = 0 then .applied else if r = 4 then .open else .refused) s
    else s
  | none => s

/-- The target pair evicted for a new source: of those idle for PAIR_IDLE ticks with nothing PENDING, the one idle for
longest (R197). -/
def evictTgt (s : State) : Option Nat :=
  let idle := s.tx.tpairs.filter (fun e => match e.2 with
    | some k => decide (k.last + pairIdle s ≤ s.tick) && k.map.all (fun m => decide (m.2 ≠ .pending))
    | none => false)
  (idle.foldl (fun (b : Option (Nat × Nat)) e =>
    let l := (e.2.map (·.last)).getD 0
    match b with | some (_, m) => if l < m then some (e.1, l) else b | none => some (e.1, l)) none).map (·.1)

/-- A fresh target pair (R197); none where the table is full and nothing can be evicted. -/
def createTgt (src txid : Nat) (s : State) : Option State :=
  let new : TgtPair := { nextExp := txid, last := s.tick }
  if (getTgt s src).isSome ∨ s.tx.tpairs.length < 4096 then some (setTgt src (some new) s)
  else (evictTgt s).map (fun v => setTgt src (some new) (setTgt v none s))

/-! ### Source pairs (R194) -/

def getSrc (s : State) (dst : Nat) : Option SrcPair := tget spair0 s.tx.spairs dst
def setSrc (dst : Nat) (k : Option SrcPair) (s : State) : State := updT (fun t => { t with spairs := tset spair0 t.spairs dst k }) s

/-- OLDEST: the lowest TXID of the pair not yet answered. -/
def SrcPair.oldest (k : SrcPair) : Nat := match k.reqs with | r :: _ => r.txid | [] => k.next

/-- The pair window lets one more request be committed (R194). -/
def SrcPair.open_ (k : SrcPair) : Bool := decide ((k.next + 2 ^ 20 - k.oldest) % 2 ^ 20 ≤ 255)

/-- The source pair evicted for a new destination: idle for PAIR_IDLE ticks, the one idle for longest (R194). -/
def evictSrc (s : State) : Option Nat :=
  let idle := s.tx.spairs.filter (fun e => match e.2 with
    | some k => k.reqs.isEmpty && decide (k.idle + pairIdle s ≤ s.tick)
    | none => false)
  (idle.foldl (fun (b : Option (Nat × Nat)) e =>
    let l := (e.2.map (·.idle)).getD 0
    match b with | some (_, m) => if l < m then some (e.1, l) else b | none => some (e.1, l)) none).map (·.1)

/-- The pair entry for a destination, created where an entry can be had; the flag says it is new. -/
def srcEntry (dst : Nat) (s : State) : Option (SrcPair × Bool × State) :=
  match getSrc s dst with
  | some k => some (k, false, s)
  | none =>
    if s.tx.spairs.length < 4096 then some ({}, true, s)
    else (evictSrc s).map (fun v => ({}, true, setSrc v none s))

/-- The header slot of a request with its TXID and SYNC. -/
def reqHeader (x : Slot) (txid : Nat) (sync : Bool) : Slot := PktHdr.slot { PktHdr.ofSlot x with txid := txid, sync := sync }

/-- A request may be committed now: its route's port is not draining, and the pair window is open (R194, R209). -/
def committable (q : NewReq) (s : State) : Bool :=
  (match route q.dst s with
   | .port p _ => decide ((s.port p).rt.rstate ≠ .draining)
   | _ => true) &&
  (match getSrc s q.dst with
   | some k => k.open_
   | none => (srcEntry q.dst s).isSome)

/-- Commits a request to port `p` (R194): it takes NEXT_TXID of its pair. -/
def commitTo (q : NewReq) (p : Nat) (relay : Bool) (s : State) : State :=
  match srcEntry q.dst s with
  | none => s
  | some (k, new, s1) =>
    let slots := match q.slots with | h :: t => reqHeader h k.next new :: t | [] => []
    let r : SrcReq := { txid := k.next, slots := slots, client := q.client, flow := q.flow, relay := relay }
    stage p relay { slots := slots, flow := q.flow }
      (setSrc q.dst (some { k with next := (k.next + 1) % 2 ^ 20, reqs := k.reqs ++ [r] }) s1)

/-- Changes the outstanding request (dst, txid). -/
def updReq (dst txid : Nat) (f : SrcReq → SrcReq) (s : State) : State :=
  match getSrc s dst with
  | some k => setSrc dst (some { k with reqs := k.reqs.map (fun r => if r.txid = txid then f r else r) }) s
  | none => s

/-- A request is no longer outstanding. -/
def dropReq (dst txid : Nat) (s : State) : State :=
  match getSrc s dst with
  | some k =>
    let reqs := k.reqs.filter (fun r => r.txid != txid)
    setSrc dst (some { k with reqs := reqs, idle := if reqs.isEmpty then s.tick else k.idle }) s
  | none => s

/-- The header of an outstanding request. -/
def SrcReq.hdr (r : SrcReq) : PktHdr := PktHdr.ofSlot (r.slots.headD 0)

/-- Sends an outstanding request again on the route in force, with RETRY set or clear; false where there is none. -/
def resend (dst : Nat) (r : SrcReq) (retry : Bool) (s : State) : Option State :=
  match route dst s with
  | .port p relay =>
    let slots := match r.slots with | h :: t => withRetry retry h :: t | [] => []
    let s1 := stage p relay { slots := slots, flow := r.flow } (updReq dst r.txid (fun q => { q with sent := none, busyAt := none, relay := relay }) s)
    some (if retry then bump (glbTxCnt 1) 0 16 s1 else s1)
  | _ => none

/-- The packet slots first sent in this command: a request's transmission is timed from its header slot (R198), and the
cells of a packet in transit are freed (R166). -/
def noteSent (p : Nat) (s : State) : State :=
  let now := s.tick
  let s1 := (s.port p).tx.justSent.foldl (fun t k =>
    let t1 := match k.origin with
      | some (ip, id) =>
        match (t.port ip).rx.cup.find? (fun c => c.id == id) with
        | some c => freePkt ip c 1 t
        | none => t
      | none => t
    if k.first then
      let h := PktHdr.ofSlot k.bits
      if h.src = t.die ∧ !isRespOp h.opc ∧ h.opc ≠ opAtomicRelease then updReq h.dst h.txid (fun r => { r with sent := some now }) t1 else t1
    else t1) s
  updTx p (fun x => { x with justSent := [] }) s1

end Sys2Proof.Machine
end

