-- ==== Sys2Proof/Machine/Access.lean ====
section
/-!
DEFINITION. The inner ports: header beats, host accesses through HREQ, and what the adapter presents next
(02_host_boundary.md R28 to R37; R185, R200, R201, R227, R492).
-/
namespace Sys2Proof.Machine
open Host

def ip0 (_ : Nat) : InnerPort := {}
def State.ip (s : State) (i : Nat) : InnerPort := tget ip0 s.ips i
def updIp (i : Nat) (f : InnerPort → InnerPort) (s : State) : State := { s with ips := tmod ip0 s.ips i f }

/-! ### Header and data beats (R28, R31, R32) -/

/-- Even parity over bits `lo` to `lo + n - 1` of a number: the bit that makes their count even. -/
def parityOf : Nat → Nat → Nat → Nat
  | 0, _, _ => 0
  | n + 1, lo, x => (x / 2 ^ lo % 2 + parityOf n (lo + 1) x) % 2

/-- PAR of a header beat: bit j covers bits 31j to 31j + 30 (R31). -/
def headerPar (x : Nat) : Nat := (List.range 4).foldl (fun a j => a + parityOf 31 (31 * j) x * 2 ^ j) 0

/-- DPAR of a data beat: bit j covers bits 64j to 64j + 63 (R28). -/
def dataPar (x : Nat) : Nat := (List.range 32).foldl (fun a j => a + parityOf 64 (64 * j) x * 2 ^ j) 0

/-- A header beat's fields (R31). -/
structure IpHdr where
  kind : Nat
  tag : Nat
  bytes : Nat
  addr : Nat
  die : Nat
  resp : Nat := 0
  poison : Bool := false
  deriving DecidableEq, Repr

def IpHdr.beat (h : IpHdr) : BitVec 128 :=
  let v := pack [(0, 8, h.kind), (8, 10, h.tag), (18, 13, h.bytes), (32, 48, h.addr), (80, 18, h.die), (98, 4, h.resp), (102, 1, bit h.poison)]
  BitVec.ofNat 128 (v + headerPar v * 2 ^ 124)

def IpHdr.ofBeat (x : BitVec 128) : IpHdr :=
  { kind := sf x 0 8, tag := sf x 8 10, bytes := sf x 18 13, addr := sf x 32 48, die := sf x 80 18, resp := sf x 98 4
    poison := sf x 102 1 == 1 }

/-- The header beat's parity holds. -/
def headerParOk (x : BitVec 128) : Bool := headerPar x.toNat == sf x 124 4

/-- The data beats' parity holds. -/
def beatsParOk (bs : List Beat) : Bool := bs.all (fun b => dataPar b.data.toNat == b.par.toNat)

/-- Data beats of a transfer of `n` bytes at an address (R32). -/
def beatCount (addr n : Nat) : Nat := if n = 0 then 0 else (addr % 256 + n + 255) / 256

/-- DLAST stands on the last beat and on no other. -/
def lastOk : List Beat → Bool
  | [] => true
  | [b] => b.last
  | b :: bs => !b.last && lastOk bs

/-- The 256 bytes of a data beat. -/
def beatBytes (b : Beat) : List Byte := bytesOf (leBytes 256 b.data.toNat)

/-- The bytes of an aligned transfer out of its beats (R32). -/
def xferBytes (addr n : Nat) (bs : List Beat) : List Byte := ((bs.flatMap beatBytes).drop (addr % 256)).take n

/-- Transfer kinds (R32). -/
def kWrite : Nat := 0x10
def kRead : Nat := 0x20
def kReadData : Nat := 0x21
def kAtomic : Nat := 0x30
def kAtomicResult : Nat := 0x31
def kCompletion : Nat := 0x50

/-- The adapter takes and drives inner-port beats: past BOOT entry, and not in FROZEN or FAULT. -/
def State.portsOpen (s : State) : Bool := s.acts && !s.bnd.portsLow

/-- The CTS of the slot that brought slot `i` of a packet, and the cycle from which what it completes may be presented: 1,024T + 4k + D
(R252). -/
def slotAt (c : CupPkt) (i : Nat) : Nat := c.times.getD i 0
def dueAt (p : Nat) (c : CupPkt) (i : Nat) (s : State) : Nat := slotAt c i + (s.port p).sc.d

/-! ### Queueing a host access -/

/-- A host access joins the accesses of its inner port. -/
def hostAccess (ip : Nat) (r : HostReq) (s : State) : State :=
  updIp ip (fun x => { x with wait := x.wait ++ [{ r with came := max s.cts r.ready }] }) s

/-- An access of an atomic lane. -/
def HostReq.ofLane (r : HostReq) : Bool :=
  match r.client with
  | .atomRead _ _ => true
  | .atomWrite _ _ => true
  | _ => false

/-- The source of a request from the fabric. -/
def HostReq.source (r : HostReq) : Option Nat := match r.client with | .remote q => some q.src | _ => none

def alane0 (_ : Nat) : AtomLane := {}
def State.alane (s : State) (q : Nat) : AtomLane := tget alane0 s.tx.lanes q
def updALane (q : Nat) (f : AtomLane → AtomLane) (s : State) : State := updT (fun t => { t with lanes := tmod alane0 t.lanes q f }) s

/-- The access overlaps a live word, whichever lane holds it (R227). -/
def overlapsLive (r : HostReq) (s : State) : Bool :=
  !r.ofLane && s.tx.lanes.any (fun e => e.2.words.any (fun w => decide (r.addr < w.h + 8) && decide (w.h < r.addr + r.bytes)))

/-- An earlier access from the same source to a sequential window has no HRSP yet (R201). -/
def heldBack (r : HostReq) (before busy : List HostReq) : Bool :=
  r.seq && (before ++ busy).any (fun q => q.seq && decide (q.source = r.source))

/-- The accesses that may be presented now, in order of arrival: those whose cycle has come and that R201 does not hold, up to one that
waits on a live word, with which those behind it wait (R200, R201, R227, R252). -/
def eligible (s : State) (busy : List HostReq) : List HostReq → List HostReq → List HostReq
  | _, [] => []
  | before, r :: rs =>
    if s.cts < r.ready then eligible s busy (before ++ [r]) rs
    else if overlapsLive r s then []
    else if heldBack r before busy then eligible s busy (before ++ [r]) rs
    else r :: eligible s busy (before ++ [r]) rs

/-- The port an access came by, as a client of the quad's arbitration; the adapter's own come after the ports (R16). -/
def HostReq.client16 (r : HostReq) : Nat := match r.pkt with | some (p, _) => p | none => r.port

/-- The first of a list by a measure. -/
def leastBy {α : Type} (f : α → Nat) : α → List α → α
  | r, [] => r
  | r, q :: qs => leastBy f (if f q < f r then q else r) qs

/-- Rank 1, in the order of the slots; of those due in one cycle the one of the lower port (R16, R253). -/
def firstTimed (r : HostReq) (rs : List HostReq) : HostReq :=
  let c := leastBy (fun q => q.slot) r rs
  leastBy HostReq.client16 c ((r :: rs).filter (fun q => q.ready == c.ready))

/-- Rank 2, in order of arrival; of those that arrived in one cycle the next port round-robin after the one granted last (R16, R200). -/
def firstOther (last : Nat) (r : HostReq) (rs : List HostReq) : HostReq :=
  let c := leastBy (fun q => q.came) r rs
  leastBy (fun q => (q.client16 + 64 - last) % 65) c ((r :: rs).filter (fun q => q.came == c.came))

/-- The access presented next: an atomic lane's first; else a scheduled delivery; else another (R16, R200, R201, R227). -/
def nextAccess (ip : Nat) (s : State) : Option HostReq :=
  let x := s.ip ip
  match x.wait.find? (fun r => r.ofLane) with
  | some r => some r
  | none =>
    let rs := eligible s (x.busy ++ x.header.toList) [] x.wait
    match rs.filter (·.timed), rs with
    | r :: ts, _ => some (firstTimed r ts)
    | [], r :: os => some (firstOther x.lastPort r os)
    | [], [] => none

/-! ### The header beat (R31, R34 to R36) -/

/-- A TAG that is neither outstanding nor quarantined, from `n` upward; the search is bounded. -/
def freeTag : Nat → Nat → InnerPort → Option Nat
  | 0, _, _ => none
  | k + 1, n, x =>
    if x.busy.any (fun r => r.tag == n % 1024) || x.quar.any (fun q => q.1 == n % 1024) then freeTag k (n + 1) x
    else some (n % 1024)

/-- The slots of its packet that a fabric access has done with once it has transferred `done` of its bytes (R166). -/
def slotsDone (r : HostReq) (done : Nat) : Nat := r.lead + (if done = 0 then 0 else granules r.addr done)

/-- A fabric access frees its packet's cells up to that many slots. -/
def freeAccess (r : HostReq) (n : Nat) (s : State) : State :=
  match r.pkt with
  | none => s
  | some (p, id) =>
    match (s.port p).rx.cup.find? (fun c => c.id == id) with
    | none => s
    | some c => freePkt p c (n - c.freed) s

/-- What the Cupboard has of a fabric WRITE: its slots, those poisoned, the CTS of their slots, and whether the rest was discarded. -/
structure WriteData where
  slots : List Slot := []
  bad : List Nat := []
  times : List Nat := []
  cut : Bool := false
  deriving DecidableEq, Repr

def writeData (r : HostReq) (s : State) : WriteData :=
  match r.pkt with
  | none => {}
  | some (p, id) =>
    match (s.port p).rx.cup.find? (fun c => c.id == id) with
    | some c => { slots := c.slots, bad := c.bad, times := c.times, cut := c.cut }
    | none => { cut := true }

/-- HREQ transfers outstanding (R34, R64). -/
def InnerPort.out (x : InnerPort) : Nat := (x.busy.filter (fun r => !r.answered)).length

/-- The access presented next has its header beat presented: it takes a TAG, and its POISON bit says what is known by now. Four headers
at most go ahead of the data in progress (R29, R30, R34, R492). -/
def presentHeader (ip : Nat) (s : State) : State :=
  let x := s.ip ip
  let far := match x.sending with | (_, n) :: _ => decide (4 ≤ n) | [] => false
  if x.header.isSome || far || decide (1024 ≤ x.out) then s
  else match nextAccess ip s with
  | none => s
  | some r =>
    let (n, s1) := takeFree s
    match freeTag 1024 n x with
    | none => s
    | some tag =>
      updIp ip (fun y => { y with
        wait := y.wait.erase r
        lastPort := if r.timed || r.ofLane then y.lastPort else r.client16 % 64
        header := some { r with tag := tag, sent := s.cts, poison := r.poison || (r.write && !(writeData r s).bad.isEmpty) } }) s1

/-- A scheduled delivery transferred after its cycle counts as SLIP; SCHED_SLIP is raised once per tick (R253, R254). -/
def lateDelivery (p : Nat) (s : State) : State :=
  let t := bump (prtSchedCnt p 3) 16 16 s
  if (s.port p).sc.slipped then t
  else raise (evPrt p) 20 (updPort p (fun x => { x with sc := { x.sc with slipped := true } }) t)

/-- The wait of a sub-channel ends: header 2c, data 2c + 1 (R37). -/
def InnerPort.clearStall (x : InnerPort) (k : Nat) : InnerPort := { x with stalled := x.stalled.filter (fun c => c != k) }

/-- The header beat of an access. -/
def HostReq.hdrBeat (r : HostReq) : BitVec 128 :=
  IpHdr.beat { kind := if r.write then kWrite else kRead, tag := r.tag, bytes := r.bytes, addr := r.addr, die := r.die, poison := r.poison }

/-- The header beat presented is transferred: its timeout starts, and the cells of its header and extent slots are freed
(R35, R166). -/
def hreqHeader (ip : Nat) (s : State) : State :=
  match (s.ip ip).header with
  | none => s
  | some r =>
    let t := freeAccess r r.lead (updIp ip (fun y => { y.clearStall 0 with
      header := none, busy := y.busy ++ [{ r with sent := s.cts }]
      sending := y.sending.map (fun e => (e.1, e.2 + 1)) ++ (if r.write then [(r.tag, 0)] else [])
      hreqHdr := r.hdrBeat }) s)
    if r.timed && !r.slip && decide (r.ready < s.cts) then lateDelivery r.client16 t else t

/-! ### The data beats of a WRITE (R30, R32, R492) -/

/-- The bytes of data beat `j` of the access: the first and the end of them, counted from its start. -/
def beatSpan (r : HostReq) (j : Nat) : Nat × Nat :=
  (256 * j - r.addr % 256, min r.bytes (256 * (j + 1) - r.addr % 256))

/-- Whether the bytes of its next data beat are at hand: for a fabric WRITE, their slots have been released, or
never will be (R193). -/
def beatReady (r : HostReq) (s : State) : Bool :=
  match r.pkt with
  | none => true
  | some _ =>
    let d := writeData r s
    d.cut || decide (r.lead + granules r.addr (beatSpan r r.beats).2 ≤ d.slots.length)

/-- The cycle from which its next data beat may be presented: 1,024T + 4k + D of the flit that completed it (R252). -/
def beatDue (r : HostReq) (s : State) : Nat :=
  match r.pkt with
  | none => 0
  | some (p, _) =>
    match ((writeData r s).times[r.lead + granules r.addr (beatSpan r r.beats).2 - 1]?) with
    | some t => t + (s.port p).sc.d
    | none => 0

/-- The WRITE whose data is in progress. -/
def inProgress (x : InnerPort) : Option HostReq :=
  match x.sending with
  | [] => none
  | (tag, _) :: _ => x.busy.find? (fun r => r.tag == tag && r.write)

/-- The next data beat is presented, from the cycle after its header on (R30, R252). -/
def presentBeat (ip : Nat) (s : State) : State :=
  match (s.ip ip).beat, inProgress (s.ip ip) with
  | none, some r =>
    if r.sent < s.cts ∧ beatReady r s ∧ beatDue r s ≤ s.cts then updIp ip (fun y => { y with beat := some s.cts }) s else s
  | _, _ => s

/-- The first slot of data beat `j` in its packet. -/
def beatSlot (r : HostReq) (j : Nat) : Nat := r.lead + if j = 0 then 0 else 16 * j - r.addr % 256 / 16

/-- The 64-bit words of beat `j` that hold bytes of slots for which `f` holds (R492). -/
def wordsOf (r : HostReq) (j : Nat) (f : Nat → Bool) : Nat :=
  let (a, b) := beatSpan r j
  (List.range 32).foldl (fun m w =>
    let lo := 256 * j + 8 * w
    let first := r.addr % 256
    let slot := r.lead + (lo + r.addr / 256 * 256) / 16 - r.addr / 16
    if decide (first ≤ lo + 7) && decide (a ≤ lo + 7 - first) && decide (lo < first + b) && f slot then m + 2 ^ w else m) 0

/-- The words of its next beat that hold poisoned bytes: of an own WRITE whose data is poisoned all; of a fabric one those of poisoned
slots, of slots that never came, and of those found uncorrectable now (R193, R492). -/
def poisonWords (r : HostReq) (bad : BitVec 17) (d : WriteData) : Nat :=
  if r.pkt.isNone then (if r.poison then wordsOf r r.beats (fun _ => true) else 0)
  else wordsOf r r.beats (fun k =>
    d.bad.contains k || (d.cut && decide (d.slots.length ≤ k)) ||
      (decide (beatSlot r r.beats ≤ k) && bad.getLsbD (k - beatSlot r r.beats)))

/-- The bytes of the next data beat of a WRITE, and the beat (R32). -/
def beatChunk (r : HostReq) (d : WriteData) : List Byte :=
  let (a, b) := beatSpan r r.beats
  let all := if r.pkt.isSome then bytesFrom (r.addr % 16) r.bytes (d.slots.drop r.lead) else r.data
  (all.drop a).take (b - a)
def beatValue (r : HostReq) (chunk : List Byte) : Nat := leNum (List.replicate (if r.beats = 0 then r.addr % 256 else 0) 0 ++ nats chunk)

/-- The data beat presented is transferred. `bad` says which of its slots' Cupboard words are uncorrectable. -/
def hreqData (ip : Nat) (bad : BitVec 17) (s : State) : State :=
  match (s.ip ip).beat, inProgress (s.ip ip) with
  | some _, some r =>
    let d := writeData r s
    let b := (beatSpan r r.beats).2
    let chunk := beatChunk r d
    let value := beatValue r chunk
    let words := poisonWords r bad d
    let last := decide (r.beats + 1 = beatCount r.addr r.bytes)
    let r1 := { r with beats := r.beats + 1, poison := r.poison || words != 0, cut := r.cut || d.cut
                       data := if r.pkt.isSome then r.data ++ chunk else r.data }
    let s1 := updIp ip (fun y => { y.clearStall 1 with
      busy := if last && r.answered then y.busy.filter (fun q => !(q.tag == r.tag && q.write)) else y.busy.map (fun q => if q.tag == r.tag then r1 else q)
      sending := if last then y.sending.drop 1 else y.sending
      beat := none
      hreqBeat := BitVec.ofNat 2048 value, hreqPar := BitVec.ofNat 32 (dataPar value ^^^ words), hreqLast := last }) s
    let s2 := freeAccess r (if last then r.lead + 256 else slotsDone r b) s1
    let s3 := if r.timed && r.pkt.isSome && decide (beatDue r s < s.cts) then lateDelivery r.client16 s2 else s2
    match r.pkt with
    | some (p, _) => if bad = 0 then s3 else sramUncorr (unitPort p) (unitPort p) .port 1 .poisoned s3
    | none => s3
  | _, _ => s

/-! ### FRSP beats (R28 to R33, R223) -/

/-- The data beats of an FRSP transfer: an ATOMIC_RESULT's bytes lie in one beat from its byte 0 on (R32, R223). -/
def frspBeats (x : FrspXfer) : Nat := if x.kind = kAtomicResult then min 1 x.bytes else beatCount x.addr x.bytes

/-- Its data beat `j`. -/
def frspValue (x : FrspXfer) (j : Nat) : Nat :=
  if x.kind = kAtomicResult then leNum (nats x.data)
  else
    let first := x.addr % 256
    leNum (List.replicate (if j = 0 then first else 0) 0 ++ nats ((x.data.drop (256 * j - first)).take (256 * (j + 1) - first - (256 * j - first))))

/-- The header of the FRSP that waits first, and the next data beat of the one in progress, are presented (R29, R30, R252). -/
def presentFrsp (ip : Nat) (s : State) : State :=
  let x := s.ip ip
  let far := match x.frspOut with | o :: _ => decide (4 ≤ o.ahead) | [] => false
  let hdr := match x.frspHeader, x.frsp with
    | none, f :: _ => if !far && decide (f.ready ≤ s.cts) then some s.cts else none
    | h, _ => h
  let beat := match x.frspBeat, x.frspOut with
    | none, o :: _ => if o.sent < s.cts then some s.cts else none
    | b, _ => b
  if hdr = x.frspHeader ∧ beat = x.frspBeat then s else updIp ip (fun y => { y with frspHeader := hdr, frspBeat := beat }) s

/-! ### What is presented, and taken (R28 to R30) -/

/-- Beats of inner port `ip` that can be presented are. -/
def present (ip : Nat) (s : State) : State := presentFrsp ip (presentBeat ip (presentHeader ip s))

/-- So at every inner port, as a cycle begins. -/
def presentAll (s : State) : State := if s.portsOpen then (s.ips.map (·.1)).foldl (fun t ip => present ip t) s else s

/-- HREQ_TRANSFER (R29 to R32): the host takes the header beat, or the data beat, that the adapter presents. -/
def execHreqTransfer (ip : IpId) (data : Bool) (bad : BitVec 17) (s : State) : Outcome State Fault Refusal :=
  if s.portsOpen then .next (if data then hreqData ip bad (present ip s) else hreqHeader ip (present ip s)) else .next s

/-! ### Quarantine and stalls (R36, R37) -/

/-- QUARANTINE_EXPIRY (R36): 65,536 cc after its timeout a quarantined TAG is released. -/
def execQuarantineExpiry (ip : IpId) (tag : Tag) (s : State) : Outcome State Fault Refusal :=
  if s.acts then
    .next (updIp ip (fun x => { x with quar := x.quar.filter (fun q => !(q.1 == tag.toNat && decide (q.2 + 65536 ≤ s.cts))) }) s)
  else .next s

/-- A sub-channel's number. -/
def chanCode (ch : IpChannel) (data : Bool) : Nat :=
  (match ch with | .hreq => 0 | .hrsp => 2 | .freq => 4 | .frsp => 6) + bit data

/-- The cycle from which the adapter's VALID of a sub-channel has been 1: the beat presented there (R28, R29). -/
def validSince (x : InnerPort) : IpChannel → Bool → Option Nat
  | .hreq, false => x.header.map (·.sent)
  | .hreq, true => x.beat
  | .frsp, false => x.frspHeader
  | .frsp, true => x.frspBeat
  | _, _ => none

/-- A beat waits on a channel on which the adapter sends: one presented in an earlier cycle (R64). -/
def beatWaits (x : InnerPort) (ch : IpChannel) (s : State) : Bool :=
  s.portsOpen && [false, true].any (fun data => match validSince x ch data with | some t => decide (t < s.cts) | none => false)

/-- Reads and atomics outstanding on a remote request engine (R237). -/
def rreOut (ip : Nat) (s : State) : Nat := ((s.ip ip).freq.filter (fun f => f.counted)).length

/-- The adapter's READY of a sub-channel on which the host sends: header beats while fewer than four await their data, on FREQ in RUN
and while the remote request engine has room; data beats while a header awaits them (R28, R30, R33, R34, R422). -/
def readyFor (ip : Nat) (s : State) : IpChannel → Bool → Bool
  | .freq, false => s.portsOpen && decide (s.bnd.adp = .run) && decide (rreOut ip s < 512) && decide ((s.ip ip).freqIn.length < 4)
  | .freq, true => s.portsOpen && !(s.ip ip).freqIn.isEmpty
  | .hrsp, false => s.portsOpen && decide ((s.ip ip).hrspIn.length < 4)
  | .hrsp, true => s.portsOpen && !(s.ip ip).hrspIn.isEmpty
  | _, _ => false

/-- A beat waits on a sub-channel: where the adapter sends, one presented for 2^STALL_LOG2 cc; where the host sends, the adapter's READY
is 0, and how long the host's beat has waited is the host's to say (R37). -/
def chanWaits (ip : Nat) (ch : IpChannel) (data : Bool) (s : State) : Bool :=
  match ch with
  | .hreq | .frsp => match validSince (s.ip ip) ch data with | some t => decide (t + 2 ^ getF s (qdIpCtl ip) 4 5 ≤ s.cts) | none => false
  | _ => !readyFor ip s ch data

/-- IP_STALL (R37): raised once for the wait. -/
def execIpStall (ip : IpId) (ch : IpWait) (s : State) : Outcome State Fault Refusal :=
  let code := chanCode ch.chan ch.data
  if s.portsOpen && chanWaits ip ch.chan ch.data s && !(s.ip ip).stalled.contains code then
    .next (raise (evQd (ip.val / 4)) 6 (updIp ip (fun y => { y with stalled := y.stalled ++ [code] }) s))
  else .next s

end Sys2Proof.Machine
end

