-- ==== Sys2Proof/Machine/Answer.lean ====
section
/-!
DEFINITION. Answers to those who asked: the Chest, FRSP transfers, Lectern threads, responses to the fabric (R191 to
R199, R230 to R236, R239).
-/
namespace Sys2Proof.Machine
open Host

/-! ### The Chest (R230 to R233) -/

/-- The Chest set of a source die and TXID (R230; the hash is fixed in hardware and not stated). -/
def chestSet (src txid : Nat) : Nat := Config.chestHash src txid % 2048

def ChestEntry.isFor (e : ChestEntry) (src txid : Nat) : Bool := e.src == src && e.txid == txid

/-- The Chest entry of a source die and TXID. -/
def chestFind (src txid : Nat) (s : State) : Option ChestEntry := s.tx.chest.find? (fun e => e.isFor src txid)

/-- An entry becomes FREE. -/
def chestFree (src txid : Nat) (s : State) : State := updT (fun t => { t with chest := t.chest.filter (fun e => !e.isFor src txid) }) s

/-- Reserves an entry for a new atomic (R231): a FILLED one of the same source and TXID is freed first; none where the
set is full. -/
def chestReserve (src txid : Nat) (s : State) : Option State :=
  let s1 := chestFree src txid s
  if (s1.tx.chest.filter (fun e => chestSet e.src e.txid == chestSet src txid)).length < 16 then
    let s2 := updT (fun t => { t with chest := t.chest ++ [{ src := src, txid := txid }] }) s1
    some (peak atmSts 16 16 s2.tx.chest.length s2)
  else none

/-- The atomic of a RESERVED entry is answered (R231, R232): OK fills it, unless it has been released; any other code
frees it. -/
def chestSettle (src txid r : Nat) (data : List Byte) (s : State) : State :=
  match chestFind src txid s with
  | none => s
  | some e =>
    if r = 0 ∧ !e.released then
      let v := leNum (nats data)
      updT (fun t => { t with chest := t.chest.map (fun c =>
        if c.isFor src txid then { c with old := v % 2 ^ 64, casOk := v / 2 ^ 64 % 2 == 1, filled := some s.tick } else c) }) s
    else
      let t := chestFree src txid s
      if r = 0 then bump atmCntRel 0 16 t else t

/-- The result slot of an atomic (R221) as bytes. -/
def resultBytes (old : Nat) (casOk : Bool) : List Byte := bytesOf (leBytes 16 (old % 2 ^ 64 + bit casOk * 2 ^ 64))

/-- CHEST_AGE_EXPIRY (R232): a FILLED entry whose age has reached RETAIN becomes FREE. -/
def execChestAgeExpiry (src : BitVec 18) (txid : BitVec 20) (s : State) : Outcome State Fault Refusal :=
  match chestFind src.toNat txid.toNat s with
  | some e =>
    match e.filled with
    | some t => if s.acts && decide (t + effF s atmCtl 0 16 ≤ s.tick) then
        .next (bumpWrap atmCntExp 1 (chestFree src.toNat txid.toNat s)) else .next s
    | none => .next s
  | none => .next s

/-! ### ATOMIC_RELEASE (R222, R236) -/

/-- An ATOMIC_RELEASE is committed to its route; without one it is discarded and counted (R203). -/
def sendRelease (dst txid cls : Nat) (s : State) : State :=
  match route dst s with
  | .port p relay =>
    stage p relay { slots := [PktHdr.slot { opc := opAtomicRelease, src := s.die, dst := dst, cls := cls, txid := txid }] } s
  | .loop => s
  | .none => bump (glbTxCnt 6) 16 16 s

/-! ### FRSP (R32 to R34, R189, R223) -/

/-- The kind of response to a FREQ kind (R33). -/
def respKind (k : Nat) : Nat := if k = kRead then kReadData else if k = kAtomic then kAtomicResult else kCompletion

/-- An FRSP transfer waits for the host. -/
def pushFrsp (ip : Nat) (x : FrspXfer) (s : State) : State := updIp ip (fun y => { y with frsp := y.frsp ++ [x] }) s

/-- The response code of a FREQ whose packets have all been answered: that of the lowest-addressed that failed (R189). -/
def wholeResp (parts : List (Option (Nat × List Byte))) : Nat :=
  ((parts.filterMap id).find? (fun a => a.1 != 0)).elim 0 (·.1)

/-- A packet of a FREQ is answered; with the last one the FRSP is built (R189). -/
def freqAnswer (ip tag part r : Nat) (data : List Byte) (rel : Option (Nat × Nat × Nat)) (s : State) : State :=
  match (s.ip ip).freq.find? (fun f => f.tag == tag) with
  | none => s
  | some f =>
    let ps := f.parts.set part (some (r, data))
    let f1 := { f with parts := ps, counted := f.counted && !(ps.all (·.isSome) && (wholeResp ps == 6 || wholeResp ps == 7)) }
    let s1 := updIp ip (fun y => { y with freq := y.freq.map (fun g => if g.tag == tag then f1 else g) }) s
    if f1.parts.all (·.isSome) then
      let w := wholeResp f1.parts
      let all := (f1.parts.filterMap id).flatMap (·.2)
      let carries := (f.kind == kRead && (w == 0 || w == 3) && all.length == f.bytes) || (f.kind == kAtomic && w == 0)
      pushFrsp ip { tag := tag, kind := respKind f.kind, resp := w, addr := f.addr, die := f.die
                    bytes := if carries then all.length else 0, data := if carries then all else []
                    release := if w = 0 then rel else none, ready := s.cts } s1
    else s1

/-- An FRSP transfer has ended: its TAG is free again, and an atomic answered OK is released in the next cycle (R34, R236). -/
def frspEnds (ip : Nat) (x : FrspXfer) (s : State) : State :=
  let t := updIp ip (fun y => { y with freq := y.freq.filter (fun f => f.tag != x.tag) }) s
  match x.release with
  | some (d, i, c) => sendRelease d i c t
  | none => t

/-- The header beat of an FRSP transfer. -/
def FrspXfer.hdrBeat (x : FrspXfer) : BitVec 128 :=
  IpHdr.beat { kind := x.kind, tag := x.tag, bytes := x.bytes, addr := x.addr, die := x.die, resp := x.resp, poison := x.resp == 3 && x.bytes != 0 }

/-- The header beat presented is transferred; one that calls for no data ends its transfer. -/
def frspHeader (ip : Nat) (s : State) : State :=
  let y := s.ip ip
  match y.frspHeader, y.frsp with
  | some _, x :: xs =>
    let more := frspBeats x != 0
    let t := updIp ip (fun z => { z.clearStall 6 with
      frsp := xs, frspHeader := none, frspHdr := x.hdrBeat
      frspOut := z.frspOut.map (fun o => { o with ahead := o.ahead + 1 }) ++ (if more then [{ x := x, sent := s.cts }] else []) }) s
    if more then t else frspEnds ip x t
  | _, _ => s

/-- The data beat presented is transferred; the last one ends its transfer. -/
def frspData (ip : Nat) (s : State) : State :=
  let y := s.ip ip
  match y.frspBeat, y.frspOut with
  | some _, o :: os =>
    let value := frspValue o.x o.beats
    let last := decide (o.beats + 1 = frspBeats o.x)
    let t := updIp ip (fun z => { z.clearStall 7 with
      frspOut := if last then os else { o with beats := o.beats + 1 } :: os, frspBeat := none
      frspData := BitVec.ofNat 2048 value, frspPar := BitVec.ofNat 32 (dataPar value), frspLast := last }) s
    if last then frspEnds ip o.x t else t
  | _, _ => s

/-- FRSP_DELIVERY (R29, R30, R34, R236): the host takes the header beat, or the data beat, that FRSP presents. -/
def execFrspDelivery (ip : FrspBeat) (s : State) : Outcome State Fault Refusal :=
  if s.portsOpen then .next (if ip.data then frspData ip.ip (present ip.ip s) else frspHeader ip.ip (present ip.ip s)) else .next s

/-! ### Lectern threads (R239) -/

def thread0 (_ : Nat) : LThread := {}
def State.thread (s : State) (t : Nat) : LThread := tget thread0 s.tx.threads t
def setThread (t : Nat) (x : LThread) (s : State) : State := updT (fun u => { u with threads := tset thread0 u.threads t x }) s

/-- Eight threads run: in BOOT, TEST and recovery, and while a repair decision is executed; else thread 0 alone (R238). -/
def eightThreads (s : State) : Bool :=
  decide (s.bnd.adp = .boot ∨ s.bnd.adp = .test) || s.lect.recovery || decide (s.lect.decided = some s.cts)

/-- A thread's access is answered: the thread is ready with its RESP, and runs if the Lectern waits for want of one; an atomic
answered OK is released (R239). -/
def threadAnswer (t r : Nat) (data : List Byte) (rel : Option (Nat × Nat × Nat)) (s : State) : State :=
  let waits := (s.thread s.tx.current).parked
  let s0 := if waits then updT (fun u => { u with current := t, resumes := s.cts + 1 }) s else s
  let s1 := setThread t { parked := false, resp := some r, data := data } s0
  match rel with
  | some (d, x, c) => if r = 0 then sendRelease d x c s1 else s1
  | none => s1

/-! ### Finishing an access -/

/-- The answer of code `r` reaches the one who asked. `rel` names the atomic that its delivery releases. -/
def finish (c : Client) (r : Nat) (data : List Byte) (rel : Option (Nat × Nat × Nat)) (s : State) : State :=
  match c with
  | .remote q =>
    let s1 := if q.dup then s else settleTxid q.src q.txid r s
    respond q r data (if q.opc = opAtomic ∧ !q.dup then chestSettle q.src q.txid r data s1 else s1)
  | .freq ip tag part => freqAnswer ip tag part r data rel s
  | .thread t => threadAnswer t r data rel s
  | .chan _ _ => updT (fun t => { t with done := t.done ++ [{ client := c, resp := r, data := data }] }) s
  | .stream _ _ => updT (fun t => { t with done := t.done ++ [{ client := c, resp := r, data := data }] }) s
  | _ => s

/-- Bytes of no stated value, and the state past them (log 3). -/
def freeBytes (n : Nat) (s : State) : List Byte × State :=
  ((List.range n).map (fun i => BitVec.ofNat 8 (Config.freeValue (s.free + i))), { s with free := s.free + n })

/-! ### Mirror copies (R202) -/

/-- The payload of a WRITE of `data` at an address, with PART and the extent slot where its last byte ends no granule. -/
def writePayload (addr : Nat) (data : List Byte) : Bool × List Slot :=
  let part := (addr + data.length) % 16 != 0
  let body := slotsOf (addr % 16) data (granules addr data.length)
  (part, if part then BitVec.ofNat 128 data.length :: body else body)

/-- LEN of a WRITE with that many payload slots, modulo 256: 0 stands for 256, and of 257 it leaves 1 (R188, R189; log 34). -/
def lenField (n : Nat) : Nat := n % 256

/-- A new request waits for its commitment. -/
def submit (q : NewReq) (s : State) : State := updT (fun t => { t with waiting := t.waiting ++ [q] }) s

def mlag0 (_ : Nat) : Nat := 0

/-- A WRITE of `data` at `off` in the mirrored window `w` has been applied: its copy goes to MDIE (R202). -/
def mirrorCopy (w off : Nat) (data : List Byte) (hold : Option Nat) (s : State) : State :=
  let k := window w s
  let addr := k.mwin * 2 ^ 42 + off % 2 ^ 42
  let (part, body) := writePayload addr data
  let hdr : PktHdr := { opc := opWrite, len := lenField body.length, src := s.die, dst := k.mdie, cls := 7, part := part, mirror := true, addr := addr }
  let s1 := submit { dst := k.mdie, slots := hdr.slot :: body, client := .mirror w hold } s
  if hold.isNone then updT (fun t => { t with mlag := tmod mlag0 t.mlag w (· + 1) }) s1 else s1

/-- Answers wait for a mirror copy, under a number of their own. -/
def holdAnswers (as : List Answer) (s : State) : Nat × State :=
  (s.tx.nextHold, updT (fun t => { t with held := t.held ++ [(t.nextHold, as)], nextHold := t.nextHold + 1 }) s)

/-- A WRITE into window `w` has been applied with OK, and its requesters are to be answered: at once, or with MSYNC after
the copy's COMPLETION (R202, R226). -/
def answerMirrored (w host : Nat) (data : List Byte) (as : List Answer) (s : State) : State :=
  let k := window w s
  if k.mirEn then
    let off := host - k.host
    if k.msync then
      let (n, s1) := holdAnswers as s
      mirrorCopy w off data (some n) s1
    else as.foldl (fun t a => finish a.client a.resp a.data none t) (mirrorCopy w off data none s)
  else as.foldl (fun t a => finish a.client a.resp a.data none t) s

/-- A mirror copy is answered (R202, R394): the answers held for it go out; other than OK sets MERR and makes a record. -/
def mirrorAnswered (w : Nat) (hold : Option Nat) (r : Nat) (s : State) : State :=
  let k := window w s
  let s1 := if r = 0 then s else
    bump (winSts w) 17 1 (handOver (unitIp k.aff) (unitIp k.aff) .adapter 0x0206 .none (w + r * 256 + k.mdie * 2 ^ 32) s)
  match hold with
  | none => updT (fun t => { t with mlag := tmod mlag0 t.mlag w (· - 1) }) s1
  | some n =>
    match s1.tx.held.find? (fun h => h.1 == n) with
    | none => s1
    | some h => h.2.foldl (fun t a => finish a.client a.resp a.data none t)
        (updT (fun t => { t with held := t.held.filter (fun g => g.1 != n) }) s1)

end Sys2Proof.Machine
end

