-- ==== Sys2Proof/Machine/Float.lean ====
section
/-!
DEFINITION. Binary32 arithmetic of R218, R277, R278 and R288: exact computation on dyadic numbers and one
rounding at the end. A binary32 word is its 32-bit pattern as a natural number.
-/
namespace Sys2Proof.Machine

/-- The value of a floating pattern: not a number, an infinity, or (-1)^neg · mant · 2^ex. -/
inductive FVal where
  | nan
  | inf (neg : Bool)
  | fin (neg : Bool) (mant : Nat) (ex : Int)
deriving DecidableEq, Repr

/-- The shape of a binary floating type with an all-ones exponent for infinities and NaNs. -/
structure FShape where
  /-- exponent bits -/
  eb : Nat
  /-- fraction bits -/
  mb : Nat
deriving DecidableEq, Repr

/-- binary32, binary16 and bfloat16 (R272), and E5M2 (R273). -/
def shape32 : FShape := ⟨8, 23⟩
def shape16 : FShape := ⟨5, 10⟩
def shapeBf16 : FShape := ⟨8, 7⟩
def shapeE5m2 : FShape := ⟨5, 2⟩

/-- The exponent bias of a shape. -/
def FShape.bias (f : FShape) : Nat := 2 ^ (f.eb - 1) - 1

/-- The value of a pattern of shape `f`. -/
def fdecode (f : FShape) (w : Nat) : FVal :=
  let frac := w % 2 ^ f.mb
  let ex := (w >>> f.mb) % 2 ^ f.eb
  let neg := (w >>> (f.mb + f.eb)) % 2 = 1
  if ex = 2 ^ f.eb - 1 then (if frac = 0 then .inf neg else .nan)
  else if ex = 0 then .fin neg frac (1 - (f.bias : Int) - f.mb)
  else .fin neg (2 ^ f.mb + frac) ((ex : Int) - f.bias - f.mb)

/-- Floor division of a natural number by 2^k, as quotient and remainder, for any integer k. -/
def scaleDown (m : Nat) (k : Int) : Nat × Nat × Nat :=
  if k ≤ 0 then (m * 2 ^ (-k).toNat, 0, 1) else (m / 2 ^ k.toNat, m % 2 ^ k.toNat, 2 ^ k.toNat)

/-- The quotient of mant·2^ex by 2^unit rounded to nearest, ties to even. -/
def roundTo (mant : Nat) (ex unit : Int) : Nat :=
  let (q, r, d) := scaleDown mant (unit - ex)
  if 2 * r > d ∨ (2 * r = d ∧ q % 2 = 1) then q + 1 else q

/-- The exponent of the leading 1 of mant·2^ex (mant not 0). -/
def leadExp (mant : Nat) (ex : Int) : Int := (Nat.log2 mant : Int) + ex

/-- The exponent of the last place of a magnitude in shape `f`, subnormals included. -/
def FShape.unit (f : FShape) (mant : Nat) (ex : Int) : Int :=
  max (leadExp mant ex) (1 - (f.bias : Int)) - f.mb

/-- The pattern, without its sign, of the magnitude q·2^unit, q at most 2^(mb+1). -/
def FShape.pattern (f : FShape) (q : Nat) (unit : Int) : Nat :=
  -- q below 2^mb is subnormal and its unit is the least one; otherwise the hidden bit adds one to the exponent field
  let field := (unit + f.mb + f.bias - 1).toNat
  field * 2 ^ f.mb + q

/-- A dyadic magnitude rounded into shape `f`: the pattern and whether it overflowed to infinity. -/
def fround (f : FShape) (neg : Bool) (mant : Nat) (ex : Int) : Nat × Bool :=
  let sgn := if neg then 2 ^ (f.mb + f.eb) else 0
  if mant = 0 then (sgn, false)
  else
    let u := f.unit mant ex
    let q := roundTo mant ex u
    let p := f.pattern q u
    let infp := (2 ^ f.eb - 1) * 2 ^ f.mb
    if p ≥ infp then (sgn + infp, true) else (sgn + p, false)

/-- The canonical NaN of binary32 (R277, R218). -/
def nan32 : Nat := 0x7FC00000

/-- Positive infinity, or negative. -/
def inf32 (neg : Bool) : Nat := if neg then 0xFF800000 else 0x7F800000

/-- The value of a binary32 word. -/
def val32 (w : Nat) : FVal := fdecode shape32 w

/-- A value back into binary32 with its overflow flag. -/
def enc32 : FVal → Nat × Bool
  | .nan => (nan32, false)
  | .inf n => (inf32 n, false)
  | .fin n m e => fround shape32 n m e

/-- The signed coefficient of a finite value at exponent `e`, which is not above its own. -/
def coefAt (n : Bool) (m : Nat) (ex e : Int) : Int :=
  let c : Int := m * 2 ^ (ex - e).toNat
  if n then -c else c

/-- The exact sum of two values. A zero sum of operands of different sign is +0; −0 + −0 is −0 (R277). -/
def fvAdd : FVal → FVal → FVal
  | .nan, _ => .nan
  | _, .nan => .nan
  | .inf a, .inf b => if a = b then .inf a else .nan
  | .inf a, .fin .. => .inf a
  | .fin .., .inf b => .inf b
  | .fin n1 m1 e1, .fin n2 m2 e2 =>
    let e := min e1 e2
    let s := coefAt n1 m1 e1 e + coefAt n2 m2 e2 e
    if s = 0 then .fin (n1 && n2) 0 e
    else .fin (decide (s < 0)) s.natAbs e

/-- The negation of a value. -/
def fvNeg : FVal → FVal
  | .nan => .nan
  | .inf a => .inf (!a)
  | .fin n m e => .fin (!n) m e

/-- The exact product of two values. -/
def fvMul : FVal → FVal → FVal
  | .nan, _ => .nan
  | _, .nan => .nan
  | .inf a, .inf b => .inf (a != b)
  | .inf a, .fin n m _ => if m = 0 then .nan else .inf (a != n)
  | .fin n m _, .inf b => if m = 0 then .nan else .inf (n != b)
  | .fin n1 m1 e1, .fin n2 m2 e2 => .fin (n1 != n2) (m1 * m2) (e1 + e2)

/-- The quotient of two values to 96 extra bits, with a sticky last bit: exact for one rounding to binary32. -/
def fvDiv : FVal → FVal → FVal
  | .nan, _ => .nan
  | _, .nan => .nan
  | .inf _, .inf _ => .nan
  | .inf a, .fin n _ _ => .inf (a != n)
  | .fin n _ _, .inf b => .fin (n != b) 0 0
  | .fin n1 m1 e1, .fin n2 m2 e2 =>
    if m2 = 0 then (if m1 = 0 then .nan else .inf (n1 != n2))
    else
      let q := m1 * 2 ^ 96 / m2
      let r := m1 * 2 ^ 96 % m2
      .fin (n1 != n2) (2 * q + (if r = 0 then 0 else 1)) (e1 - e2 - 97)

/-- RN(a + b), RN(a − b), RN(a · b) and RN(a / b) on binary32 words, with the overflow flag (R277). An
infinite operand raises no overflow. -/
def fadd32 (a b : Nat) : Nat × Bool := enc32 (fvAdd (val32 a) (val32 b))
def fsub32 (a b : Nat) : Nat × Bool := enc32 (fvAdd (val32 a) (fvNeg (val32 b)))
def fmul32 (a b : Nat) : Nat × Bool := enc32 (fvMul (val32 a) (val32 b))
def fdiv32 (a b : Nat) : Nat × Bool := enc32 (fvDiv (val32 a) (val32 b))

/-- A key that orders the binary32 words that are no NaN, with −0 below +0. -/
def ordKey (w : Nat) : Int := if w ≥ 0x80000000 then -((w : Int) - 0x80000000) - 1 else w

/-- A binary32 word is a NaN. -/
def isNan32 (w : Nat) : Bool := decide (w % 0x80000000 > 0x7F800000)

/-- IEEE 754-2019 maximum and minimum: a NaN operand gives NaN (R278). -/
def fmax32 (a b : Nat) : Nat :=
  if isNan32 a || isNan32 b then nan32 else if ordKey a ≥ ordKey b then a else b
def fmin32 (a b : Nat) : Nat :=
  if isNan32 a || isNan32 b then nan32 else if ordKey a ≤ ordKey b then a else b

/-- IEEE 754-2019 maximumNumber and minimumNumber: a single NaN operand is ignored (R218). -/
def fmaxNum32 (a b : Nat) : Nat :=
  if isNan32 a then (if isNan32 b then nan32 else b) else if isNan32 b then a else fmax32 a b
def fminNum32 (a b : Nat) : Nat :=
  if isNan32 a then (if isNan32 b then nan32 else b) else if isNan32 b then a else fmin32 a b

/-! ### e^d and ln z, correctly rounded (R288)

Fixed-point numbers with 384 fractional bits; the error of the series lies far below the distance of any
binary32 argument's result from a rounding boundary (log 26). -/

/-- The fractional bits of the fixed-point numbers. -/
def fxBits : Nat := 384

/-- The Taylor sum of e^x for a signed fixed-point x, by `n` terms from term `k`. -/
def fxExpSum : Nat → Nat → Int → Int → Int → Int
  | 0, _, _, _, acc => acc
  | n + 1, k, x, term, acc =>
    let t := term * x / ((2 : Int) ^ fxBits) / k
    fxExpSum n (k + 1) x t (acc + t)

/-- Repeated squaring of a fixed-point number. -/
def fxSquares : Nat → Int → Int
  | 0, y => y
  | n + 1, y => fxSquares n (y * y / (2 : Int) ^ fxBits)

/-- e^d correctly rounded to binary32 (R288). -/
def fexp32 (d : Nat) : Nat :=
  match val32 d with
  | .nan => nan32
  | .inf neg => if neg then 0 else inf32 false
  | .fin neg m e =>
    if m = 0 then 0x3F800000
    else if leadExp m e ≥ 7 then (if neg then 0 else inf32 false)
    else if leadExp m e < -30 then 0x3F800000
    else
      -- |d| below 128: x = d / 512 as fixed point, then nine squarings; a positive d through its reciprocal
      let (a, _, _) := scaleDown m (-(e + fxBits - 9))
      let x : Int := -(a : Int)
      let s := fxSquares 9 (fxExpSum 90 1 x ((2 : Int) ^ fxBits) ((2 : Int) ^ fxBits))
      let y := s.toNat
      if neg then (fround shape32 false (2 * y + 1) (-(fxBits : Int) - 1)).1
      else (fround shape32 false (2 * (2 ^ (2 * fxBits) / (max y 1)) + 1) (-(fxBits : Int) - 1)).1

/-- The series t + t^3/3 + t^5/5 + …, by `n` terms. -/
def fxAtanhSum : Nat → Nat → Int → Int → Int → Int
  | 0, _, _, _, acc => acc
  | n + 1, k, t2, pw, acc => fxAtanhSum n (k + 2) t2 (pw * t2 / (2 : Int) ^ fxBits) (acc + pw / k)

/-- ln of num/den between 1 and 2 as fixed point. -/
def fxLn (num den : Nat) : Int :=
  let t : Int := ((num : Int) - den) * (2 : Int) ^ fxBits / ((num : Int) + den)
  2 * fxAtanhSum 140 1 (t * t / (2 : Int) ^ fxBits) t 0

/-- ln z correctly rounded to binary32, with LN(0) = −∞ (R288); of a negative number a free value. -/
def fln32 (z : Nat) : Nat :=
  match val32 z with
  | .nan => nan32
  | .inf neg => if neg then Config.lnNegative z % 2 ^ 32 else inf32 false
  | .fin neg m e =>
    if m = 0 then inf32 true
    else if neg then Config.lnNegative z % 2 ^ 32
    else
      let k := leadExp m e
      let base := 2 ^ Nat.log2 m
      if m = base ∧ k = 0 then 0
      else
        let v : Int := k * fxLn 2 1 + (if m = base then 0 else fxLn m base)
        (fround shape32 (decide (v < 0)) (2 * v.natAbs + 1) (-(fxBits : Int) - 1)).1

end Sys2Proof.Machine
end

