-- ==== Sys2Proof/Machine/Atomics.lean ====
section
/-!
DEFINITION. The atomic unit: operations, lanes and live words (08_atomics.md R217 to R229).
-/
namespace Sys2Proof.Machine
open Host

/-! ### Operations (R217, R218) -/

/-- AOP is defined. -/
def aopDefined (o : Nat) : Bool :=
  o == 0x01 || o == 0x02 || o == 0x03 || (decide (0x10 ≤ o) && decide (o ≤ 0x14)) || (decide (0x18 ≤ o) && decide (o ≤ 0x1C)) || o == 0x20 || o == 0x21

/-- The operation is a CAS. -/
def aopCas (o : Nat) : Bool := o == 0x20 || o == 0x21

/-- The operation works on a 64-bit word. -/
def aopWide (o : Nat) : Bool := o == 0x02 || o == 0x12 || o == 0x13 || o == 0x1A || o == 0x1B || o == 0x21

/-- The new value of a word and CAS_OK (R217), for a value and operands of its width. -/
def aopApply (o v a b : Nat) : Nat × Bool :=
  let w := if aopWide o then 64 else 32
  let lessS := decide (toInt w v < toInt w a)
  match o with
  | 0x01 => ((v + a) % 2 ^ 32, false)
  | 0x02 => ((v + a) % 2 ^ 64, false)
  | 0x03 => ((fadd32 v a).1, false)
  | 0x10 => (if lessS then v else a, false)
  | 0x12 => (if lessS then v else a, false)
  | 0x11 => (min v a, false)
  | 0x13 => (min v a, false)
  | 0x14 => (fminNum32 v a, false)
  | 0x18 => (if lessS then a else v, false)
  | 0x1A => (if lessS then a else v, false)
  | 0x19 => (max v a, false)
  | 0x1B => (max v a, false)
  | 0x1C => (fmaxNum32 v a, false)
  | _ => if v = a then (b, true) else (v, false)

/-- An atomic applied to the 8-byte value of its live word (R224): the new 8-byte value, the value returned, CAS_OK. -/
def applyAtom (x : Atom) (value : Nat) : Nat × Nat × Bool :=
  if aopWide x.aop then
    let (n, ok) := aopApply x.aop value (x.opa % 2 ^ 64) (x.opb % 2 ^ 64)
    (n, value, ok)
  else
    let sh := 2 ^ (8 * (x.addr % 8))
    let v := value / sh % 2 ^ 32
    let (n, ok) := aopApply x.aop v (x.opa % 2 ^ 32) (x.opb % 2 ^ 32)
    (value - v * sh + n % 2 ^ 32 * sh, v, ok)

/-! ### The lane (R224 to R229) -/

/-- The 8-byte-aligned host word of an atomic. -/
def Atom.word (x : Atom) : Nat := x.addr / 8 * 8

/-- An atomic is at its quad's lane. -/
def atLane (x : Atom) (s : State) : State := updALane (x.ip / 4) (fun l => { l with arrivals := l.arrivals ++ [x] }) s

def updWord (q h : Nat) (f : LiveWord → LiveWord) (s : State) : State :=
  updALane q (fun l => { l with words := l.words.map (fun w => if w.h == h then f w else w) }) s

/-- ATOMIC_LANE_ENTRY (R224, R229): the atomic at the front of its lane is queued on its live word, or makes its word live
with an HREQ READ of all 8 bytes; while all 64 entries are in use it waits. -/
def execAtomicLaneEntry (q : QuadId) (s : State) : Outcome State Fault Refusal :=
  let l := s.alane q
  if !s.acts then .next s else
  match l.arrivals with
  | [] => .next s
  | x :: xs =>
    if l.words.any (fun w => w.h == x.word) then
      .next (updWord q x.word (fun w => { w with queue := w.queue ++ [x] }) (updALane q (fun k => { k with arrivals := xs }) s))
    else if l.words.length < 64 then
      let s1 := updALane q (fun k => { k with arrivals := xs, full := false, words := k.words ++ [{ h := x.word, ip := x.ip, win := x.win, queue := [x] }] }) s
      .next (hostAccess x.ip { client := .atomRead q x.word, write := false, addr := x.word, bytes := 8, die := x.src, win := some x.win }
        (peak (atmHot q) 8 7 (l.words.length + 1) s1))
    else if l.full then .next s
    else .next (raise evAtm 5 (bump (atmHot q) 16 16 (updALane q (fun k => { k with full := true }) s)))

/-- The covering WRITE of a live word's present value (R225). -/
def coverWrite (q h : Nat) (s : State) : State :=
  match (s.alane q).words.find? (fun w => w.h == h) with
  | none => s
  | some w =>
    match w.value, w.applied.getLast? with
    | some v, some (x, _, _) =>
      hostAccess w.ip { client := .atomWrite q h, write := true, addr := h, bytes := 8, die := x.src, data := bytesOf (leBytes 8 v), win := some w.win }
        (updWord q h (fun y => { y with covered := y.applied, applied := [], writing := true }) s)
    | _, _ => s

/-- ATOMIC_APPLY (R224, R225): the lane applies one queued atomic; after the last one of its word the covering WRITE is
issued, unless one is outstanding. -/
def execAtomicApply (q : QuadId) (s : State) : Outcome State Fault Refusal :=
  if !s.acts then .next s else
  match (s.alane q).words.find? (fun w => w.value.isSome && !w.queue.isEmpty) with
  | none => .next s
  | some w =>
    match w.value, w.queue with
    | some v, x :: xs =>
      let (n, old, ok) := applyAtom x v
      let s1 := bumpWrap atmCntExec 1 (updWord q w.h (fun y => { y with value := some n, queue := xs, applied := y.applied ++ [(x, old, ok)] }) s)
      .next (if xs.isEmpty && !w.writing then coverWrite q w.h s1 else s1)
    | _, _ => .next s

/-- Atomics of a word are answered POISON (R228). -/
def poisonAtoms (xs : List Atom) (s : State) : State :=
  xs.foldl (fun t x => bump atmCntErr 16 16 (finish x.client 3 [] none t)) s

/-- The word stops being live. -/
def dropWord (q h : Nat) (s : State) : State := updALane q (fun l => { l with words := l.words.filter (fun w => w.h != h) }) s

/-- The READ of a live word is answered (R224, R228). -/
def wordRead (q h r : Nat) (data : List Byte) (s : State) : State :=
  match (s.alane q).words.find? (fun w => w.h == h) with
  | none => s
  | some w =>
    if r = 0 then updWord q h (fun y => { y with value := some (leNum (nats data)) }) s
    else raise evAtm 4 (poisonAtoms w.queue (dropWord q h s))

/-- The word stops being live; atomics still queued on it rest on no applied one, and make it live afresh. -/
def endWord (q : Nat) (w : LiveWord) (s : State) : State :=
  updALane q (fun l => { l with arrivals := w.queue ++ l.arrivals }) (dropWord q w.h s)

/-- The covering WRITE of a live word is answered (R225, R226, R228). -/
def wordWritten (q h r : Nat) (data : List Byte) (s : State) : State :=
  match (s.alane q).words.find? (fun w => w.h == h) with
  | none => s
  | some w =>
    if r = 0 then
      let as := w.covered.map (fun c => ({ client := c.1.client, resp := 0, data := resultBytes c.2.1 c.2.2 } : Answer))
      let s1 := answerMirrored w.win h data as (updWord q h (fun y => { y with covered := [], writing := false }) s)
      if w.applied.isEmpty then endWord q w s1 else coverWrite q h s1
    else raise evAtm 4 (poisonAtoms ((w.covered ++ w.applied).map (·.1)) (endWord q w s))

end Sys2Proof.Machine
end

