-- ==== Sys2Proof/Machine/FaultLog.lean ====
section
/-!
DEFINITION. The fault log: entering records in the order of R89, and emptying it (R396, R397).
-/
namespace Sys2Proof.Machine
open Host

/-- The order of events of R89: CTS, then source number, then code. -/
def FaultRec.before (a b : FaultRec) : Bool :=
  decide (a.cts < b.cts) || (a.cts == b.cts &&
    (decide (a.source < b.source) || (a.source == b.source && decide (a.code < b.code))))

/-- The first of the records in the order of R89, and the others in the order they stood. -/
def leastRec : FaultRec → List FaultRec → FaultRec × List FaultRec
  | r, [] => (r, [])
  | r, q :: qs =>
    if q.before r then ((leastRec q qs).1, r :: (leastRec q qs).2)
    else ((leastRec r qs).1, q :: (leastRec r qs).2)

/-- No entry of the ring holds a record after PORST_N. -/
def rec0 (_ : Nat) : Option FaultRec := none

/-- A record stored at WPTR (R397). -/
def storeRec (r : FaultRec) (f : FaultLog) : FaultLog :=
  { f with ring := tset rec0 f.ring f.wptr (some r), wptr := (f.wptr + 1) % 1024
           count := min (f.count + 1) 1024, poison := f.poison.filter (fun i => i != f.wptr) }

/-- Enters one record: it takes the next RECNO; in a full log it overwrites the oldest record or is not entered,
as POLICY says (R397). FAULT_RECORD is raised for a record entered (R396). -/
def enterRec (r0 : FaultRec) (s : State) : State :=
  let n := (s.flt.recno + 1) % 2 ^ 32
  let r := { r0 with recno := n }
  let t := { s with flt := { s.flt with recno := n, newest := some r } }
  if s.flt.count < 1024 then raise evTb 9 { t with flt := storeRec r t.flt }
  else if getF s fltCtl 0 1 = 0 then
    raise evTb 9 (raise evTb 10 (bump fltLost 0 32 { t with flt := storeRec r t.flt }))
  else raise evTb 10 (bump fltLost 0 32 t)

/-- Enters every held record, in the order of R89. -/
def enterAllHeld : Nat → State → State
  | 0, s => s
  | n + 1, s =>
    match s.flt.held with
    | [] => s
    | r :: rs =>
      enterAllHeld n (enterRec (leastRec r rs).1 { s with flt := { s.flt with held := (leastRec r rs).2 } })

/-- FAULT_LOG_ENTRY (R396): the first held record in the order of R89 is entered once the log has held it for 16 cc. -/
def execFaultLogEntry (s : State) : Outcome State Fault Refusal :=
  match s.flt.held with
  | [] => .next s
  | r :: rs =>
    if s.alive && decide ((leastRec r rs).1.cts + 16 ≤ s.cts) then
      .next (enterRec (leastRec r rs).1 { s with flt := { s.flt with held := (leastRec r rs).2 } })
    else .next s

/-- CLEAR empties the log and leaves RECNO, FLT_RECNO and FLT_LOST as they are (R397). -/
def clearLog (s : State) : State :=
  { s with flt := { s.flt with ring := [], poison := [], wptr := 0, count := 0 } }

end Sys2Proof.Machine
end

