-- ==== Sys2Proof/Machine/Formats.lean ====
section
/-!
DEFINITION. The Workbench formats: decoding to binary32 and encoding a result (10_workbench_arithmetic.md R272 to
R289; R304). Elements in scratch are natural numbers: binary32 patterns, or words of OR and AND.
-/
namespace Sys2Proof.Machine

/-! ### Format codes and packing (R272 to R274, R304) -/

/-- Format codes that name a format (R272). -/
def fmtDefined (f : Nat) : Bool := decide (f ≤ 0xC)
def isMx (f : Nat) : Bool := decide (5 ≤ f) && decide (f ≤ 0xA)
/-- Formats 0xB and 0xC: words of OR and AND. -/
def isWordFmt (f : Nat) : Bool := f == 0xB || f == 0xC

/-- Bits of an element. -/
def elemBits (f : Nat) : Nat :=
  match f with
  | 0 => 32 | 1 => 16 | 2 => 16 | 3 => 8 | 4 => 8 | 5 => 8 | 6 => 8 | 7 => 6 | 8 => 6 | 9 => 4 | 10 => 8 | 11 => 32 | _ => 64

/-- Bytes of an element outside the MX formats. -/
def elemSize (f : Nat) : Nat := elemBits f / 8
/-- Bytes of a group of 512 elements in an MX format (R274). -/
def groupBytes (f : Nat) : Nat := 16 + 64 * elemBits f

/-- CB(n): the bytes of `n` elements (R304). -/
def cb (f n : Nat) : Nat := if isMx f then (n + 511) / 512 * groupBytes f else n * elemSize f

/-- Bytes of an LSE_MERGE record (R287). -/
def recBytes (f dv : Nat) : Nat := (8 + dv * elemSize f + 15) / 16 * 16

/-! ### Element types (R273) -/

/-- The shape of a format's floating element; MXINT8 has none. -/
def elemShape (f : Nat) : FShape :=
  match f with
  | 0 => shape32 | 1 => shape16 | 2 => shapeBf16 | 3 => ⟨4, 3⟩ | 4 => shapeE5m2 | 5 => ⟨4, 3⟩ | 6 => shapeE5m2
  | 7 => ⟨3, 2⟩ | 8 => ⟨2, 3⟩ | _ => ⟨2, 1⟩

/-- The largest finite magnitude pattern. -/
def maxPattern (f : Nat) : Nat :=
  match f with
  | 0 => 0x7F7FFFFF | 1 => 0x7BFF | 2 => 0x7F7F | 3 => 0x7E | 4 => 0x7B | 5 => 0x7E | 6 => 0x7B | 7 => 0x1F | 8 => 0x1F | _ => 0x7

/-- EMAX of an MX element type (R273). -/
def emax (f : Nat) : Nat :=
  match f with
  | 5 => 8 | 6 => 15 | 7 => 4 | 8 => 2 | 9 => 2 | _ => 0

/-- The value of an element pattern without its block scale (R273, R275). -/
def elemVal (f w : Nat) : FVal :=
  if f = 0 ∨ f = 1 ∨ f = 2 ∨ f = 4 ∨ f = 6 then fdecode (elemShape f) w
  else if f = 10 then
    let k := toInt8 w
    .fin (decide (k < 0)) k.natAbs (-6)
  else
    let sh := elemShape f
    if (f = 3 ∨ f = 5) ∧ w % 128 = 127 then .nan
    else
      let ex := w / 2 ^ sh.mb % 2 ^ sh.eb
      let neg := w / 2 ^ (sh.mb + sh.eb) % 2 == 1
      if ex = 0 then .fin neg (w % 2 ^ sh.mb) (1 - (sh.bias : Int) - sh.mb)
      else .fin neg (2 ^ sh.mb + w % 2 ^ sh.mb) ((ex : Int) - sh.bias - sh.mb)
where
  /-- A byte in two's complement. -/
  toInt8 (w : Nat) : Int := if w % 256 < 128 then ((w % 256 : Nat) : Int) else ((w % 256 : Nat) : Int) - 256

/-- A value times 2^x, for a block scale. -/
def scaled (x : Int) : FVal → FVal
  | .fin n m e => .fin n m (e + x)
  | v => v

/-! ### Decoding (R274, R275) -/

/-- Element `j` of a byte string of packed elements of `w` bits: bits w·j + w - 1 to w·j of its number. -/
def bitField (v j w : Nat) : Nat := v / 2 ^ (w * j) % 2 ^ w

/-- A decoded element, and whether it overflowed (OVF of R275). -/
def decodeElem (f w : Nat) : Nat × Bool :=
  if f = 0 then (if isNan32 w then nan32 else w, false)
  else if isWordFmt f then (w, false)
  else enc32 (elemVal f w)

/-- An element of an MX block with scale byte `x8`. -/
def decodeMx (f x8 w : Nat) : Nat × Bool :=
  if x8 = 255 then (nan32, false) else enc32 (scaled ((x8 : Int) - 127) (elemVal f w))

/-- The elements of one MX group. -/
def decodeGroup (f n : Nat) (bs : List Nat) : List (Nat × Bool) :=
  let v := leNum (bs.drop 16)
  (List.range n).map (fun i => decodeMx f (bs.getD (i / 32) 0) (bitField v i (elemBits f)))

/-- The elements of consecutive MX groups. -/
def decodeGroups (f : Nat) : Nat → Nat → List Nat → List (Nat × Bool)
  | 0, _, _ => []
  | k + 1, n, bs => decodeGroup f (min n 512) (bs.take (groupBytes f)) ++ decodeGroups f k (n - 512) (bs.drop (groupBytes f))

/-- The `n` elements of a byte string in format `f`, each with its overflow flag (R274, R275). -/
def decodeElems (f n : Nat) (bs : List Nat) : List (Nat × Bool) :=
  if isMx f then decodeGroups f ((n + 511) / 512) n bs
  else
    let v := leNum bs
    (List.range n).map (fun i => decodeElem f (bitField v i (elemBits f)))

/-! ### Rounding (R280, R283) -/

/-- `seed16` of R286. -/
def seed16 (sid chunk elem : Nat) : Nat :=
  let m := 2 ^ 64
  let z := (sid * 2 ^ 32 + chunk) % m
  let z := z ^^^ (elem * 0x9E3779B97F4A7C15 % m)
  let z := (z ^^^ (z >>> 30)) * 0xBF58476D1CE4E5B9 % m
  let z := (z ^^^ (z >>> 27)) * 0x94D049BB133111EB % m
  (z ^^^ (z >>> 31)) % 65536

/-- The mode of element `i` counted from where the mode begins: its random number, if it draws one. -/
def RMode.draw (r : RMode) (i : Nat) : Option Nat :=
  match r with
  | .rne => none
  | .sr sid chunk e => some (seed16 sid chunk (e + i))

/-- The mode as it begins `n` elements later. -/
def RMode.after (r : RMode) (n : Nat) : RMode :=
  match r with
  | .rne => .rne
  | .sr sid chunk e => .sr sid chunk (e + n)

/-- A magnitude in units of 2^unit: by RNE, or by SR with the number drawn; and whether SR rounded it up. -/
def roundMag (draw : Option Nat) (mant : Nat) (ex unit : Int) : Nat × Bool :=
  match draw with
  | none => (roundTo mant ex unit, false)
  | some r =>
    let (q, rem, d) := scaleDown mant (unit - ex)
    if rem ≠ 0 ∧ 65536 ≤ 65536 * rem / d + r then (q + 1, true) else (q, false)

/-- What encoding counts (R281, R283, R297). -/
structure EncCount where
  ovf : Nat := 0
  sat : Nat := 0
  nonfin : Nat := 0
  srup : Nat := 0
  nan : Nat := 0
  deriving DecidableEq, Repr

def EncCount.add (a b : EncCount) : EncCount :=
  { ovf := a.ovf + b.ovf, sat := a.sat + b.sat, nonfin := a.nonfin + b.nonfin, srup := a.srup + b.srup, nan := a.nan + b.nan }

/-- The exponent of the last place of the top binade of an element type. -/
def topUnit (f : Nat) : Int :=
  let sh := elemShape f
  ((maxPattern f / 2 ^ sh.mb : Nat) : Int) - sh.bias - sh.mb

/-- A finite magnitude onto the grid of a floating element type (R280): its pattern without sign, whether it lies above the
largest finite value, and whether SR rounded it up. -/
def gridElem (f : Nat) (draw : Option Nat) (mant : Nat) (ex : Int) : Nat × Bool × Bool :=
  if mant = 0 then (0, false, false)
  else
    let sh := elemShape f
    let u := min (sh.unit mant ex) (topUnit f)
    let (q, up) := roundMag draw mant ex u
    let p := sh.pattern q u
    (p, decide (maxPattern f < p), up)

/-- A finite value onto the MXINT8 grid: k, whether saturated, whether rounded up. -/
def gridInt8 (draw : Option Nat) (neg : Bool) (mant : Nat) (ex : Int) : Nat × Bool × Bool :=
  let (q, up) := roundMag draw mant ex (-6)
  let k := min q 127
  ((if neg ∧ k ≠ 0 then 256 - k else k), decide (127 < q), up)

/-! ### Encoding an element (R280, R281) -/

/-- The sign bit of a format's element. -/
def signOf (f : Nat) (neg : Bool) : Nat := if neg then 2 ^ (elemBits f - 1) else 0

/-- A finite value into an element, saturating or overflowing as R281 gives. -/
def encFin (f : Nat) (draw : Option Nat) (neg : Bool) (mant : Nat) (ex : Int) : Nat × EncCount :=
  if f = 10 then
    let (k, sat, up) := gridInt8 draw neg mant ex
    (k, { sat := bit1 sat, srup := bit1 up })
  else
    let (p, exceeded, up) := gridElem f draw mant ex
    if exceeded then
      if f = 1 ∨ f = 2 then
        ((2 ^ (elemShape f).eb - 1) * 2 ^ (elemShape f).mb + signOf f neg, { ovf := 1, srup := bit1 up })
      else (maxPattern f + signOf f neg, { sat := 1, srup := bit1 up })
    else (p + signOf f neg, { srup := bit1 up })
where
  /-- A flag as a number. -/
  bit1 (b : Bool) : Nat := if b then 1 else 0

/-- A binary32 word into an element of a format without scales (R280, R281). -/
def encElem (f : Nat) (draw : Option Nat) (w : Nat) : Nat × EncCount :=
  if f = 0 then (if isNan32 w then nan32 else w, {})
  else if isWordFmt f then (w, {})
  else match val32 w with
    | .fin n m e => encFin f draw n m e
    | .inf n =>
      if f = 3 then (0x7F + signOf f n, { nonfin := 1 })
      else ((2 ^ (elemShape f).eb - 1) * 2 ^ (elemShape f).mb + signOf f n, {})
    | .nan => ((if f = 1 then 0x7E00 else if f = 2 then 0x7FC0 else if f = 3 then 0x7F else 0x7E), {})

/-! ### Encoding MX blocks (R281, R282) -/

/-- The exponent of the leading 1 of the largest finite magnitude of a block, if any is not 0. -/
def blockTop (ws : List Nat) : Option Int :=
  ws.foldl (fun a w => match val32 w with
    | .fin _ m e => if m = 0 then a else some (match a with | some x => max x (leadExp m e) | none => leadExp m e)
    | _ => a) none

/-- The scale exponent X of a block (R282). -/
def blockScale (f : Nat) (ws : List Nat) : Int :=
  match blockTop ws with
  | none => -127
  | some t => max (-127) (min 127 (t - emax f))

/-- A value the format cannot carry: every NaN and, but for MXFP8_E5M2, every infinity (R281). -/
def uncarried (f w : Nat) : Bool :=
  match val32 w with | .nan => true | .inf _ => f != 6 | _ => false

/-- A block: its scale byte, its elements, what it counts. `m` begins at the block's first element. -/
def encBlock (f : Nat) (m : RMode) (ws : List Nat) : Nat × List Nat × EncCount :=
  let bad := (ws.filter (uncarried f)).length
  if bad ≠ 0 then (255, ws.map (fun _ => 0), { nonfin := bad })
  else
    let x := blockScale f ws
    let es := ws.zipIdx.map (fun e => match val32 e.1 with
      | .fin n mt ex => encFin f (m.draw e.2) n mt (ex - x)
      | .inf n => (0x7C + signOf f n, {})
      | .nan => (0, {}))
    ((x + 127).toNat, es.map (·.1), es.foldl (fun a e => a.add e.2) {})

/-- Elements put side by side, `w` bits each, the first lowest. -/
def packBits (w : Nat) (es : List Nat) : Nat := es.foldr (fun e a => a * 2 ^ w + e % 2 ^ w) 0

/-- Pieces of `n` elements. -/
def chunksOf (n : Nat) : Nat → List Nat → List (List Nat)
  | 0, _ => []
  | k + 1, l => if l.isEmpty then [] else l.take n :: chunksOf n k (l.drop n)

/-- One group of at most 512 elements: its bytes and counts (R274). -/
def encGroup (f : Nat) (m : RMode) (ws : List Nat) : List Nat × EncCount :=
  let blocks := (chunksOf 32 16 ws).zipIdx.map (fun b => encBlock f (m.after (32 * b.2)) b.1)
  let scales := blocks.map (·.1)
  let els := blocks.flatMap (·.2.1)
  (scales ++ List.replicate (16 - scales.length) 0 ++ leBytes (64 * elemBits f) (packBits (elemBits f) els),
   blocks.foldl (fun a b => a.add b.2.2) {})

/-- Binary32 words, or words of OR and AND, into a format (R274, R280 to R283): bytes and counts. -/
def encodeElems (f : Nat) (m : RMode) (ws : List Nat) : List Nat × EncCount :=
  if isMx f then
    let gs := (chunksOf 512 (ws.length + 1) ws).zipIdx.map (fun g => encGroup f (m.after (512 * g.2)) g.1)
    (gs.flatMap (·.1), gs.foldl (fun a g => a.add g.2) {})
  else
    let es := ws.zipIdx.map (fun e => encElem f (m.draw e.2) e.1)
    (leBytes (ws.length * elemSize f) (packBits (elemBits f) (es.map (·.1))), es.foldl (fun a e => a.add e.2) {})

/-! ### Operations (R276 to R279) -/

/-- Operations. -/
def ropSum : Nat := 0
def ropLse : Nat := 5
def ropConvert : Nat := 6

/-- The table of R276: a contribution format and an output format that an operation admits. -/
def admits (rop inf out : Nat) : Bool :=
  match rop with
  | 3 => isWordFmt inf && inf == out
  | 4 => isWordFmt inf && inf == out
  | 5 => decide (inf ≤ 2) && decide (out ≤ 2)
  | 7 => false
  | _ => decide (rop ≤ 6) && decide (inf ≤ 0xA) && decide (out ≤ 0xA)

/-- One element combined into the accumulator, with OVF (R277 to R279). -/
def combine1 (rop acc x : Nat) : Nat × Bool :=
  match rop with
  | 1 => (fmax32 acc x, false)
  | 2 => (fmin32 acc x, false)
  | 3 => (acc ||| x, false)
  | 4 => (acc &&& x, false)
  | _ => fadd32 acc x

/-! ### LSE_MERGE (R287 to R289) -/

/-- A record in scratch: m, s and the O elements. -/
structure Lse where
  m : Nat
  s : Nat
  o : List Nat
  deriving DecidableEq, Repr

/-- Records of a contribution (R287), as words: m, s, then O, for each record; and how many elements overflowed. -/
def decodeRecs (f dv : Nat) : Nat → List Nat → List Nat
  | 0, _ => []
  | n + 1, bs =>
    let r := bs.take (recBytes f dv)
    [leNum (r.take 4), leNum ((r.drop 4).take 4)].map (fun w => if isNan32 w then nan32 else w) ++
      (decodeElems f dv (r.drop 8)).map (·.1) ++ decodeRecs f dv n (bs.drop (recBytes f dv))

/-- The factor of one record in a merge. -/
def lseFactor (am m : Nat) : Nat := if am = inf32 true then 0 else fexp32 (fsub32 am m).1

/-- `merge` of R288 on records as words, with the overflows. Under a maximum of +∞ or NaN the whole record becomes NaN, and with both
maxima −∞ the result is (−∞, 0, 0), as the rule's last sentences say. -/
def mergeRec (a b : List Nat) : List Nat × Nat :=
  let m := fmax32 (a.getD 0 0) (b.getD 0 0)
  if m = inf32 false ∨ isNan32 m then (a.map (fun _ => nan32), 0)
  else if m = inf32 true then (m :: (a.drop 1).map (fun _ => 0), 0)
  else
  let al := lseFactor (a.getD 0 0) m
  let be := lseFactor (b.getD 0 0) m
  let rest := List.zipWith (fun x y => fadd32 (fmul32 al x).1 (fmul32 be y).1) (a.drop 1) (b.drop 1)
  (m :: rest.map (·.1), (rest.filter (·.2)).length)

/-- Segments of records merged record by record. -/
def mergeRecs (w : Nat) : Nat → List Nat → List Nat → List Nat × Nat
  | 0, _, _ => ([], 0)
  | n + 1, a, b =>
    let (r, o) := mergeRec (a.take w) (b.take w)
    let (rs, os) := mergeRecs w n (a.drop w) (b.drop w)
    (r ++ rs, o + os)

/-- A record in NORM, with the overflows (R289). -/
def normRec (r : List Nat) : List Nat × Nat :=
  let s := r.getD 1 0
  if s % 0x80000000 = 0 then (inf32 true :: s :: (r.drop 2).map (fun _ => 0), 0)
  else
    let m := fadd32 (r.getD 0 0) (fln32 s)
    let os := (r.drop 2).map (fun o => fdiv32 o s)
    (m.1 :: s :: os.map (·.1), ((m :: os).filter (·.2)).length)

/-- Records written out: m and s as binary32, O in the format, padded (R287, R289). -/
def encodeRecs (f dv : Nat) (norm : Bool) : Nat → RMode → List Nat → List Nat × EncCount
  | 0, _, _ => ([], {})
  | n + 1, md, ws =>
    let raw := ws.take (2 + dv)
    let (r, ovf) := if norm then normRec raw else (raw, 0)
    let (body, c) := encodeElems f md (r.drop 2)
    let extra := (r.filter isNan32).length - (raw.filter isNan32).length
    let (rest, cs) := encodeRecs f dv norm n (md.after dv) (ws.drop (2 + dv))
    ((leBytes 4 (r.getD 0 0) ++ leBytes 4 (r.getD 1 0) ++ body ++ List.replicate (recBytes f dv - 8 - body.length) 0) ++ rest,
     ({ c with nan := extra, ovf := c.ovf + ovf } : EncCount).add cs)

/-! ### Segments -/

/-- A contribution decoded to words, with the overflows met (R275, R287). -/
def SegOp.decode (k : SegOp) (fmt : Nat) (bs : List Nat) : List Nat × Nat :=
  if k.rop = ropLse then (decodeRecs fmt k.dv k.n bs, 0)
  else
    let es := decodeElems fmt k.n bs
    (es.map (·.1), (es.filter (·.2)).length)

/-- A contribution folded into the accumulator, with the overflows met (R277, R288). -/
def SegOp.fold (k : SegOp) (acc x : List Nat) : List Nat × Nat :=
  if k.rop = ropLse then mergeRecs (2 + k.dv) k.n acc x
  else
    let r := List.zipWith (combine1 k.rop) acc x
    (r.map (·.1), (r.filter (·.2)).length)

/-- The encoded result (R280, R289). -/
def SegOp.encode (k : SegOp) (acc : List Nat) : List Nat × EncCount :=
  if k.rop = ropLse then encodeRecs k.out k.dv k.norm k.n k.mode acc else encodeElems k.out k.mode acc

/-- Elements of an accumulator that are NaN (R295); words of OR and AND are no numbers. -/
def SegOp.nans (k : SegOp) (acc : List Nat) : Nat := if k.rop = 3 ∨ k.rop = 4 then 0 else (acc.filter isNan32).length

/-- Bytes of the segment in a format. -/
def SegOp.bytesIn (k : SegOp) (fmt : Nat) : Nat := if k.rop = ropLse then k.n * recBytes fmt k.dv else cb fmt k.n

end Sys2Proof.Machine
end

