-- ==== Sys2Proof/Machine/Host.lean ====
section
/-!
DEFINITION. Host accesses answered, and the host's FREQ (02_host_boundary.md R33 to R36; R189, R202, R210, R237).
-/
namespace Sys2Proof.Machine
open Host

/-! ### A host access ends (R33 to R36, R193, R202) -/

/-- A WRITE into a window that is to be mirrored, and its answer. -/
def writeDone (r : HostReq) (code : Nat) (s : State) : State :=
  match r.win with
  | some w => if code = 0 then answerMirrored w r.addr r.data [{ client := r.client, resp := 0 }] s else finish r.client code [] none s
  | none => finish r.client code [] none s

/-- The access is answered with `code` and, for a READ, data. A fabric WRITE whose rest was discarded leaves its TXID
OPEN and is not answered (R193); one that carried poison is answered POISON whatever the host said (R492). A READ that
failed before its data came has data of no stated value (R192). -/
def complete (r : HostReq) (code : Nat) (data : List Byte) (s : State) : State :=
  match r.client with
  | .atomRead q h => wordRead q h code data s
  | .atomWrite q h => wordWritten q h code r.data s
  | .remote q =>
    if r.write then
      if r.cut then (if q.dup then s else settleTxid q.src q.txid 4 s)
      else writeDone r (if r.poison then 3 else code) s
    else if code = 3 ∧ data.length ≠ r.bytes then
      let (bs, t) := freeBytes r.bytes s
      finish r.client 3 bs none t
    else finish r.client code data none s
  | _ =>
    if r.write then writeDone r (if r.poison then 3 else code) s
    else if code = 3 ∧ data.length ≠ r.bytes then
      let (bs, t) := freeBytes r.bytes s
      finish r.client 3 bs none t
    else finish r.client code data none s

/-- Data beats of the WRITE with a TAG remain. -/
def sendsOn (x : InnerPort) (tag : Nat) : Bool := x.sending.any (fun e => e.1 == tag)

/-- The access leaves the outstanding ones; a WRITE whose data beats remain stays until the last has gone. -/
def retire (ip : Nat) (r : HostReq) (s : State) : State :=
  updIp ip (fun x =>
    if sendsOn x r.tag && r.write then { x with busy := x.busy.map (fun q => if q.tag == r.tag then { q with answered := true } else q) }
    else { x with busy := x.busy.filter (fun q => q.tag != r.tag) }) s

/-- The outstanding access with a TAG. -/
def outstanding (ip tag : Nat) (s : State) : Option HostReq := (s.ip ip).busy.find? (fun r => r.tag == tag && !r.answered)

/-- The code of an access that timed out: POISON (R35); a DMA channel tells a timeout from a POISON answer (R330). -/
def lateCode (r : HostReq) : Nat := match r.client with | .chan _ _ => 7 | _ => 3

/-- No response in time (R35): POISON toward the requester, the TAG in quarantine. -/
def timeOut (ip : Nat) (r : HostReq) (s : State) : State :=
  let s1 := raise (evQd (ip / 4)) 3 (bump (qdIpErrcnt ip) 16 16 s)
  complete r (lateCode r) [] (updIp ip (fun x => { x with quar := x.quar ++ [(r.tag, r.sent + 4096)] }) (retire ip r s1))

/-- HREQ_TIMEOUT (R35): no HRSP header has come in time. -/
def coreHreqTimeout (ip : IpId) (tag : Tag) (s : State) : Outcome State Fault Refusal :=
  match outstanding ip tag.toNat s with
  | some r => if s.acts && !r.coming && decide (r.sent + 4096 ≤ s.cts) then .next (timeOut ip r s) else .next s
  | none => .next s

/-- Events of an inner port's quad, with their counters (R64, R65). -/
def ipParity (ip e : Nat) (s : State) : State := raise (evQd (ip / 4)) e (bump (qdIpErrcnt ip) 0 16 s)
def ipMalformed (ip : Nat) (s : State) : State := raise (evQd (ip / 4)) 2 (bump (qdIpErrcnt2 ip) 0 16 s)
def ipLate (ip e : Nat) (s : State) : State := raise (evQd (ip / 4)) e (bump (qdIpErrcnt2 ip) 16 16 s)

/-- A response for an outstanding access (R33): its KIND, BYTES and DLAST must answer it. Of several errors in one response the first of
these counts alone, since the rules give no order: KIND, BYTES and DLAST; then DPAR; then RESP (log 107). -/
def hrspFor (ip : Nat) (r : HostReq) (h : IpHdr) (beats : List Beat) (s : State) : State :=
  let fits := if r.write then h.kind == kCompletion && h.bytes == 0
    else h.kind == kReadData && h.bytes == r.bytes && beats.length == beatCount r.addr r.bytes && lastOk beats
  if !fits then ipMalformed ip (updIp ip (fun x => { x with busy := x.busy.map (fun q => if q.tag == r.tag then { q with coming := false } else q) }) s)
  else
    let s1 := retire ip r s
    if !beatsParOk beats then complete r 3 [] (ipParity ip 1 s1)
    else
      let data := xferBytes r.addr r.bytes beats
      let code := if h.resp = 0 ∧ !h.poison then 0 else 3
      complete r code data (if h.resp = 0 ∨ h.resp = 3 then s1 else ipMalformed ip s1)

/-- An HRSP transfer has come whole (R33, R36). -/
def hrspEnds (ip : Nat) (beat : BitVec 128) (beats : List Beat) (s : State) : State :=
  let h := IpHdr.ofBeat beat
  if !headerParOk beat then s
  else match outstanding ip h.tag s with
    | some r => hrspFor ip r h beats s
    | none =>
      if (s.ip ip).quar.any (fun q => q.1 == h.tag) then
        ipLate ip 4 (updIp ip (fun x => { x with quar := x.quar.filter (fun q => q.1 != h.tag) }) s)
      else ipLate ip 5 s

/-- Data beats belong to a header: not to a READ, a COMPLETION or one whose BYTES is 0 (R32, R33). Of a header whose parity is bad, too,
its fields as they came say so (log 107). -/
def ownsData (beat : BitVec 128) : Bool :=
  let h := IpHdr.ofBeat beat
  h.kind != kRead && h.kind != kCompletion && h.bytes != 0

/-- A header beat comes on HRSP: one of bad parity is reported and answers nothing; one in time keeps its request from the timeout
until its data has come, and one too late finds it timed out (R33, R35). -/
def hrspHeader (ip : Nat) (beat : BitVec 128) (s0 : State) : State :=
  let h := IpHdr.ofBeat beat
  let good := headerParOk beat
  let s := if !good then ipParity ip 0 s0
    else match outstanding ip h.tag s0 with
      | some r => if r.sent + 4096 ≤ s0.cts then timeOut ip r s0 else s0
      | none => s0
  if ownsData beat then
    updIp ip (fun x => { x with
      hrspIn := x.hrspIn ++ [(beat, [])]
      busy := if good then x.busy.map (fun q => if q.tag == h.tag then { q with coming := true } else q) else x.busy }) s
  else hrspEnds ip beat [] s

/-- A data beat comes on HRSP: it belongs to the first header that awaits data, and with DLAST ends its transfer (R30, R33). -/
def hrspBeat (ip : Nat) (s : State) (b : Beat) : State :=
  match (s.ip ip).hrspIn with
  | [] => s
  | (h, bs) :: rest =>
    if b.last then hrspEnds ip h (bs ++ [b]) (updIp ip (fun x => { x.clearStall 3 with hrspIn := rest }) s)
    else updIp ip (fun x => { x.clearStall 3 with hrspIn := (h, bs ++ [b]) :: rest }) s

/-- Beats come on HRSP: a header beat, if HREADY is 1, and the data beats, of which those that no header awaits are not taken; a beat
that is taken ends the wait of its sub-channel (R30, R33, R37). -/
def hrsp (ip : Nat) (hdr : Option (BitVec 128)) (beats : List Beat) (s : State) : State :=
  let t := match hdr with
    | some h => (if readyFor ip s .hrsp false then hrspHeader ip h (updIp ip (fun x => x.clearStall 2) s) else s)
    | none => s
  beats.foldl (hrspBeat ip) t

/-! ### Accesses to this die's own windows (R193, R210) -/

/-- The outcome of the window checks for address `a` and a source group (R193): the window, or the code of the answer. -/
def checkWindow (a group : Nat) (mirror atomic : Bool) (s : State) : Nat ⊕ (Nat × Nat) :=
  let found : Option (Nat × Nat) :=
    if mirror then
      let w := a / 2 ^ 42 % 64
      let at_ := (window w s).base + a % 2 ^ 42
      if (window w s).holds at_ then some (w, at_) else none
    else (windowOf a s).map (fun w => (w, a))
  match found with
  | none => .inl 1
  | some (w, at_) =>
    let k := window w s
    if k.perm / 2 ^ group % 2 = 0 then .inl 2
    else if atomic && !k.atomEn then .inl 2
    else .inr (w, (k.host + (at_ - k.base)) % 2 ^ 48)

/-- The operand block of an atomic is well formed for its word (R220); `b` holds its 32 bytes, or the first 16 and zeros. -/
def operandOk (addr b : Nat) : Bool :=
  let o := b % 256
  aopDefined o && decide (b / 256 % 2 ^ 56 = 0) && decide (b / 2 ^ 192 = 0) && (aopCas o || decide (b / 2 ^ 128 = 0)) &&
    decide (addr % (if aopWide o then 8 else 4) = 0)

/-- An atomic from its operand block. -/
def atomOf (c : Client) (src b addr ip win : Nat) : Atom :=
  { client := c, src := src, aop := b % 256, opa := b / 2 ^ 64 % 2 ^ 64, opb := b / 2 ^ 128 % 2 ^ 64, addr := addr, ip := ip, win := win }

/-- An access of this die to its own windows, without fabric and TXID (R210, R223): opcode, address, bytes or data. -/
def localAccess (c : Client) (opc addr bytes : Nat) (data : List Byte) (mirror : Bool) (s : State) : State :=
  let atomic := opc == opAtomic
  if atomic && !operandOk addr (leNum (nats data)) then finish c 8 [] none (bump (glbTxCnt 2) 16 16 s)
  else match checkWindow addr (groupOf s.die s) mirror atomic s with
    | .inl r => finish c r [] none s
    | .inr (w, host) =>
      let k := window w s
      if atomic then atLane (atomOf c s.die (leNum (nats data)) host k.aff w) s
      else hostAccess k.aff { client := c, write := opc == opWrite, addr := host, bytes := bytes, die := s.die, data := data
                              ready := s.cts, win := if mirror then none else some w, seq := k.ord } s

/-! ### FREQ (R33, R34, R189, R237) -/

/-- The parts of a FREQ cut at a 4 KiB boundary: address and bytes of each (R189). -/
def cutParts (addr bytes : Nat) : List (Nat × Nat) :=
  let room := 4096 - addr % 4096
  if bytes ≤ room then [(addr, bytes)] else [(addr, room), ((addr + room) % 2 ^ 48, bytes - room)]

/-- The request packet of one part (R187 to R190, R220): class TC1. -/
def freqPacket (kind addr bytes dst src : Nat) (data : List Byte) : List Slot :=
  if kind = kWrite then
    let (part, body) := writePayload addr data
    PktHdr.slot { opc := opWrite, len := lenField body.length, src := src, dst := dst, cls := 1, part := part, addr := addr } :: body
  else if kind = kRead then
    [PktHdr.slot { opc := opRead, len := 1, src := src, dst := dst, cls := 1, addr := addr }, BitVec.ofNat 128 bytes]
  else
    let n := if aopCas (leNum (nats data) % 256) then 2 else 1
    PktHdr.slot { opc := opAtomic, len := n, src := src, dst := dst, cls := 1, addr := addr } :: slotsOf 0 data n

/-- A FREQ answered by the inner port itself, without data (R33). -/
def freqRefuse (ip : Nat) (h : IpHdr) (r : Nat) (s : State) : State :=
  pushFrsp ip { tag := h.tag, kind := respKind h.kind, resp := r, addr := h.addr, bytes := 0, die := h.die }
    (updIp ip (fun x => { x with freq := x.freq ++ [{ tag := h.tag, kind := h.kind, addr := h.addr, bytes := h.bytes, die := h.die, parts := [] }] }) s)

/-- A FREQ accepted: its parts become requests, or accesses to this die's own windows (R189, R210). -/
def freqAccept (ip : Nat) (h : IpHdr) (data : List Byte) (s : State) : State :=
  let parts := if h.kind = kAtomic then [(h.addr, 32)] else cutParts h.addr h.bytes
  let s1 := updIp ip (fun x => { x with freq := x.freq ++ [{ tag := h.tag, kind := h.kind, addr := h.addr, bytes := h.bytes, die := h.die,
                                                             parts := parts.map (fun _ => none) }] }) s
  parts.zipIdx.foldl (fun t e =>
    let (a, n) := e.1
    let bs := if h.kind = kAtomic then data else if e.2 = 0 then data.take n else data.drop (h.bytes - n)
    let c := Client.freq ip h.tag e.2
    if h.die = t.die then localAccess c h.kind a n bs false t
    else submit { dst := h.die, slots := freqPacket h.kind a n h.die t.die bs, client := c } t) s1

/-- A FREQ transfer has come whole (R33). Of several errors in one transfer the first of these counts alone, since the table gives no
order: a TAG in use; KIND, BYTES and DLAST; DPAR (log 107). -/
def freq (ip : Nat) (beat : BitVec 128) (beats : List Beat) (s : State) : State :=
  let h := IpHdr.ofBeat beat
  if !headerParOk beat then s
  else if (s.ip ip).freq.any (fun f => f.tag == h.tag) then ipMalformed ip s
  else
    let want := if h.kind = kWrite then beatCount h.addr h.bytes else if h.kind = kAtomic then 1 else 0
    let kindOk := (h.kind == kWrite || h.kind == kRead) && decide (1 ≤ h.bytes) && decide (h.bytes ≤ 4096) || h.kind == kAtomic && h.bytes == 32
    if !kindOk || beats.length != want || !lastOk beats then freqRefuse ip h 8 (ipMalformed ip s)
    else if !beatsParOk beats then freqRefuse ip h 8 (ipParity ip 1 s)
    else if h.poison then freqRefuse ip h 3 s
    else
      let data := if h.kind = kAtomic then (beats.flatMap beatBytes).take 32 else xferBytes h.addr h.bytes beats
      freqAccept ip h data s

/-- A header beat comes on FREQ: one of bad parity is reported (R33). -/
def freqHeader (ip : Nat) (beat : BitVec 128) (s0 : State) : State :=
  let s := if headerParOk beat then s0 else ipParity ip 0 s0
  if ownsData beat then updIp ip (fun x => { x with freqIn := x.freqIn ++ [(beat, [])] }) s else freq ip beat [] s

/-- A data beat comes on FREQ: it belongs to the first header that awaits data, and with DLAST ends its transfer (R30, R33). -/
def freqBeat (ip : Nat) (s : State) (b : Beat) : State :=
  match (s.ip ip).freqIn with
  | [] => s
  | (h, bs) :: rest =>
    if b.last then freq ip h (bs ++ [b]) (updIp ip (fun x => { x.clearStall 5 with freqIn := rest }) s)
    else updIp ip (fun x => { x.clearStall 5 with freqIn := (h, bs ++ [b]) :: rest }) s

/-- FREQ_TRANSFER (R30, R33, R34, R422): beats come on FREQ, a header beat if HREADY is 1, and the data beats, of which those that no
header awaits are not taken. -/
def execFreqTransfer (ip : IpId) (hdr : Option (BitVec 128)) (beats : List Beat) (s : State) : Outcome State Fault Refusal :=
  if !s.portsOpen then .next s
  else
    let t := match hdr with
      | some h => (if readyFor ip s .freq false then freqHeader ip h (updIp ip (fun x => x.clearStall 4) s) else s)
      | none => s
    .next (beats.foldl (freqBeat ip) t)

end Sys2Proof.Machine
end

