-- ==== Sys2Proof/Machine/Source.lean ====
section
/-!
DEFINITION. The source side of the transaction layer: commitment, answers, retries, fences, lost ports and relays
(07_transactions.md R194, R198, R199, R203 to R211; R239).
-/
namespace Sys2Proof.Machine
open Host

/-! ### Fences (R211) -/

def fence0 (_ : Nat) : Fence := {}
def getFence (s : State) (i : Nat) : Fence := tget fence0 s.tx.fences i
def setFence (i : Nat) (f : Fence) (s : State) : State := updT (fun t => { t with fences := tset fence0 t.fences i f }) s

/-- TXID `x` comes before the mark `m` of a fence. -/
def beforeMark (x m : Nat) : Bool := decide (0 < (m + 2 ^ 20 - x) % 2 ^ 20) && decide ((m + 2 ^ 20 - x) % 2 ^ 20 ≤ 2 ^ 19)

/-- A fence waits for WRITE, REDUCE and ATOMIC. -/
def fenced (opc : Nat) : Bool := opc == opWrite || opc == opReduce || opc == opAtomic

/-- A fence on `d` starts, recording NEXT_TXID; without a pair entry it has completed with OK. -/
def startFence (i d : Nat) (s : State) : State :=
  match getSrc s d with
  | some k => setFence i { dst := d, busy := true, mark := k.next, result := (getFence s i).result } s
  | none => setFence i { dst := d, busy := false, result := 0 } s

/-- Every running fence on `d` notes an answer other than OK of an earlier TXID, keeping the lowest. -/
def noteFences (d txid r : Nat) (s : State) : State :=
  updT (fun t => { t with fences := t.fences.map (fun e =>
    let f := e.2
    if f.busy && f.dst == d && beforeMark txid f.mark && r != 0 &&
        (match f.worst with | some (x, _) => decide ((f.mark + 2 ^ 20 - x) % 2 ^ 20 < (f.mark + 2 ^ 20 - txid) % 2 ^ 20) | none => true)
    then (e.1, { f with worst := some (txid, r) }) else e) }) s

/-- Nothing that a fence waits for is outstanding. -/
def fenceDone (f : Fence) (s : State) : Bool :=
  match getSrc s f.dst with
  | some k => k.reqs.all (fun r => !(fenced r.hdr.opc && beforeMark r.txid f.mark))
  | none => true

/-- A fence completes: BUSY falls and RESULT is set. -/
def endFence (i : Nat) (s : State) : State :=
  let f := getFence s i
  setFence i { f with busy := false, result := (f.worst.map (·.2)).getD 0, worst := none } s

/-- GO while BUSY is out of range. -/
def fenceGo (ip d : Nat) (s : State) : State :=
  if (getFence s ip).busy then raise evGlb 0 s else startFence ip d (setF (qdFence ip) 0 18 d s)

/-- FENCE_GO (R211, R216): GO while BUSY is out of range. -/
def execFenceGo (ip : IpId) (dst : BitVec 18) (s : State) : Outcome State Fault Refusal :=
  .next (hostWrite (fenceGo ip dst.toNat) s)

/-- FENCE_COMPLETE (R211). -/
def execFenceComplete (ip : IpId) (s : State) : Outcome State Fault Refusal :=
  let f := getFence s ip
  if s.acts && f.busy && fenceDone f s then .next (endFence ip s) else .next s

/-! ### Answers at the source (R191, R198, R199) -/

/-- A request of this die is answered with `r`: it is no longer outstanding, fences note it, and its requester is told `told`. -/
def answerTold (d : Nat) (q : SrcReq) (r told : Nat) (data : List Byte) (s : State) : State :=
  let s1 := dropReq d q.txid s
  let s2 := if fenced q.hdr.opc then noteFences d q.txid r s1 else s1
  let s3 := if r = 7 then bump (glbTxCnt 1) 16 16 s2 else s2
  match q.client with
  | .mirror w hold => mirrorAnswered w hold r s3
  | c => finish c told data (if q.hdr.opc = opAtomic ∧ r = 0 then some (d, q.txid, q.hdr.cls) else none) s3

/-- Its requester has that answer. -/
def answerReq (d : Nat) (q : SrcReq) (r : Nat) (data : List Byte) (s : State) : State := answerTold d q r r data s

/-- What the end of a request that BUSY answered to the last is to its requester: TIMEOUT; a stream learns that it was BUSY (R198,
R317). -/
def busyEnd (c : Client) : Nat := match c with | .stream _ _ => 4 | _ => 7

/-- A BUSY answer (R198): the request waits 64 ticks, or is answered TIMEOUT once RETRY_LIM transmissions have counted. -/
def busyAnswer (d : Nat) (q : SrcReq) (s : State) : State :=
  if retryLim s ≤ q.count then answerTold d q 7 (busyEnd q.client) [] s
  else updReq d q.txid (fun x => { x with busyAt := some s.tick, sent := none }) s

/-- The bytes a READ asked for, and its address. -/
def SrcReq.readBytes (q : SrcReq) : Nat := sf (q.slots.getD 1 0) 0 13

/-- A response answers an outstanding request (R191): its opcode fits, and with data its LEN. -/
def fits (q : SrcReq) (h : PktHdr) : Bool :=
  let o := q.hdr.opc
  if h.opc = opCompletion then o == opWrite || o == opReduce
  else if h.opc = opReadData then o == opRead && (if h.resp = 0 ∨ h.resp = 3 then h.payload == granules q.hdr.addr q.readBytes else true)
  else o == opAtomic

/-- The data of a response for its requester: the bytes read, or the result slot. -/
def respData (q : SrcReq) (h : PktHdr) (slots : List Slot) : List Byte :=
  if h.opc = opReadData then (if h.resp = 0 ∨ h.resp = 3 then bytesFrom (q.hdr.addr % 16) q.readBytes slots else [])
  else if h.opc = opAtomicResult ∧ h.resp = 0 then bytesFrom 0 16 slots
  else []

/-- The TXIDs a response answers, in order (R199). -/
def answered (h : PktHdr) : List Nat :=
  (List.range ((h.txidLast + 2 ^ 20 - h.txid) % 2 ^ 20 + 1)).map (fun i => (h.txid + i) % 2 ^ 20)

/-- A response is malformed (R188, R191, R192): its class is not TC0, RETRY, SYNC, PART or MIRROR is set, its RESP is
reserved, bits above it are not zero, its range is too long or not a COMPLETION's, or its LEN is not its kind's. -/
def badResponse (h : PktHdr) : Bool :=
  h.cls % 4 != 0 || h.retry || h.sync || h.part || h.mirror || decide (8 < h.resp) || decide (2 ^ 24 ≤ h.addr) ||
  (h.opc != opCompletion && h.txidLast != h.txid) || decide (256 < (answered h).length) ||
  (h.opc == opCompletion && h.len != 0) ||
  (h.opc == opAtomicResult && h.len != bit (h.resp == 0)) ||
  (h.opc == opReadData && h.resp != 0 && h.resp != 3 && h.len != 0)

/-- The FRSP transfer of a client, if it waits for the host now, is presented no earlier than in cycle `due` (R252). -/
def presentFrom (c : Client) (due : Nat) (s : State) : State :=
  match c with
  | .freq ip tag _ => updIp ip (fun x => { x with frsp := x.frsp.map (fun f => if f.tag == tag then { f with ready := max f.ready due } else f) }) s
  | _ => s

/-- A response packet for this die (R198): malformed ones and those for nothing outstanding are discarded and counted.
`bad` says that some of its slots are poisoned, `due` is the cycle from which it may be presented (R252). -/
def takeResponse (h : PktHdr) (slots : List Slot) (bad : Bool) (due : Nat) (s : State) : State :=
  if badResponse h then bump (glbTxCnt 2) 16 16 s
  else
    let find (t : State) (x : Nat) : Option SrcReq := match getSrc t h.src with
      | some k => k.reqs.find? (fun r => r.txid == x && fits r h)
      | none => none
    if (answered h).all (fun x => (find s x).isNone) then bump (glbTxCnt 0) 16 16 s
    else (answered h).foldl (fun t x =>
      match find t x with
      | none => t
      | some q =>
        let r := if bad ∧ h.resp = 0 then 3 else h.resp
        if r = 4 then busyAnswer h.src q t else presentFrom q.client due (answerReq h.src q r (respData q h slots) t)) s

/-- The first packet of a port's Cupboard, not taken up yet, that satisfies `f`. -/
def firstPkt (p : Nat) (f : CupPkt → Bool) (s : State) : Option CupPkt := (s.port p).rx.cup.find? (fun c => !c.taken && f c)

/-- A response packet is taken from the Cupboard and handled (R193, R198). One whose header slot is uncorrectable is
discarded (R388). -/
def responseRx (p : Nat) (bad : Bool) (s : State) : State :=
  match firstPkt p (fun c => c.complete && decide (c.hdr.dst = s.die) && isRespOp c.hdr.opc) s with
  | none => s
  | some c =>
    let t := dropPkt p c s
    if bad then sramUncorr (unitPort p) (unitPort p) .port 1 .poisoned t
    else takeResponse c.hdr (c.slots.drop 1) (!c.bad.isEmpty) (dueAt p c (c.slots.length - 1) s) t

/-! ### Commitment (R194, R203, R210) -/

/-- A request to this die itself is handled without fabric and TXID (R210). -/
def loopRequest (q : NewReq) (s : State) : State :=
  let h := PktHdr.ofSlot (q.slots.headD 0)
  let body := q.slots.drop 1
  if h.opc = opWrite then
    let g := granules h.addr (if h.part then sf (body.headD 0) 0 13 else body.length * 16 - h.addr % 16)
    let n := if h.part then sf (body.headD 0) 0 13 else g * 16 - h.addr % 16
    localAccess q.client opWrite h.addr n (bytesFrom (h.addr % 16) n (if h.part then body.drop 1 else body)) h.mirror s
  else if h.opc = opRead then localAccess q.client opRead h.addr (sf (body.headD 0) 0 13) [] false s
  else if h.opc = opAtomic then localAccess q.client opAtomic h.addr 32 (bytesFrom 0 32 (body ++ [0])) false s
  else finish q.client 8 [] none s

/-- A request counts on its remote request engine from its commitment (R237). -/
def countRre (q : NewReq) (s : State) : State :=
  match q.client with
  | .freq ip tag _ =>
    let s1 := updIp ip (fun x => { x with freq := x.freq.map (fun f => if f.tag == tag && f.kind != kWrite then { f with counted := true } else f) }) s
    peak (atmRre ip) 10 10 (rreOut ip s1) s1
  | _ => s

/-- Its remote request engine has room for it (R237). -/
def rreRoom (q : NewReq) (s : State) : Bool :=
  match q.client with
  | .freq ip tag _ => decide (rreOut ip s < 512) || (s.ip ip).freq.any (fun f => f.tag == tag && (f.counted || f.kind == kWrite))
  | _ => true

/-- A request that has no route is answered UNREACHABLE by the source adapter (R203). -/
def unreachable (q : NewReq) (s : State) : State :=
  let s1 := bump (glbTxCnt 2) 0 16 s
  match q.client with
  | .mirror w hold => mirrorAnswered w hold 6 s1
  | c => finish c 6 [] none s1

/-- Whether the relay word read next is uncorrectable: a free value, since R194 names no operand that says it (log 74; R388). -/
def relayBad (s : State) : Bool := Config.freeValue s.free % 2 == 1

/-- The relay table is read for a route to `d` whose port is lost; `bad` says that its word is uncorrectable (R203, R388). -/
def relayRead (bad : Bool) (d : Nat) (s : State) : State :=
  if decide (d ≠ s.die) && portLost (directPort d s) s then
    let t := { s with free := s.free + 1 }
    if bad then relayUncorr (directPort d s) t else t
  else s

/-- REQUEST_COMMIT (R194, R203): the first waiting request that can go is committed to its route. -/
def coreRequestCommit (s : State) : Outcome State Fault Refusal :=
  if !s.acts then .next s else
  match s.tx.waiting.find? (fun q => (committable q s && rreRoom q s) || decide (route q.dst s = .loop) || decide (route q.dst s = .none)) with
  | none => .next s
  | some q =>
    let t := relayRead (relayBad s) q.dst (updT (fun x => { x with waiting := x.waiting.erase q }) s)
    match route q.dst t with
    | .loop => .next (loopRequest q t)
    | .none => .next (unreachable q t)
    | .port p relay => .next (commitTo q p relay (countRre q t))

/-! ### Retries (R198) -/

/-- The outstanding request (dst, txid). -/
def getReq (d x : Nat) (s : State) : Option SrcReq := (getSrc s d).bind (fun k => k.reqs.find? (fun r => r.txid == x))

/-- Sends a request again, or answers it UNREACHABLE. -/
def again (d : Nat) (q : SrcReq) (retry : Bool) (s : State) : State :=
  match resend d q retry s with
  | some t => t
  | none => answerReq d q 6 [] (bump (glbTxCnt 2) 0 16 s)

/-- RSP_TIMEOUT (R198). -/
def coreRspTimeout (dst : BitVec 18) (txid : BitVec 20) (s : State) : Outcome State Fault Refusal :=
  match getReq dst.toNat txid.toNat s with
  | none => .next s
  | some q =>
    match q.sent with
    | none => .next s
    | some t =>
      if s.acts && decide (t + rspTimeout s ≤ s.tick) then
        if q.count < retryLim s then .next (again dst.toNat q true (updReq dst.toNat q.txid (fun x => { x with count := x.count + 1 }) s))
        else .next (answerReq dst.toNat q 7 [] s)
      else .next s

/-- BUSY_RESEND (R198): 64 ticks after a BUSY answer, with its original flags and without RETRY. -/
def coreBusyResend (dst : BitVec 18) (txid : BitVec 20) (s : State) : Outcome State Fault Refusal :=
  match getReq dst.toNat txid.toNat s with
  | none => .next s
  | some q =>
    match q.busyAt with
    | none => .next s
    | some t =>
      if s.acts && decide (t + 64 ≤ s.tick) then
        .next (again dst.toNat q false (updReq dst.toNat q.txid (fun x => { x with count := x.count + 1 }) s))
      else .next s

/-! ### Relaying (R207) -/

/-- The port on which a packet in transit that arrived on port `p` is forwarded, by the table of R207. -/
def forwardPort (p : Nat) (h : PktHdr) (s : State) : Option Nat :=
  let own := decide (layerOf h.dst = layerOf s.die)
  if !relayEn s then none
  else if p = s.site then (if own then some (siteOf h.dst) else none)
  else if h.src = peerDie p s then some (if own then siteOf h.dst else s.site)
  else none

/-- A packet in transit that is not forwarded (R207): a request is answered UNREACHABLE toward its SRC, the others are
discarded and counted. -/
def dropTransit (h : PktHdr) (s : State) : State :=
  if isRespOp h.opc then bump (glbTxCnt 6) 0 16 s
  else if h.opc = opAtomicRelease then bump (glbTxCnt 6) 16 16 s
  else
    let q : RemoteReq := { src := h.src, txid := h.txid, opc := h.opc, cls := h.cls, addr := h.addr, bytes := 0 }
    sendResponse (responsePacket q 6 [] h.dst) false (bump (glbTxCnt 2) 0 16 s)

/-- RELAY_FORWARD (R207): the first packet in transit that lies whole is forwarded, or not. -/
def execRelayForward (p : PortId) (s : State) : Outcome State Fault Refusal :=
  if !s.acts then .next s else
  match firstPkt p (fun c => c.complete && decide (c.hdr.dst ≠ s.die)) s with
  | none => .next s
  | some c =>
    match forwardPort p c.hdr s with
    | some o =>
      if portLost o s then .next (dropPkt p c (dropTransit c.hdr s))
      else .next (bumpWrap (glbTxCnt 3) 1 (stage o false { slots := c.slots, origin := some (p.val, c.id) }
        (updPkt p c.id (fun x => { x with taken := true }) s)))
    | none => .next (dropPkt p c (dropTransit c.hdr s))

/-! ### Packets handed back, lost ports and their return (R154, R205, R206, R209) -/

/-- Destinations whose route uses port `p`. -/
def routedOver (p : Nat) (s : State) : List Nat :=
  (s.tx.spairs.map (·.1)).filter (fun d => match route d s with | .port q _ => q == p | _ => false)

/-- Every request outstanding to a destination is sent again with RETRY, in ascending TXID order, or answered
UNREACHABLE (R206). -/
def resendAll (d : Nat) (s : State) : State :=
  ((getSrc s d).elim [] (·.reqs)).foldl (fun t q => again d q true t) s

/-- A packet in transit, handed back, is forwarded again on the direct port or the spur (R206). -/
def forwardAgain (q : Packet) (s : State) : State :=
  let o := directPort q.hdr.dst s
  if portLost o s then
    let t := dropTransit q.hdr s
    match q.origin with
    | some x => dropNumbered x.1 x.2 t
    | none => t
  else stage o false q s

/-- The transaction layer acts on what port `p` handed back: the requests to `ds` again with RETRY, responses and
releases unchanged, packets in transit onward (R206). -/
def handBack (p : Nat) (ds : List Nat) (s : State) : State :=
  let back := (s.port p).rt.handback
  let s1 := updPort p (fun x => { x with rt := { x.rt with handback := [] } }) s
  let s2 := ds.foldl (fun t d => resendAll d t) s1
  back.foldl (fun t q =>
    if q.origin.isSome then forwardAgain q t
    else if isRespOp q.hdr.opc then sendResponse q false t
    else if q.hdr.opc = opAtomicRelease then
      match route q.hdr.dst t with
      | .port o relay => stage o relay q t
      | _ => bump (glbTxCnt 6) 16 16 t
    else t) s2

/-- The port places no packet in a flit any more: what it has of packets is handed back, and their credit is free (R205). -/
def emptyPort (p : Nat) (s : State) : State :=
  updPort p (fun x => { x with
    rt := { x.rt with handback := x.rt.handback ++ handedBack x.tx }
    tx := { x.tx with flight := [], staged := [], cur := none, crossed := [], asm := { x.tx.asm with pks := [], sealed := false } }
    sc := { x.sc with flows := [], displaced := [], sched := false }
    cr := { x.cr with pend := [] } }) s

/-- Port `p` becomes lost (R205, R394). At the far end of the spur stands no die (R14): the record of a spur that is lost names the own
die, the one of its layer at that site (log 100). -/
def losePort (p : Nat) (s : State) : State :=
  let ds := routedOver p s
  let s1 := updPort p (fun x => { x with rt := { x.rt with lost := true, lossDue := none } }) (emptyPort p s)
  let (st, site) := lostState p s1
  let s2 := raise (evPrt p) 22 (setRoute p st site s1)
  let s3 := handOver (unitPort p) (unitPort p) .adapter 0x0204 (if st = .relay then .portLostRelay else .portLostUnreach) (peerDie p s) s2
  let s4 := if (s.port p).sc.sched then raise (evPrt p) 19 s3 else s3
  handBack p ds s4

/-- PORT_LOST (R205): at the tick boundary, its cause having arisen in an earlier tick. `c.bad` says that the port's relay entry is
uncorrectable (R388). -/
def corePortLost (c : Checked PortId) (s : State) : Outcome State Fault Refusal :=
  let p := c.on
  let r := (s.port p).rt
  let t := if c.bad then relayUncorr p s else s
  if s.acts && r.lossDue.isSome && decide (r.lossTick ≤ s.tick) && decide (s.cyc = 0) then
    if r.lost then .next (updPort p (fun x => { x with rt := { x.rt with lossDue := none } }) s) else .next (losePort p (if r.lossDue = some .engine then takeDown p t else t))
  else .next s

/-- COLD_TRAINING (R101, R154, R206), at cycle 0 of a tick: both directions start afresh, and the transaction layer recovers what they held. -/
def coreColdTraining (p : PortId) (s : State) : Outcome State Fault Refusal :=
  if !s.acts then .next s else
  match (s.port p).ln.coldDue with
  | some after =>
    if absent p s ∨ getF s (prtEng p) 0 5 = 31 then .next (updLn p (fun x => { x with coldDue := none }) s)
    else if (s.port p).ln.dueTick ≤ s.tick ∧ s.cyc = 0 then
      let ds := routedOver p s
      let s1 := beginTraining p true s
      .next (handBack p ds (updLn p (fun x => { x with afterWarm := after, attempts := if s.bnd.adp = .train then x.attempts + 1 else x.attempts }) s1))
    else .next s
  | none => .next s

/-- A requests of an affected pair is outstanding on the relay route of port `p` (R209). -/
def relayOutstanding (p : Nat) (s : State) : Bool :=
  s.tx.spairs.any (fun e => directPort e.1 s == p && (e.2.elim [] (·.reqs)).any (fun r => r.relay))

/-- RSTATE becomes DIRECT (R209). -/
def toDirect (p : Nat) (s : State) : State := setRoute p .direct 0 s

/-- DRAIN_COMPLETE (R209). -/
def execDrainComplete (p : PortId) (s : State) : Outcome State Fault Refusal :=
  if s.acts && decide ((s.port p).rt.rstate = .draining) && !relayOutstanding p s then .next (toDirect p s) else .next s

/-- DRAIN_TIMEOUT (R209): the requests still outstanding on the relay route are answered as R198 ends them. -/
def coreDrainTimeout (p : PortId) (s : State) : Outcome State Fault Refusal :=
  let r := (s.port p).rt
  if s.acts && decide (r.rstate = .draining) && decide (r.drainFrom + rspTimeout s * (retryLim s + 1) ≤ s.tick) then
    let left := (s.tx.spairs.filter (fun e => directPort e.1 s == p.val)).flatMap (fun e => ((e.2.elim [] (·.reqs)).filter (fun q => q.relay)).map (fun q => (e.1, q)))
    .next (toDirect p (left.foldl (fun t e => answerReq e.1 e.2 7 [] t) s))
  else .next s

/-! ### The Lectern's accesses (R238, R239) -/

/-- The next ready thread in ascending order after `t`, wrapping; `t` itself where none is (R239). -/
def nextThread (t : Nat) (s : State) : Nat :=
  (((List.range 8).map (fun i => (t + 1 + i) % 8)).find? (fun u => !(s.thread u).parked)).getD t

/-- Thread `t` runs: the one whose turn it is among eight, or thread 0 alone; not while it is parked (R238, R239). -/
def runsThread (t : Nat) (s : State) : Bool :=
  s.acts && s.lect.restart.isNone && !(s.thread t).parked &&
    (if eightThreads s then decide (t = s.tx.current ∧ s.tx.resumes ≤ s.cts) else decide (t = 0))

/-- LECTERN_REMOTE_ACCESS (R239): thread `t` issues an access and parks, and the next ready thread resumes. `data` is a
WRITE's bytes or an atomic's operand block. -/
def execLecternRemoteAccess (t : ThreadId) (kind : AccessKind) (dst : BitVec 18) (addr : BitVec 48) (bytes : BitVec 13) (data : List Byte) (s : State) :
    Outcome State Fault Refusal :=
  let (k, n) := match kind with
    | .read => (kRead, bytes.toNat) | .write => (kWrite, data.length) | .atomic => (kAtomic, 32)
  if runsThread t s && decide (1 ≤ n) && decide (addr.toNat % 4096 + n ≤ 4096 ∨ kind = .atomic) then
    let s1 := setThread t { (s.thread t) with parked := true, resp := none, data := [] } s
    let s2 := updT (fun u => { u with current := nextThread t s1, resumes := s.cts + 1 }) s1
    .next (submit { dst := dst.toNat, slots := freqPacket k addr.toNat n dst.toNat s.die data, client := .thread t } s2)
  else .next s

end Sys2Proof.Machine
end

