-- ==== Sys2Proof/Machine/Target.lean ====
section
/-!
DEFINITION. Requests received by this die as their target (07_transactions.md R193 to R197, R201; R220, R222, R231 to
R234; R252, R253, R492).
-/
namespace Sys2Proof.Machine
open Host

/-! ### Form (R187 to R189, R193, R220, R307) -/

/-- BYTES of a request packet's extent slot (R189). -/
def CupPkt.extent (c : CupPkt) : Nat := sf (c.slots.getD 1 0) 0 13

/-- The bytes a READ or a WRITE covers (R189). -/
def coverBytes (h : PktHdr) (ext : Nat) : Nat := if h.opc = opRead ∨ h.part then ext else h.payload * 16 - h.addr % 16

/-- NBYTES and PHASE of a REDUCE's reduce slot (R307). -/
def redPhase (x : Slot) : Nat := sf x 106 3
def redBytes (x : Slot) : Nat := sf x 114 13

/-- The bits of the reduce slot that the phase marks zero (R307). -/
def redZeros (x : Slot) : Bool :=
  sf x 127 1 == 0 &&
  (match redPhase x with
   | 0 => sf x 113 1 == 0
   | 1 => sf x 113 1 == 0
   | 2 => sf x 81 12 == 0 && sf x 93 13 == 0 && sf x 109 4 == 0
   | 3 => sf x 64 42 == 0 && sf x 109 19 == 0
   | 4 => sf x 80 26 == 0 && sf x 113 15 == 0
   | _ => sf x 36 70 == 0 && sf x 109 19 == 0)

/-- A REDUCE is malformed by what the packet itself shows (R193, R307, R308). -/
def badReduce (h : PktHdr) (x : Slot) : Bool :=
  decide (h.cls % 4 ≠ 2 ∧ h.cls % 4 ≠ 3) || decide (5 < redPhase x) || decide (4080 < redBytes x) ||
  decide (h.len ≠ (1 + (redBytes x + 15) / 16) % 256) || (decide (redPhase x ≤ 1) && redBytes x == 0) || !redZeros x

/-- The packet covers bytes on both sides of a 4 KiB boundary (R189). -/
def crosses4k (addr n : Nat) : Bool := decide (4096 < addr % 4096 + n)

/-- A request is malformed (R193, R220); the packet is as far reassembled as its check needs. -/
def badRequest (c : CupPkt) : Bool :=
  let h := c.hdr
  let ext := c.extent
  h.dup || ((h.part || h.mirror) && h.opc != opWrite) ||
  (if h.opc = opWrite then
     h.cls % 4 == 0 ||
     (if h.part then decide (ext < 1 ∨ 4096 < ext) || decide (h.payloadOf (c.slots.getD 1 0) ≠ 1 + granules h.addr ext) else false) ||
     crosses4k h.addr (coverBytes h ext)
   else if h.opc = opRead then h.cls % 4 == 0 || h.len != 1 || decide (ext < 1 ∨ 4096 < ext) || crosses4k h.addr ext
   else if h.opc = opAtomic then
     let b := leNum ((c.slots.drop 1).flatMap slotBytes)
     h.cls % 4 != 1 || h.len != (if aopCas (b % 256) then 2 else 1) || !operandOk h.addr b
   else if h.opc = opReduce then badReduce h (c.slots.getD 1 0)
   else true)

/-- Enough of a request has been reassembled for its check (R193). -/
def CupPkt.checkable (c : CupPkt) : Bool :=
  let h := c.hdr
  if h.opc = opRead ∨ (h.opc = opWrite ∧ h.part) then decide (2 ≤ c.slots.length)
  else if h.opc = opWrite then !c.slots.isEmpty
  else c.complete

/-! ### Pair state and duplicates (R195 to R197) -/

/-- What the pair state calls for. -/
inductive Gate where
  /-- Handled as new; its TXID is PENDING. -/
  | fresh
  /-- A READ already answered OK is executed again. -/
  | againRead
  /-- An ATOMIC already answered OK is passed to the Chest. -/
  | toChest
  /-- Its handling has ended. -/
  | done
  deriving DecidableEq, Repr

/-- What an answer to a request needs. -/
def remoteOf (h : PktHdr) (bytes : Nat) : RemoteReq := { src := h.src, txid := h.txid, opc := h.opc, cls := h.cls, addr := h.addr, bytes := bytes }

/-- The request is answered `r` with no data and no change of its pair's state. -/
def answerOnly (h : PktHdr) (r : Nat) (s : State) : State := respond (remoteOf h 0) r [] s

/-- A request is handled as new: PENDING (R195). -/
def asNew (h : PktHdr) (s : State) : Gate × State := (.fresh, setTxid h.src h.txid .pending s)

/-- Steps R195 to R197 for a well-formed request that takes a TXID. -/
def gate (h : PktHdr) (s : State) : Gate × State :=
  match getTgt s h.src with
  | none =>
    if h.retry ∧ !h.sync then (.done, answerOnly h 5 s)
    else match createTgt h.src h.txid s with
      | none => (.done, answerOnly h 4 s)
      | some t => asNew h t
  | some k0 =>
    let k := { k0 with last := s.tick }
    let s1 := setTgt h.src (some k) s
    if h.sync ∧ !h.retry then asNew h ((createTgt h.src h.txid s1).getD s1)
    else if !k.inMap h.txid then (.done, answerOnly h (if h.retry then 5 else 8) s1)
    else match tget tx0 k.map h.txid with
      | .pending => (.done, bump (glbTxCnt 0) 0 16 s1)
      | .applied =>
        let s2 := bump (glbTxCnt 0) 0 16 s1
        if h.opc = opRead then (.againRead, s2)
        else if h.opc = opAtomic then (.toChest, s2)
        else (.done, respond { remoteOf h 0 with dup := true } 0 [] s2)
      | _ => asNew h s1

/-! ### Execution (R193, R201, R231 to R234) -/

/-- A Chest read for a source die and TXID finds an uncorrectable word (R233): the entry is treated as FREE. It is that of the atomic where
there is one, else, in a full set, the first of the set, else one that was FREE (log 108). -/
def chestUncorr (src txid : Nat) (s : State) : State :=
  let set := s.tx.chest.filter (fun e => chestSet e.src e.txid == chestSet src txid)
  let hit := match chestFind src txid s with
    | some e => some e
    | none => if 16 ≤ set.length then set.head? else none
  let t := match hit with | some e => chestFree e.src e.txid s | none => s
  raise evAtm 2 (sramUncorr unitAtm unitAtm .adapter 3 .poisoned t)

/-- The Chest is read for a source die and TXID. -/
def chestRead (bad : Bool) (src txid : Nat) (s : State) : State := if bad then chestUncorr src txid s else s

/-- An atomic whose TXID is APPLIED: the cached result, or UNKNOWN_OUTCOME (R233, R234). -/
def fromChest (h : PktHdr) (chestBad : Bool) (s0 : State) : State :=
  let s := chestRead chestBad h.src h.txid s0
  match chestFind h.src h.txid s with
  | some e =>
    if e.filled.isSome then bump atmCntHit 0 16 (respond { remoteOf h 0 with dup := true } 0 (resultBytes e.old e.casOk) s)
    else answerOnly h 5 s
  | none => answerOnly h 5 s

/-- A new atomic that passed the checks: an entry is reserved and it goes to its lane, or it is answered BUSY (R231). -/
def startAtomic (h : PktHdr) (b host ip w : Nat) (chestBad : Bool) (s0 : State) : State :=
  let s := chestRead chestBad h.src h.txid s0
  match chestReserve h.src h.txid s with
  | none => respond (remoteOf h 0) 4 [] (settleTxid h.src h.txid 4 (bump atmCntErr 0 16 (raise evAtm 0 s)))
  | some t => atLane (atomOf (.remote (remoteOf h 0)) h.src b host ip w) t

/-- The slots of a request that its header beat needs. -/
def leadOf (h : PktHdr) : Nat := if h.opc = opWrite ∧ !h.part then 1 else 2

/-- The cycle from which a request may be presented, by its header beat (R252). -/
def deliverAt (p : Nat) (c : CupPkt) (s : State) : Nat := dueAt p c (leadOf c.hdr - 1) s

/-- A delivery that scheduled mode times: class TC2, not released late (R252). -/
def CupPkt.timed (c : CupPkt) : Bool := c.hdr.cls % 4 == 2 && !c.late

/-- A checked WRITE or READ goes to its inner port (R193). -/
def startAccess (p : Nat) (c : CupPkt) (dup : Bool) (w host : Nat) (s : State) : State :=
  let h := c.hdr
  let k := window w s
  let n := coverBytes h c.extent
  let q := { remoteOf h n with dup := dup }
  let due := deliverAt p c s
  let wr := decide (h.opc = opWrite)
  hostAccess k.aff { client := .remote q, write := wr, addr := host, bytes := n, die := h.src
                     pkt := some (p, c.id), lead := leadOf h, ready := due
                     timed := c.timed, slot := slotAt c (leadOf h - 1), slip := decide (due < s.cts), win := if h.mirror then none else some w, seq := k.ord }
    (updPkt p c.id (fun x => { x with taken := true }) s)

/-- A request goes through the steps of R193 from the pair state on. -/
def runRequest (p : Nat) (c : CupPkt) (chestBad : Bool) (s : State) : State :=
  let h := c.hdr
  let (g, s1) := gate h s
  let atomic := h.opc == opAtomic
  match g with
  | .done => dropPkt p c s1
  | .toChest => dropPkt p c (fromChest h chestBad s1)
  | _ =>
    let dup := g == .againRead
    match checkWindow h.addr (groupOf h.src s1) h.mirror atomic s1 with
    | .inl r =>
      let q := { remoteOf h 0 with dup := dup }
      dropPkt p c (respond q r [] (if dup then s1 else settleTxid h.src h.txid r s1))
    | .inr (w, host) =>
      if atomic then dropPkt p c (startAtomic h (leNum ((c.slots.drop 1).flatMap slotBytes)) host (window w s1).aff w chestBad s1)
      else startAccess p c dup w host s1

/-! ### Which packets (R193, R252) -/

/-- A packet that ATOMIC_RELEASE_RX, a REDUCE command or SCHEDULED_DELIVERY takes. -/
def CupPkt.special (c : CupPkt) : Bool :=
  c.hdr.opc == opAtomicRelease || (c.hdr.opc == opReduce && !badRequest c)

/-- A request for this die that can be checked, and that no other command takes. -/
def requestFor (s : State) (c : CupPkt) : Bool :=
  decide (c.hdr.dst = s.die) && !isRespOp c.hdr.opc && c.checkable && !c.special

/-- A malformed request is answered MALFORMED with the pair state unchanged; TEST answers BUSY (R193, R422). -/
def takeRequest (p : Nat) (c : CupPkt) (chestBad : Bool) (s : State) : State :=
  if badRequest c then dropPkt p c (answerOnly c.hdr 8 s)
  else if s.bnd.adp = .test then dropPkt p c (answerOnly c.hdr 4 s)
  else runRequest p c chestBad s

/-- Windows whose words are uncorrectable count as disabled (R388). -/
def winUncorr (s : State) (w : Fin 64) : State :=
  let t := sramUncorr unitProt unitProt .adapter 8 .poisoned s
  { t with prot := { t.prot with img := tmod word0 t.prot.img (8 * w + 4) (fun v => setFld v 0 1 0) } }

/-- TARGET_REQUEST (R193). `bad` says that the header slot's Cupboard word is uncorrectable, `chestBad` that the Chest word
read for it is, `badWins` which windows' words are (R388). -/
def execTargetRequest (p : PortId) (bad chestBad : Bool) (badWins : List (Fin 64)) (s : State) : Outcome State Fault Refusal :=
  if !s.acts then .next s else
  match firstPkt p (fun c => requestFor s c && !c.timed) s with
  | none => .next s
  | some c =>
    if bad then .next (sramUncorr (unitPort p) (unitPort p) .port 1 .poisoned (dropPkt p c s))
    else .next (takeRequest p c chestBad (badWins.foldl winUncorr s))

/-- SCHEDULED_DELIVERY (R252, R253): a timed request is presented in its cycle; a later presentation counts as SLIP. `bad` and
`badWins` as for TARGET_REQUEST. -/
def execScheduledDelivery (p : PortId) (bad : Bool) (badWins : List (Fin 64)) (s : State) : Outcome State Fault Refusal :=
  if !s.acts then .next s else
  match firstPkt p (fun c => requestFor s c && c.timed) s with
  | none => .next s
  | some c =>
    if s.cts < deliverAt p c s then .next s
    else if bad then .next (sramUncorr (unitPort p) (unitPort p) .port 1 .poisoned (dropPkt p c s))
    else
      let t := takeRequest p c false (badWins.foldl winUncorr s)
      .next (if deliverAt p c s < s.cts then lateDelivery p t else t)

/-- ATOMIC_RELEASE_RX (R222, R232): a FILLED entry becomes FREE, a RESERVED one is marked. A malformed release is counted
and not answered. `p.bad` says that the Chest word read for it is uncorrectable (R233). -/
def execAtomicReleaseRx (p : Checked PortId) (s : State) : Outcome State Fault Refusal :=
  if !s.acts then .next s else
  match firstPkt p.on (fun c => c.complete && decide (c.hdr.dst = s.die) && c.hdr.opc == opAtomicRelease) s with
  | none => .next s
  | some c =>
    let h := c.hdr
    let t0 := dropPkt p.on c s
    if h.dup || h.part || h.mirror || h.cls % 4 != 1 || h.len != 0 then .next (bump (glbTxCnt 2) 16 16 t0)
    else
      let t := chestRead p.bad h.src h.txid t0
      match chestFind h.src h.txid t with
      | some e =>
        if e.filled.isSome then .next (bump atmCntRel 0 16 (chestFree h.src h.txid t))
        else .next (updT (fun u => { u with chest := u.chest.map (fun x => if x.isFor h.src h.txid then { x with released := true } else x) }) t)
      | none => .next (raise evAtm 3 (bump atmCntRel 16 16 t))

end Sys2Proof.Machine
end

