-- ==== Sys2Proof/Machine/Workbench.lean ====
section
/-!
DEFINITION. The Workbench units: segments, the ordering window and folds (10_workbench_arithmetic.md R270, R290 to
R297; R382, R388).
-/
namespace Sys2Proof.Machine
open Host

def unit0 (_ : Nat) : WbUnit := {}
def State.wbUnit (s : State) (u : Nat) : WbUnit := tget unit0 s.wb u
def updWb (u : Nat) (f : WbUnit → WbUnit) (s : State) : State := { s with wb := tmod unit0 s.wb u f }

/-- WBu is in service (R297). -/
def wbInSvc (s : State) (u : Nat) : Bool := getF s wbSts u 1 == 1
/-- The units in service, in ascending order. -/
def wbUnits (s : State) : List Nat := (List.range 8).filter (wbInSvc s)

/-- Accumulator scratch of a unit (R270). -/
def wbScratch : Nat := 768 * 1024
/-- Accumulator scratch of a unit that open segments take. -/
def wbUsed (s : State) (u : Nat) : Nat := ((s.wbUnit u).segs.map (·.room)).foldl (· + ·) 0
/-- Window entries in use (R292). -/
def wbHeld (x : WbUnit) : Nat := (x.segs.map (fun g => g.held.length)).foldl (· + ·) 0

/-- The unit in service with the most free accumulator space, ties to the lowest, where `need` bytes are free (R306). -/
def pickUnit (need : Nat) (s : State) : Option Nat :=
  let free (u : Nat) := wbScratch - wbUsed s u
  match wbUnits s with
  | [] => none
  | u :: us =>
    let b := us.foldl (fun b v => if free b < free v then v else b) u
    if need ≤ free b then some b else none

/-- A segment opens on unit `u`. -/
def openSeg (u : Nat) (g : WbSeg) (s : State) : State :=
  updWb u (fun x => { x with segs := x.segs ++ [{ g with last := s.tick }] }) s

/-- The unit on which a segment is open. -/
def unitOf (k : SegUse) (s : State) : Option Nat := (List.range 8).find? (fun u => (s.wbUnit u).segs.any (fun g => decide (g.use = k)))

def updSeg (u : Nat) (k : SegUse) (f : WbSeg → WbSeg) (s : State) : State :=
  updWb u (fun x => { x with segs := x.segs.map (fun g => if g.use = k then f g else g) }) s

/-- A contribution reaches its unit and waits there for acceptance. -/
def offer (u : Nat) (c : Contrib) (s : State) : State := updWb u (fun x => { x with wait := x.wait ++ [c] }) s

/-! ### Counting (R295 to R298) -/

/-- A segment becomes poisoned: WB_POISON each time, POISON once for it (R295). -/
def poisonSeg (u : Nat) (g : WbSeg) (s : State) : State :=
  let t := raise evWb 6 s
  if g.poison then t else bump (wbCntErr u) 0 16 (updSeg u g.use (fun x => { x with poison := true }) t)

/-- Elements that overflowed and elements that became NaN (R275, R277, R295). -/
def noteValues (u : Nat) (g : WbSeg) (ovf nan : Nat) (s : State) : State :=
  let s1 := if ovf = 0 then s else
    let t := bumpN (wbCntVal u) 16 16 ovf s
    if g.saidOvf then t else raise evWb 1 (updSeg u g.use (fun x => { x with saidOvf := true }) t)
  if nan = 0 then s1 else
    let t := bumpN (wbCntVal u) 0 16 nan s1
    if g.saidNan then t else raise evWb 0 (updSeg u g.use (fun x => { x with saidNan := true }) t)

/-- What encoding counts (R281, R283, R297). -/
def noteEnc (u : Nat) (g : WbSeg) (c : EncCount) (s : State) : State :=
  let s1 := if c.sat = 0 then s else raise evWb 2 (bumpN (wbCntQnt u) 0 16 c.sat s)
  let s2 := if c.nonfin = 0 then s1 else raise evWb 3 (bumpN (wbCntQnt u) 16 16 c.nonfin s1)
  bumpWrap (wbCntSr u) c.srup (noteValues u g c.ovf c.nan s2)

/-! ### Acceptance (R166, R292, R293) -/

/-- A contribution has been accepted: one in a REDUCE packet is answered OK and its cells are freed. -/
def acceptContrib (c : Contrib) (s : State) : State :=
  match c.pkt with
  | none => s
  | some x => dropNumbered x.1 x.2.1 (finish (.remote x.2.2) 0 [] none s)

/-- The fold of a contribution issues: the accumulator is updated 12 cc later, 28 cc for LSE_MERGE (R296). -/
def issueFold (u : Nat) (k : SegUse) (c : Contrib) (s : State) : State :=
  bumpWrap (wbCntFold u) 1 (updSeg u k (fun g => { g with
    folding := some (s.cts + (if g.op.rop = ropLse then 28 else 12), c), last := s.tick, stalled := false }) s)

/-- What becomes of a contribution on its segment (R292, R293, R295). -/
inductive Admit where
  | fold | hold | dup | full
  deriving DecidableEq, Repr

def admitOn (x : WbUnit) (g : WbSeg) (c : Contrib) : Admit :=
  if c.idx < g.next ∨ g.held.any (fun h => h.idx == c.idx) ∨ (g.folding.isSome ∧ c.idx = g.next) ∨ g.ready.isSome then .dup
  else if c.idx = g.next then .fold
  else if wbHeld x < 64 then .hold
  else .full

/-- The segment a waiting contribution is for. -/
def segFor (x : WbUnit) (c : Contrib) : Option WbSeg := x.segs.find? (fun g => decide (g.use = c.use) && g.gen == c.gen)

/-- What waits at a unit, its segment, and what would become of it. -/
abbrev Offered := Contrib × WbSeg × Admit

/-- The port a contribution came by, as a client of the unit's arbitration; the die's own come after the ports (R16). -/
def Contrib.client16 (c : Contrib) : Nat := match c.pkt with | some (p, _, _) => p | none => 64

/-- The waiting contribution taken next, of those that can be folded or held or are duplicates: scheduled deliveries first, in the order
of their slots, those of one slot by port; then the others round-robin over the ports (R16, R253, R293, R295). One for which the window
is full is refused once. -/
def nextContrib (x : WbUnit) (now : Nat) : Option Offered :=
  let cs : List Offered := x.wait.filterMap (fun c => if c.due ≤ now then (segFor x c).map (fun g => (c, g, admitOn x g c)) else none)
  let open_ := cs.filter (fun e => e.2.2 != .full)
  match open_.filter (·.1.timed), open_ with
  | e :: es, _ => some (leastBy (fun q => q.1.slot * 128 + q.1.client16) e es)
  | [], e :: es => some (leastBy (fun q => (q.1.client16 + 64 - x.lastPort) % 65) e es)
  | [], [] => cs.find? (fun e => !e.1.refused)

/-- CONTRIBUTION_ARRIVAL (R292, R293, R295): a unit whose input is free takes up a waiting contribution. `bad` says that
Cupboard words read for it are uncorrectable (R388). -/
def execContributionArrival (u : WbId) (bad : Bool) (s : State) : Outcome State Fault Refusal :=
  let x := s.wbUnit u
  if !s.acts ∨ s.cts < x.inFree then .next s else
  match nextContrib x s.cts with
  | none => .next s
  | some (c0, g, a) =>
    let c := { c0 with poison := c0.poison || bad }
    let s1 := match c.pkt with
      | some (p, _, _) =>
        let t := if bad then sramUncorr (unitPort p) (unitPort p) .port 1 .poisoned s else s
        if c.timed && decide (c.due < s.cts) && a != .full then lateDelivery p t else t
      | none => s
    let taken := updWb u (fun y => { y with
      wait := y.wait.erase c0, inFree := s.cts + (c.data.length + 511) / 512
      lastPort := if c0.timed then y.lastPort else c0.client16 % 64 }) s1
    match a with
    | .fold => .next (acceptContrib c (issueFold u g.use c taken))
    | .hold => .next (acceptContrib c (bump (wbCntOrd u) 0 16
        (peak (wbOcc u) 24 7 (wbHeld x + 1) (updSeg u g.use (fun k => { k with held := k.held ++ [c] }) taken))))
    | .dup => .next (acceptContrib c (raise evWb 7 (bump (wbCntErr u) 16 16 taken)))
    | .full => .next (raise evWb 4 (bump (wbCntOrd u) 16 16
        (updWb u (fun y => { y with wait := y.wait.map (fun k => if k = c0 then { k with refused := true } else k) }) s1)))

/-! ### Folds (R277, R291, R292, R296) -/

/-- The accumulator after a fold: the first contribution is loaded. -/
def foldInto (g : WbSeg) (c : Contrib) : List Nat × Nat :=
  let (x, o) := g.op.decode c.fmt (nats c.data)
  if g.next = 0 ∨ g.acc.isEmpty then (x, o) else let (a, o2) := g.op.fold g.acc x; (a, o + o2)

/-- The fold of `c` on segment `g` has updated the accumulator; damaged data is passed over and poisons the result. -/
def updateAcc (u : Nat) (g : WbSeg) (c : Contrib) (s : State) : State :=
  if c.poison then poisonSeg u g s
  else
    let (a, ovf) := foldInto g c
    noteValues u g ovf (g.op.nans a - g.op.nans g.acc) (updSeg u g.use (fun x => { x with acc := a }) s)

/-- NEXT advances: the held contribution with the new NEXT is folded, or the complete segment is encoded. -/
def advanceSeg (u : Nat) (g : WbSeg) (s : State) : State :=
  let n := g.next + 1
  let t := updSeg u g.use (fun x => { x with next := n, folding := none }) s
  if g.ncont ≤ n then
    updSeg u g.use (fun x => { x with ready := some (s.cts + 8 + (g.op.bytesIn g.op.out + 511) / 512) }) t
  else match g.held.find? (fun h => h.idx == n) with
    | some h => issueFold u g.use h (updSeg u g.use (fun x => { x with held := x.held.filter (fun y => y.idx != n) }) t)
    | none => t

/-- The segment whose fold is due. -/
def foldDue (x : WbUnit) (now : Nat) : Option (WbSeg × Contrib) :=
  x.segs.findSome? (fun g => match g.folding with | some (t, c) => if t ≤ now then some (g, c) else none | none => none)

/-- FOLD_COMPLETE (R292, R296). `bad` says that a scratch or window word read for it is uncorrectable (R295, R388). -/
def execFoldComplete (u : WbId) (bad : Bool) (s : State) : Outcome State Fault Refusal :=
  if !s.acts then .next s else
  match foldDue (s.wbUnit u) s.cts with
  | none => .next s
  | some (g, c) =>
    let s1 := if bad then sramUncorr (unitWb u) (unitWb u) .adapter 4 .poisoned s else s
    .next (advanceSeg u g (updateAcc u g { c with poison := c.poison || bad } s1))

/-- A segment whose output is ready leaves its unit: the segment, its bytes, and the state with what encoding counts. Of a segment all
of whose contributions were damaged the bytes have no stated value (R295). -/
def takeEncoded (u : Nat) (s : State) : Option (WbSeg × List Byte × State) :=
  match (s.wbUnit u).segs.find? (fun g => match g.ready with | some t => decide (t ≤ s.cts) | none => false) with
  | none => none
  | some g =>
    let t := updWb u (fun x => { x with segs := x.segs.filter (fun k => decide (k.use ≠ g.use)) }) s
    if g.acc.isEmpty then
      let (bs, t1) := freeBytes (g.op.bytesIn g.op.out) t
      some (g, bs, t1)
    else
      let (bs, c) := g.op.encode g.acc
      some (g, bytesOf bs, noteEnc u g c t)

/-- An incomplete segment of the unit that has not folded for STALL_TICKS, its wait not yet told (R294). -/
def stalledSeg (u : Nat) (s : State) : Option WbSeg :=
  (s.wbUnit u).segs.find? (fun g => g.ready.isNone && g.folding.isNone && !g.stalled && decide (g.last + effF s wbCtl 0 16 ≤ s.tick))

end Sys2Proof.Machine
end

