-- ==== Sys2Proof/Machine/Collective.lean ====
section
/-!
DEFINITION. Collectives: the descriptor, groups, sizes and fold roles (11_collectives.md R299 to R307, R310 to R316).
-/
namespace Sys2Proof.Machine
open Host

def stream0 (_ : Nat) : Stream := {}
def State.stream (s : State) (u : Nat) : Stream := tget stream0 s.col u
def updStream (u : Nat) (f : Stream → Stream) (s : State) : State := { s with col := tmod stream0 s.col u f }

/-! ### Groups (R300) -/

def grpEntry (g : Nat) (s : State) : Word := tget word0 s.banks.grpAct g
/-- The member dies of a group in force, in group order; none where it is not VALID. -/
def groupMembers (g : Nat) (s : State) : Option (List Nat) :=
  let e := grpEntry g s
  if fld e 27 1 = 1 then some ((List.range (fld e 14 13)).map (fun k => fld (tget word0 s.banks.memAct (fld e 0 14 + k)) 0 18)) else none

/-- A list names some entry twice. -/
def hasTwice : List Nat → Bool
  | [] => false
  | x :: xs => xs.contains x || hasTwice xs

/-- The runs of consecutive members that share LAYER: start and length of each (R310). -/
def layerRuns (ms : List Nat) : List (Nat × Nat) :=
  (ms.zipIdx.foldl (fun (a : List (Nat × Nat) × Option Nat) e =>
    match a.1.getLast?, a.2 with
    | some (st, n), some l => if layerOf e.1 = l then (a.1.dropLast ++ [(st, n + 1)], a.2) else (a.1 ++ [(e.2, 1)], some (layerOf e.1))
    | _, _ => ([(e.2, 1)], some (layerOf e.1))) ([], none)).1

/-- Some layer's members are not consecutive in group order. -/
def layersSplit (ms : List Nat) : Bool := hasTwice ((layerRuns ms).map (fun r => layerOf (ms.getD r.1 0)))

/-! ### The descriptor (R303) -/

/-- The fields of a collective descriptor of 64 bytes. -/
def ColDesc.ofBytes (bs : List Nat) : ColDesc :=
  let w (k lo n : Nat) := leNum ((bs.drop (8 * k)).take 8) / 2 ^ lo % 2 ^ n
  { cid := w 0 0 32, kind := w 0 32 3, alg := w 0 35 2, rop := w 0 37 3, inf := w 0 40 4, step := w 0 44 4, out := w 0 48 4
    sr := w 0 52 1 == 1, norm := w 0 53 1 == 1, group := w 1 0 8, depth := w 1 8 3 + 1, startEn := w 1 11 1 == 1
    paceIdx := w 1 12 8, start := w 1 32 32, chunkElem := w 2 0 32, segElem := w 2 32 16, dv := w 2 48 11, nelem := w 3 0 40
    inAddr := w 4 0 48, outAddr := w 5 0 48, auxAddr := w 6 0 48, auxLen := w 7 0 32 }

/-- A bit marked zero is 1 (R303). -/
def colZeros (bs : List Nat) : Bool :=
  let w (k lo n : Nat) := leNum ((bs.drop (8 * k)).take 8) / 2 ^ lo % 2 ^ n
  w 0 54 10 == 0 && w 1 20 12 == 0 && w 2 59 5 == 0 && w 3 40 24 == 0 && w 4 48 16 == 0 && w 5 48 16 == 0 && w 6 48 16 == 0 && w 7 32 32 == 0

/-- The collective copies bytes unchanged, without a Workbench unit (R303). -/
def ColDesc.plain (d : ColDesc) : Bool := (d.kind == 2 || d.kind == 3) && d.inf == d.out

/-- Records of LSE_MERGE. -/
def ColDesc.lse (d : ColDesc) : Bool := d.rop == ropLse

/-- Bytes of `n` elements or records in a format. -/
def ColDesc.size (d : ColDesc) (f n : Nat) : Nat := if d.lse then n * recBytes f d.dv else cb f n

/-- Accumulator bytes of a segment, and the scratch demand (R306). -/
def ColDesc.segRoom (d : ColDesc) : Nat := d.segElem * (if d.lse then 2 + d.dv else 1) * 4
def ColDesc.demand (d : ColDesc) : Nat := d.depth * (d.chunkElem / d.segElem) * d.segRoom

/-- Chunks of `n` elements, and segments of a whole chunk. -/
def ColDesc.chunks (d : ColDesc) (n : Nat) : Nat := (n + d.chunkElem - 1) / d.chunkElem
def ColDesc.segs (d : ColDesc) : Nat := d.chunkElem / d.segElem

/-- DV lies in its range for every format used (R287). -/
def dvOk (d : ColDesc) : Bool :=
  if d.lse then decide (1 ≤ d.dv) && [d.inf, d.step, d.out].all (fun f => decide (d.dv ≤ if f = 0 then 1022 else 2044)) else d.dv == 0

/-- The operation and formats are a combination R276 and R303 admit. -/
def combOk (d : ColDesc) : Bool :=
  (if d.plain then fmtDefined d.inf && fmtDefined d.step && decide (d.rop ≤ 6)
   else
    admits d.rop d.inf d.out && admits d.rop d.step d.out &&
    (if d.kind ≤ 1 then decide (d.rop ≤ 4) else if d.kind = 4 then d.lse && d.step == 0 else d.rop == ropConvert)) &&
  (!(d.rop == 3 || d.rop == 4) || (d.inf == d.step && d.step == d.out))

/-- The checks of R303 that give BAD_DESC, but for the CID. -/
def badColDesc (bs : List Nat) : Bool :=
  let d := ColDesc.ofBytes bs
  !colZeros bs || decide (4 < d.kind) || d.alg == 3 || (decide (2 ≤ d.kind) && d.alg != 0) || !combOk d || !dvOk d ||
  d.segElem == 0 || d.chunkElem == 0 || d.chunkElem % d.segElem != 0 || decide (65536 < d.segs) || decide (262144 < d.chunks d.nelem) ||
  ([d.inf, d.step, d.out].any isMx && d.segElem % 512 != 0) ||
  decide (4080 < d.size d.step d.segElem) || decide (4080 < d.size d.out d.segElem) || decide (4096 < d.size d.inf d.segElem) ||
  decide (8 * wbScratch < d.demand) ||
  d.inAddr % 16 != 0 || d.outAddr % 16 != 0 || d.auxAddr % 16 != 0 ||
  (decide (d.kind ≤ 2) && d.auxAddr != 0) || (d.kind != 4 && d.auxLen != 0) ||
  (d.kind == 3 && d.auxAddr != 0 && (isMx d.inf || isMx d.out))

/-- The stream in WAIT or RUN, other than `u`, that carries a CID. -/
def cidTaken (u cid : Nat) (s : State) : Bool :=
  s.col.any (fun e => e.1 != u && decide (e.2.st = .wait ∨ e.2.st = .run) && e.2.d.cid == cid)

/-! ### Chunks and segments (R304) -/

/-- Elements of chunk `c` of `n`. -/
def ColDesc.chunkLen (d : ColDesc) (n c : Nat) : Nat := min d.chunkElem (n - c * d.chunkElem)
/-- Elements of segment (c, s) of `n`. -/
def ColDesc.segLen (d : ColDesc) (n c s : Nat) : Nat := min d.segElem (d.chunkLen n c - s * d.segElem)
/-- Segments of chunk `c` of `n`. -/
def ColDesc.segsOf (d : ColDesc) (n c : Nat) : Nat := (d.chunkLen n c + d.segElem - 1) / d.segElem
/-- Where segment (c, s) begins in data of a format. -/
def ColDesc.segOff (d : ColDesc) (f c s : Nat) : Nat := c * d.size f d.chunkElem + s * d.size f d.segElem
/-- The bytes of `n` elements that lie as consecutive chunks. -/
def ColDesc.total (d : ColDesc) (f n : Nat) : Nat := n / d.chunkElem * d.size f d.chunkElem + d.size f (n % d.chunkElem)
/-- The segments of `n` elements counted through, and chunk and segment of the `i`-th. -/
def ColDesc.positions (d : ColDesc) (n : Nat) : Nat := n / d.chunkElem * d.segs + (n % d.chunkElem + d.segElem - 1) / d.segElem
def ColDesc.pos (d : ColDesc) (i : Nat) : Nat × Nat := (i / d.segs, i % d.segs)

/-- The chunk number seeds use, and the rounding mode of an encoding by member `k` (R312). -/
def ColDesc.mode (d : ColDesc) (c k t s : Nat) : RMode :=
  if d.sr then .sr d.cid ((c + 2 ^ 18 * (4 * k + t)) % 2 ^ 32) (s * d.segElem * (if d.lse then d.dv else 1)) else .rne

/-! ### Roles (R310) -/

/-- Where a contribution or partial goes: the member, its index and count there, and whether as FOLD2. -/
structure FoldTo where
  dst : Nat
  cidx : Nat
  ncont : Nat
  two : Bool := false
  deriving DecidableEq, Repr

/-- A fold performed here: its level, its count, and the index of the own input. -/
structure FoldAt where
  level : Nat
  ncont : Nat
  own : Option Nat
  deriving DecidableEq, Repr

/-- Group count N of a stream. -/
def Stream.count (x : Stream) : Nat := x.members.length
/-- The owner of chunk `c`. -/
def Stream.owner (x : Stream) (c : Nat) : Nat := c % x.count
/-- The layer group that holds member `k`: its number, start and length. -/
def Stream.layerGroup (x : Stream) (k : Nat) : Nat × Nat × Nat :=
  match (layerRuns x.members).zipIdx.find? (fun r => decide (r.1.1 ≤ k) && decide (k < r.1.1 + r.1.2)) with
  | some (r, g) => (g, r.1, r.2)
  | none => (0, 0, 1)
/-- The layer owner of group (start, length) for chunk `c`. -/
def Stream.layerOwner (x : Stream) (st n c : Nat) : Nat :=
  let o := x.owner c
  if st ≤ o ∧ o < st + n then o else st + c % n

/-- What member `x.index` does for chunk `c`: where its own input goes as a FOLD, or the folds it performs. -/
def Stream.plan (x : Stream) (c : Nat) : Option FoldTo × List FoldAt :=
  let n := x.count
  let k := x.index
  let o := x.owner c
  match x.d.alg with
  | 0 => if k = o then (none, [⟨0, n, some k⟩]) else (some { dst := o, cidx := k, ncont := n }, [])
  | 1 => if (k + n - o) % n = 1 then (some { dst := (o + 2) % n, cidx := 0, ncont := 2 }, []) else (none, [⟨0, 2, some 1⟩])
  | _ =>
    let (_, st, m) := x.layerGroup k
    let lo := x.layerOwner st m c
    if k ≠ lo then (some { dst := lo, cidx := k - st, ncont := m }, [])
    else (none, ⟨1, m, some (k - st)⟩ :: (if k = o then [⟨2, (layerRuns x.members).length, none⟩] else []))

/-- Where the encoded fold of a level goes: none is the result at the owner. -/
def Stream.onward (x : Stream) (c level : Nat) : Option FoldTo :=
  let n := x.count
  let k := x.index
  let o := x.owner c
  match x.d.alg, level with
  | 1, _ => if k = o then none else some { dst := (k + 1) % n, cidx := 0, ncont := 2 }
  | 2, 1 =>
    let (g, _, _) := x.layerGroup k
    some { dst := o, cidx := g, ncont := (layerRuns x.members).length, two := true }
  | _, _ => none

/-- The member that index `i` of the fold at a level comes from (R308, R310). -/
def Stream.sender (x : Stream) (c level i : Nat) : Option Nat :=
  let n := x.count
  match x.d.alg, level with
  | 1, _ => if i = 0 then some ((x.index + n - 1) % n) else none
  | 2, 1 => some ((x.layerGroup x.index).2.1 + i)
  | 2, _ => ((layerRuns x.members)[i]?).map (fun r => x.layerOwner r.1 r.2 c)
  | _, _ => some i

/-- To whom the owner of chunk `c` places the result, and to whom a member sends on what was placed with it (R311). -/
def Stream.placeTo (x : Stream) (c : Nat) : List Nat :=
  let n := x.count
  let o := x.owner c
  let k := x.index
  match x.d.alg with
  | 0 => if k = o then (List.range n).filter (fun m => m != o) else []
  | 1 => if (k + n - o) % n ≤ n - 2 then [(k + 1) % n] else []
  | _ =>
    let (_, st, m) := x.layerGroup k
    let mates := ((List.range m).map (fun i => st + i)).filter (fun j => j != k)
    if k = o then
      mates ++ ((layerRuns x.members).filter (fun r => r.1 != st)).map (fun r => x.layerOwner r.1 r.2 c)
    else if k = x.layerOwner st m c then mates else []

/-- Chunks of `cs` that member `k` of `n` owns. -/
def ownedOf (cs n k : Nat) : Nat := cs / n + (if k < cs % n then 1 else 0)

/-- Bytes of the chunks of this member's results in OUTFMT (R311). -/
def Stream.ownBytes (x : Stream) : Nat :=
  let d := x.d
  let cs := d.chunks d.nelem
  let owned := ownedOf cs x.count x.index
  let full := d.size d.out d.chunkElem
  if cs ≠ 0 ∧ x.owner (cs - 1) = x.index then (owned - 1) * full + d.size d.out (d.chunkLen d.nelem (cs - 1)) else owned * full

/-- Bytes that others are to place here (R311, R314, R316). -/
def Stream.expects (x : Stream) : Nat :=
  let d := x.d
  match d.kind with
  | 1 => d.total d.out d.nelem - x.ownBytes
  | 2 => (x.count - 1) * cb d.out d.nelem
  | _ => 0

/-- The bytes of a PLACE's region (R307, R308). -/
def Stream.region (x : Stream) (aux : Bool) : Nat :=
  let d := x.d
  if aux then (if d.kind = 4 then 4096 + 2 * d.auxLen else 0)
  else match d.kind with
    | 0 => x.ownBytes
    | 1 => d.total d.out d.nelem
    | 4 => d.nelem * recBytes 0 d.dv
    | _ => x.count * cb d.out d.nelem

/-! ### Packets (R307) -/

/-- The flow of a collective stream or DMA channel: the lowest that the table in force binds to it (R245). -/
def flowOf (kind unit : Nat) (s : State) : Option Nat :=
  (s.banks.flowAct.find? (fun e => fld e.2 31 1 == 1 && fld e.2 28 3 == kind && fld e.2 0 10 == unit)).map (·.1)

/-- The class of a stream's packets (R190, R299). -/
def bulkClass (flow : Option Nat) : Nat := if flow.isSome then 6 else 7

/-- The slots of a REDUCE packet: header, reduce slot, data (R307). -/
def reducePacket (src dst cls : Nat) (red : Nat) (data : List Byte) : List Slot :=
  let n := (data.length + 15) / 16
  PktHdr.slot { opc := opReduce, len := (1 + n) % 256, src := src, dst := dst, cls := cls } :: BitVec.ofNat 128 red :: slotsOf 0 data n

/-- Reduce slots by phase. -/
def redFold (cid c sg gen n : Nat) (t : FoldTo) : Nat :=
  pack [(0, 32, cid), (32, 32, c), (64, 16, sg), (80, 13, t.cidx), (93, 13, t.ncont), (106, 3, bit t.two), (109, 4, gen), (114, 13, n)]
def redPlace (cid off n : Nat) (aux last : Bool) : Nat :=
  pack [(0, 32, cid), (32, 48, off), (80, 1, bit aux), (106, 3, 2), (113, 1, bit last), (114, 13, n)]
def redReady (cid j : Nat) : Nat := pack [(0, 32, cid), (32, 32, j), (106, 3, 3)]
def redRestart (cid c sg gen : Nat) : Nat := pack [(0, 32, cid), (32, 32, c), (64, 16, sg), (106, 3, 4), (109, 4, gen)]
def redAbort (cid code : Nat) : Nat := pack [(0, 32, cid), (32, 4, code), (106, 3, 5)]

end Sys2Proof.Machine
end

