-- ==== Sys2Proof/Machine/Streams.lean ====
section
/-!
DEFINITION. Collective streams at work: launch, segments, pieces, the sequence ring, ends and restarts
(11_collectives.md R302, R305 to R318).
-/
namespace Sys2Proof.Machine
open Host

/-! ### Accesses and packets of a stream -/

/-- Inner ports HIPMASK names. -/
def hipPorts (s : State) : List Nat := (List.range 16).filter (fun i => getF s colCfg i 1 == 1)
/-- The inner port of segment s of chunk c, with k = c + s (R306). -/
def colPort (k : Nat) (s : State) : Nat := (hipPorts s).getD (k % (hipPorts s).length) 0
/-- Chunk and segment, added, of a piece of an ALLGATHER or ALLTOALL block. -/
def ColDesc.turn (d : ColDesc) (i : Nat) : Nat := (d.pos i).1 + (d.pos i).2
/-- Chunk and segment, added, of the segment that begins at an offset of the results; pieces of a KV bank, which has no segments, count
through (R306; log 42). -/
def ColDesc.turnAt (d : ColDesc) (off : Nat) (aux : Bool) : Nat :=
  if aux then off / 4080
  else
    let o := if d.kind = 2 ∨ d.kind = 3 then off % max 1 (cb d.out d.nelem) else off
    let full := max 1 (d.size d.out d.chunkElem)
    o / full + o % full / max 1 (d.size d.out d.segElem)

/-- A stream notes a new outstanding access or packet; its number comes back. -/
def newJob (u : Nat) (job : ColJob) (bytes : Nat) (data : List Byte) (s : State) : Nat × State :=
  let n := (s.stream u).nextJob
  (n, updStream u (fun x => { x with nextJob := n + 1, jobs := x.jobs ++ [{ n := n, job := job, bytes := bytes, data := data }] }) s)

/-- A host READ of a stream. -/
def colRead (u port addr n : Nat) (job : ColJob) (s : State) : State :=
  let (k, t) := newJob u job n [] s
  hostAccess port { client := .stream u k, write := false, addr := addr, bytes := n, die := t.die, ready := t.cts } t

/-- A host WRITE of a stream. -/
def colWrite (u port addr : Nat) (data : List Byte) (poison : Bool) (job : ColJob) (s : State) : State :=
  let (k, t) := newJob u job data.length [] s
  hostAccess port { client := .stream u k, write := true, addr := addr, bytes := data.length, die := t.die, data := data, poison := poison, ready := t.cts } t

/-- A REDUCE packet of a stream to member `m`. -/
def colSend (u m red : Nat) (data : List Byte) (job : ColJob) (s : State) : State :=
  let d := (s.stream u).members.getD m 0
  let f := flowOf 1 u s
  let (k, t) := newJob u job data.length [] s
  submit { dst := d, slots := reducePacket t.die d (bulkClass f) red data, client := .stream u k, flow := f } t

/-- The Dresser has room for `n` more bytes of the streams' reads (R324). -/
def dresserRoom (n : Nat) (s : State) : Bool :=
  let used := (s.col.map (fun e => (e.2.jobs.map (·.bytes)).foldl (· + ·) 0)).foldl (· + ·) 0
  decide (used + n ≤ effF s dmaDress 0 6 * 65536)

/-! ### Ends (R302, R309, R317, R318) -/

/-- A FOLD that waits for a stream that has ended is answered BUSY, as one that finds no stream. -/
def turnAway (c : Contrib) (s : State) : State :=
  match c.pkt with
  | none => s
  | some x => dropNumbered x.1 x.2.1 (raise evWb 12 (bump (colCnt 2) 16 16 (finish (.remote x.2.2) 4 [] none s)))

/-- The use of a segment belongs to stream `u`. -/
def SegUse.ofStream (k : SegUse) (u : Nat) : Bool := match k with | .col v _ _ _ => v == u | _ => false

/-- Every segment and waiting contribution of a stream leaves the units. -/
def clearUnits (u : Nat) (s : State) : State :=
  let waits := (List.range 8).flatMap (fun v => (s.wbUnit v).wait.filter (fun c => c.use.ofStream u))
  let s1 := (List.range 8).foldl (fun t v => updWb v (fun x => { x with
    segs := x.segs.filter (fun g => !g.use.ofStream u), wait := x.wait.filter (fun c => !c.use.ofStream u) }) t) s
  (waits ++ (s.stream u).early).foldl (fun t c => turnAway c t) s1

/-- A PLACE that is being written is answered whatever becomes of the stream. -/
def ColJob.outlives (j : ColJob) : Bool := match j with | .place _ _ _ _ _ => true | _ => false

/-- Reads of a stream that no inner port has presented yet are dropped (R309). -/
def stopReads (u : Nat) (s : State) : State :=
  let mine (r : HostReq) : Bool := !r.write && (match r.client with | .stream v _ => v == u | _ => false)
  (s.ips.filter (fun e => e.2.wait.any mine)).foldl (fun t e => updIp e.1 (fun x => { x with wait := x.wait.filter (fun r => !mine r) }) t) s

/-- A stream ends: it stops its reads and folds and releases its scratch (R309). -/
def closeStream (u : Nat) (st : ColState) (code : Nat) (s : State) : State :=
  let s1 := stopReads u (clearUnits u s)
  let s2 := updStream u (fun x => { x with st := st, code := code, reserved := none, runTick := none, live := [], again := [], early := []
                                           jobs := x.jobs.filter (fun j => j.job.outlives) }) s1
  if st = .done then raise evWb 8 (bump (colCnt 0) 0 16 s2) else raise evWb 9 (bump (colCnt 0) 16 16 s2)

/-- The stream is under way. -/
def Stream.open_ (x : Stream) : Bool := decide (x.st = .fetch ∨ x.st = .wait ∨ x.st = .run)

/-- ABORT with a code to every other member (R309). -/
def sendAborts (u code : Nat) (s : State) : State :=
  let x := s.stream u
  ((List.range x.count).filter (fun m => m != x.index)).foldl (fun t m => colSend u m (redAbort x.d.cid code) [] (.sent none) t) s

/-- A stream fails with a code and tells the other members (R309). -/
def failStream (u code : Nat) (s : State) : State :=
  if decide ((s.stream u).st = .wait ∨ (s.stream u).st = .run) then
    let t := closeStream u .failed code s
    let t1 := sendAborts u code t
    updStream u (fun x => { x with jobs := x.jobs.filter (fun j => j.job.outlives) }) t1
  else s

/-- The code of a REDUCE answered other than OK (R309); one answered BUSY to the end has ended with TIMEOUT (R198). -/
def refusedCode (r : Nat) : Nat := if r = 4 ∨ r = 6 ∨ r = 7 then 7 else if r = 3 then 6 else 8

/-! ### Taking up segments (R305, R310) -/

def Stream.gen (x : Stream) (c sg : Nat) : Nat := ((x.gens.find? (fun g => g.1 == c && g.2.1 == sg)).map (·.2.2)).getD 0

/-- Opens a segment where a unit has room for it, and lets in the FOLDs that came early. -/
def openFor (u : Nat) (g : WbSeg) (s : State) : Option State :=
  match pickUnit g.room s with
  | none => none
  | some v =>
    let (now, later) := (s.stream u).early.partition (fun c => decide (c.use = g.use) && c.gen == g.gen)
    some (now.foldl (fun t c => offer v c t) (updStream u (fun x => { x with early := later }) (openSeg v g s)))

/-- The operation of the fold of a level on segment (c, sg) (R311, R312). -/
def Stream.foldOp (x : Stream) (c sg level : Nat) : SegOp :=
  let d := x.d
  let final := (x.onward c level).isNone
  let t := if final then 2 else if level = 1 then 1 else 0
  { rop := d.rop, out := if final then d.out else d.step, dv := d.dv, norm := final && d.norm, mode := d.mode c x.index t sg
    n := d.segLen d.nelem c sg }

/-- The encoding of the own contribution into STEPFMT. -/
def Stream.sendOp (x : Stream) (c sg : Nat) : SegOp :=
  { rop := ropConvert, out := x.d.step, mode := x.d.mode c x.index 0 sg, n := x.d.segLen x.d.nelem c sg }

/-- Member `x.index` takes up its roles for segment (c, sg): it opens its folds, or the encoding of its contribution, and
reads its input. -/
def startSegment (u c sg : Nat) (s : State) : Option State :=
  let x := s.stream u
  let d := x.d
  let g := x.gen c sg
  let n := d.size d.inf (d.segLen d.nelem c sg)
  let segs : List WbSeg := match (x.plan c).1 with
    | some _ => [{ use := .col u c sg 0, gen := g, op := x.sendOp c sg, ncont := 1, room := d.segRoom }]
    | none => (x.plan c).2.map (fun f => { use := .col u c sg f.level, gen := g, op := x.foldOp c sg f.level, ncont := f.ncont, room := d.segRoom })
  let opened := segs.foldl (fun (t : Option State) k => t.bind (openFor u k)) (some s)
  if !dresserRoom n s then none
  else opened.map (fun t =>
    colRead u (colPort (c + sg) t) (d.inAddr + d.segOff d.inf c sg) n (.input c sg g)
      (updStream u (fun y => { y with live := y.live ++ [(c, sg)] }) t))

/-- Folds of a stream that stand open, or are to be opened again, in chunks up to `c`. -/
def openFolds (u c : Nat) (s : State) : Bool :=
  (s.stream u).again.any (fun e => decide (e.1 ≤ c)) || (List.range 8).any (fun v => (s.wbUnit v).segs.any (fun g => match g.use with | .col w k _ _ => w == u && decide (k ≤ c) | _ => false))

/-- The next segment of a reduction, where the run-ahead depth and the Dresser allow it. -/
def takeReduction (u : Nat) (s : State) : Option State :=
  let x := s.stream u
  let d := x.d
  let (c, sg) := d.pos x.cursor
  if d.positions d.nelem ≤ x.cursor ∨ (d.depth ≤ c ∧ openFolds u (c - d.depth) s) then none
  else (startSegment u c sg s).map (updStream u (fun y => { y with cursor := y.cursor + 1 }))

/-! ### All-gather and all-to-all (R314, R315) -/

/-- Elements of block `j`, and the elements before it. -/
def Stream.blockLen (x : Stream) (j : Nat) : Nat := if x.d.kind = 3 ∧ x.d.auxAddr ≠ 0 then x.counts.getD j 0 else x.d.nelem
def Stream.blockStart (x : Stream) (j : Nat) : Nat :=
  if x.d.kind = 3 ∧ x.d.auxAddr ≠ 0 then cb x.d.inf ((x.counts.take j).foldl (· + ·) 0)
  else if x.d.kind = 3 then j * cb x.d.inf x.d.nelem else 0
/-- Pieces of block `j`: at least one, for an empty block. -/
def Stream.pieces (x : Stream) (j : Nat) : Nat := max 1 (x.d.positions (x.blockLen j))
/-- The offset in OUT of piece `i` of block `j` at its receiver. -/
def Stream.pieceOff (x : Stream) (i : Nat) : Nat :=
  let (c, sg) := x.d.pos i
  x.index * cb x.d.out x.d.nelem + x.d.segOff x.d.out c sg

/-- The bytes of piece `i` of block `j`, in OUTFMT: written here, placed elsewhere. -/
def putPiece (u j i : Nat) (data : List Byte) (poison : Bool) (s : State) : State :=
  let x := s.stream u
  let off := x.pieceOff i
  let last := x.d.kind == 3 && decide (i + 1 = x.pieces j)
  let here := decide (x.d.kind = 2 ∨ j = x.index)
  let s1 := updStream u (fun y => { y with poison := y.poison || poison }) s
  let s2 := if here ∧ !data.isEmpty then colWrite u (colPort (x.d.turn i) s1) (x.d.outAddr + off) data poison (.result j i poison) s1 else s1
  let dest := if x.d.kind = 2 then (List.range x.count).filter (fun m => m != x.index) else if here then [] else [j]
  dest.foldl (fun t m => colSend u m (redPlace x.d.cid off data.length false last) data (.sent (some (j, i))) t) s2

/-- The piece that comes next: block and piece number. -/
def Stream.nextPiece (x : Stream) : Nat × Nat := if x.d.kind = 2 then (0, x.cursor) else (x.cursor, x.fwdOff)

/-- Blocks to send. -/
def Stream.blocks (x : Stream) : Nat := if x.d.kind = 2 then 1 else x.count

/-- The cursor past the present piece. -/
def Stream.pastPiece (x : Stream) : Stream :=
  if x.d.kind = 2 then { x with cursor := x.cursor + 1 }
  else if x.fwdOff + 1 < x.pieces x.cursor then { x with fwdOff := x.fwdOff + 1 }
  else { x with cursor := x.cursor + 1, fwdOff := 0 }

/-- The table of counts has been read, or none is used. -/
def Stream.countsIn (x : Stream) : Bool := !(x.d.kind == 3 && x.d.auxAddr != 0) || x.counts.length == x.count

/-- Piece `i` of block `j` is read, where the Dresser and a unit allow it, and goes on its way; an empty one does so at once. -/
def startBlockPiece (u j i : Nat) (s : State) : Option State :=
  let x := s.stream u
  let d := x.d
  let (c, sg) := d.pos i
  let n := d.segLen (x.blockLen j) c sg
  if n = 0 then some (putPiece u j i [] false s)
  else if !dresserRoom (d.size d.inf n) s then none
  else
    let read (t : State) : State := colRead u (colPort (c + sg) t) (d.inAddr + x.blockStart j + d.segOff d.inf c sg) (d.size d.inf n) (.piece j i) t
    if d.plain then some (read s)
    else (openFor u { use := .col u j i 0, op := { rop := ropConvert, out := d.out, mode := d.mode (if d.kind = 3 then j else c) x.index 2 sg, n := n }
                      ncont := 1, room := d.segRoom } s).map read

/-- The next piece is taken up. -/
def takePiece (u : Nat) (s : State) : Option State :=
  let x := s.stream u
  let (j, i) := x.nextPiece
  let exceeded := if x.d.kind = 2 then decide (x.d.positions x.d.nelem ≤ i) else decide (x.count ≤ j)
  if exceeded ∨ !x.countsIn then none else (startBlockPiece u j i s).map (updStream u Stream.pastPiece)

/-! ### The sequence ring (R316) -/

/-- The step word is written. -/
def writeWord (u : Nat) (s : State) : State :=
  let x := s.stream u
  colWrite u (colPort 0 s) x.d.auxAddr (bytesOf (leBytes 4 x.kvReady ++ leBytes 4 x.merged)) false .word s

/-- The next piece of the KV block under way is read, once the block is whole and the next member is ready for it. -/
def takeKv (u : Nat) (s : State) : Option State :=
  let x := s.stream u
  let d := x.d
  let n := min 4080 (d.auxLen - x.fwdOff)
  if x.count - 1 ≤ x.fwd ∨ x.kvReady < x.fwd ∨ x.readyIn < x.fwd + 1 ∨ d.auxLen ≤ x.fwdOff ∨ !dresserRoom n s then none
  else some (updStream u (fun y => { y with fwdOff := y.fwdOff + n })
    (colRead u (colPort (x.fwdOff / 4080) s) (d.auxAddr + 4096 + x.fwd % 2 * d.auxLen + x.fwdOff) n (.kv x.fwd x.fwdOff) s))

/-- Segment (c, sg) of the merge under way: its two records are read, where the Dresser and a unit allow it. -/
def startMerge (u c sg : Nat) (s : State) : Option State :=
  let x := s.stream u
  let d := x.d
  let j := x.merged
  let n := d.segLen d.nelem c sg
  let fin := decide (j + 1 = x.count)
  if !dresserRoom (d.size d.inf n + d.size 0 n) s then none
  else (openFor u { use := .col u c sg 0, ncont := if j = 0 then 1 else 2, room := d.segRoom
                    op := { rop := ropLse, out := if fin then d.out else 0, dv := d.dv, norm := fin && d.norm, mode := d.mode c x.index 2 sg, n := n } } s).map (fun t =>
    let t1 := updStream u (fun y => { y with live := y.live ++ [(c, sg)] }) t
    let t2 := colRead u (colPort (c + sg) t1) (d.inAddr + j % 2 * (d.nelem * recBytes d.inf d.dv) + d.segOff d.inf c sg) (d.size d.inf n) (.partial_ c sg) t1
    if j = 0 then t2 else colRead u (colPort (c + sg) t2) (d.outAddr + d.segOff 0 c sg) (d.size 0 n) (.accum c sg) t2)

/-- The next segment of the merge under way is taken up. -/
def takeMerge (u : Nat) (s : State) : Option State :=
  let x := s.stream u
  let e := x.d.pos x.cursor
  if !x.merging ∨ x.d.positions x.d.nelem ≤ x.cursor then none
  else (startMerge u e.1 e.2 s).map (updStream u (fun y => { y with cursor := y.cursor + 1 }))

/-- Whether some outstanding job of the stream satisfies `f`. -/
def Stream.waits (x : Stream) (f : ColJob → Bool) : Bool := x.jobs.any (fun w => f w.job)

/-- Steps of the sequence ring that need no room: the end of a block's forwarding, the start and the end of a merge, READY
to the previous member. -/
def ringStep (u : Nat) (s : State) : Option State :=
  let x := s.stream u
  let d := x.d
  if x.fwd < x.count - 1 ∧ d.auxLen ≤ x.fwdOff ∧ x.fwd ≤ x.kvReady ∧ x.fwd + 1 ≤ x.readyIn ∧
      !x.waits (fun j => match j with | .kv _ _ => true | .sentKv _ => true | _ => false) then
    some (updStream u (fun y => { y with fwd := y.fwd + 1, fwdOff := 0 }) s)
  else if !x.merging ∧ x.merged < x.count ∧ x.merged + 1 ≤ x.edges then
    some (updStream u (fun y => { y with merging := true, cursor := 0 }) s)
  else if x.merging ∧ d.positions d.nelem ≤ x.cursor ∧ x.live.isEmpty ∧ x.again.isEmpty then
    some (writeWord u (updStream u (fun y => { y with merging := false, merged := y.merged + 1 }) s))
  else if x.readyOut ≤ x.edges ∧ x.readyOut ≤ x.fwd ∧ x.readyOut + 1 ≤ x.count - 1 then
    some (colSend u ((x.index + x.count - 1) % x.count) (redReady d.cid (x.readyOut + 1)) [] (.sent none)
      (updStream u (fun y => { y with readyOut := y.readyOut + 1 }) s))
  else none

/-- A held result of the last merge step is written once the accumulator reads at lower or equal addresses have returned. -/
def releaseHeld (u : Nat) (s : State) : Option State :=
  let x := s.stream u
  let before (c sg : Nat) : Bool := x.again.any (fun e => decide (e.1 * x.d.segs + e.2 ≤ c * x.d.segs + sg)) || x.waits (fun j => match j with | .accum c2 s2 => decide (c2 * x.d.segs + s2 ≤ c * x.d.segs + sg) | _ => false)
  match x.jobs.find? (fun w => match w.job with | .held c sg _ => !before c sg | _ => false) with
  | none => none
  | some w =>
    match w.job with
    | .held c sg p =>
      some (colWrite u (colPort (c + sg) s) (x.d.outAddr + x.d.segOff x.d.out c sg) w.data p (.result c sg p)
        (updStream u (fun y => { y with jobs := y.jobs.filter (fun k => k.n != w.n) }) s))
    | _ => none

/-! ### Progress -/

/-- Nothing of segment (c, sg) is open or outstanding. -/
def settled (u c sg : Nat) (s : State) : Bool :=
  !(List.range 8).any (fun v => (s.wbUnit v).segs.any (fun g => match g.use with | .col w k m _ => w == u && k == c && m == sg | _ => false)) &&
  !(s.stream u).waits (fun j => match j with
    | .input a b _ => a == c && b == sg | .result a b _ => a == c && b == sg | .held a b _ => a == c && b == sg
    | .accum a b => a == c && b == sg | .partial_ a b => a == c && b == sg | .sent (some (a, b)) => a == c && b == sg | _ => false)

/-- Segments whose roles here are complete are no longer live. -/
def sweep (u : Nat) (s : State) : State := updStream u (fun x => { x with live := x.live.filter (fun e => !settled u e.1 e.2 s) }) s

/-- Receive slot `k` of ALLTOALL is whole. -/
def Stream.slotWhole (x : Stream) (k : Nat) : Bool := match tget (fun _ => (0, none)) x.slots k with | (b, some n) => b == n | _ => false

/-- The stream has done all that ends it in DONE (R311, R314 to R316). -/
def Stream.complete (x : Stream) : Bool :=
  x.live.isEmpty && x.again.isEmpty && x.jobs.isEmpty && x.early.isEmpty &&
  (match x.d.kind with
   | 2 => decide (x.d.positions x.d.nelem ≤ x.cursor) && x.placed == x.expects
   | 3 => decide (x.count ≤ x.cursor) && (List.range x.count).all x.slotWhole
   | 4 => x.merged == x.count && decide (x.count - 1 ≤ x.fwd)
   | _ => decide (x.d.positions x.d.nelem ≤ x.cursor) && x.placed == x.expects)

/-- The first of the segments to be performed again is taken up (R317). -/
def takeAgain (u : Nat) (s : State) : Option State :=
  match (s.stream u).again with
  | [] => none
  | (c, sg) :: rest =>
    let t := updStream u (fun x => { x with again := rest }) s
    match (s.stream u).d.kind with
    | 2 => startBlockPiece u c sg t
    | 3 => startBlockPiece u c sg t
    | 4 => startMerge u c sg t
    | _ => startSegment u c sg t

/-- The first of these steps that can be taken is. -/
def firstStep : List (State → Option State) → State → Option State
  | [], _ => none
  | f :: fs, s => match f s with | some t => some t | none => firstStep fs s

/-- One thing more that the stream can do now. -/
def stepStream (u : Nat) (s : State) : Option State :=
  match (s.stream u).d.kind with
  | 2 => firstStep [takeAgain u, takePiece u] s
  | 3 => firstStep [takeAgain u, takePiece u] s
  | 4 => firstStep [takeAgain u, ringStep u, releaseHeld u, takeKv u, takeMerge u] s
  | _ => firstStep [takeAgain u, takeReduction u] s

/-- The stream goes on as far as it can; `n` bounds it. -/
def goOn : Nat → Nat → State → State
  | 0, _, s => s
  | n + 1, u, s =>
    match stepStream u (sweep u s) with
    | some t => goOn n u t
    | none => sweep u s

/-- No segment of the stream is on any unit. -/
def noSegs (u : Nat) (s : State) : Bool := (List.range 8).all (fun v => (s.wbUnit v).segs.all (fun g => !g.use.ofStream u))

/-- A stream in RUN goes on, and ends where nothing is left for it. -/
def progress (u : Nat) (s : State) : State :=
  if (s.stream u).st = .run then
    let x := s.stream u
    let t := goOn (x.d.depth * x.d.segs + x.count + 4096) u s
    if (t.stream u).complete ∧ noSegs u t then closeStream u .done (if (t.stream u).poison then 2 else 1) t else t
  else s

/-! ### Results (R311 to R316) -/

/-- A result of segment (c, sg) at its owner: written here, placed at the others. -/
def putResult (u c sg : Nat) (data : List Byte) (poison : Bool) (s : State) : State :=
  let x := s.stream u
  let d := x.d
  let inChunk := sg * d.size d.out d.segElem
  let off := (if d.kind = 0 then c / x.count else c) * d.size d.out d.chunkElem + inChunk
  let s1 := colWrite u (colPort (c + sg) s) (d.outAddr + off) data poison (.result c sg poison) (updStream u (fun y => { y with poison := y.poison || poison }) s)
  if d.kind = 1 then
    (x.placeTo c).foldl (fun t m => colSend u m (redPlace d.cid off data.length false false) data (.sent (some (c, sg))) t) s1
  else s1

/-- A partial or own contribution of segment (c, sg) goes to its fold: in a FOLD, or locally where that fold is here. -/
def putPartial (u c sg gen : Nat) (dest : FoldTo) (data : List Byte) (poison : Bool) (s : State) : State :=
  let x := s.stream u
  if dest.dst = x.index then
    let use := SegUse.col u c sg 2
    match unitOf use s with
    | some v => offer v { use := use, gen := gen, idx := dest.cidx, fmt := x.d.step, data := data, poison := poison } s
    | none => s
  else colSend u dest.dst (redFold x.d.cid c sg gen data.length dest) data (.sent (some (c, sg)))
    (updStream u (fun y => { y with poison := y.poison || poison }) s)

/-- The encoded output of a stream's segment (R296). -/
def streamSegment (u c sg level gen : Nat) (data : List Byte) (poison : Bool) (s : State) : State :=
  let x := s.stream u
  match x.d.kind with
  | 2 => putPiece u c sg data poison s
  | 3 => putPiece u c sg data poison s
  | 4 =>
    let s1 := updStream u (fun y => { y with poison := y.poison || poison }) s
    if x.merged + 1 = x.count then (newJob u (.held c sg poison) 0 data s1).2
    else colWrite u (colPort (c + sg) s1) (x.d.outAddr + x.d.segOff 0 c sg) data poison (.result c sg poison) s1
  | _ =>
    match (x.plan c).1 with
    | some dest => putPartial u c sg gen dest data poison s
    | none =>
      match x.onward c level with
      | some dest => putPartial u c sg gen dest data poison s
      | none => putResult u c sg data poison s

/-- Own input of segment (c, sg) has come: it enters the own fold in INFMT, or is encoded to be sent (R310). -/
def ownInput (u c sg gen : Nat) (data : List Byte) (poison : Bool) (s : State) : State :=
  let x := s.stream u
  let f := ((x.plan c).2.find? (fun f => f.own.isSome)).getD ⟨0, 1, some 0⟩
  let use := SegUse.col u c sg f.level
  if x.gen c sg ≠ gen then s
  else (unitOf use s).elim s (fun v =>
    offer v { use := use, gen := gen, idx := f.own.getD 0, fmt := x.d.inf, data := data, poison := poison } s)

/-! ### Answers to a stream -/

/-- A byte count has been placed in receive slot `k` of ALLTOALL, the last of them at `total`; with a count table, a whole
slot's count is written (R315). -/
def fillSlot (u k n : Nat) (total : Option Nat) (s : State) : State :=
  let x := s.stream u
  let (b, t) := tget (fun _ => (0, none)) x.slots k
  let e := (b + n, match total with | some v => some v | none => t)
  let s1 := updStream u (fun y => { y with slots := tput y.slots k e }) s
  if (s1.stream u).slotWhole k ∧ !x.slotWhole k ∧ x.d.auxAddr ≠ 0 then
    colWrite u (colPort k s1) (x.d.auxAddr + 4 * x.count + 4 * k) (bytesOf (leBytes 4 ((e.2.getD 0) / elemSize x.d.out))) false .word s1
  else s1

/-- A PLACE of another member has been written and answered OK. -/
def notePlaced (u src off n : Nat) (aux last : Bool) (s : State) : State :=
  let x := s.stream u
  let s1 := updStream u (fun y => { y with placed := y.placed + n }) s
  if aux then
    let k := x.kvReady + 1
    let got := tget (fun _ => 0) x.kvIn k + n
    let s2 := updStream u (fun y => { y with kvIn := tput y.kvIn k got }) s1
    if got = x.d.auxLen then writeWord u (updStream u (fun y => { y with kvReady := k }) s2) else s2
  else if x.d.kind = 3 then
    let k := ((x.members.zipIdx.find? (fun e => e.1 == src)).map (·.2)).getD 0
    fillSlot u k n (if last then some (off + n - k * cb x.d.out x.d.nelem) else none) s1
  else s1

/-- Counts of ALLTOALL have come, 4 bytes each (R315). -/
def takeCounts (u off : Nat) (data : List Byte) (s : State) : State :=
  let x := s.stream u
  let cs := (List.range (data.length / 4)).map (fun i => leNum (nats ((data.drop (4 * i)).take 4)))
  let s1 := updStream u (fun y => { y with counts := (y.counts.take (off / 4)) ++ cs }) s
  if cs.any (fun c => decide (x.d.nelem < c)) then failStream u 12 s1
  else if (s1.stream u).countsIn then
    let own := (s1.stream u).counts.getD x.index 0
    fillSlot u x.index 0 (some (cb x.d.out own)) s1
  else
    let n := min 4096 (4 * (x.count - (s1.stream u).counts.length))
    colRead u (colPort 0 s1) (x.d.auxAddr + off + data.length) n (.counts (off + data.length)) s1

/-- A stream's access or packet is answered (R309, R311, R314 to R316, R318). -/
def streamAnswer (u : Nat) (w : ColWait) (r : Nat) (data : List Byte) (s0 : State) : State :=
  let s := updStream u (fun y => { y with jobs := y.jobs.filter (fun k => k.n != w.n) }) s0
  let x := s.stream u
  match w.job with
  | .place q off aux last onward =>
    let t := finish (.remote q) r [] none s
    if x.st ≠ .run then t
    else if r = 0 then
      let t1 := notePlaced u q.src off w.bytes aux last t
      onward.foldl (fun a m => colSend u m (redPlace x.d.cid off w.data.length false last) w.data (.sent none) a) t1
    else failStream u 6 t
  | .input c sg g => ownInput u c sg g data (r != 0) s
  | .piece j i =>
    if x.d.plain then (if r = 0 then putPiece u j i data false s else failStream u 6 s)
    else (unitOf (.col u j i 0) s).elim s (fun v => offer v { use := .col u j i 0, idx := 0, fmt := x.d.inf, data := data, poison := r != 0 } s)
  | .counts off => if r = 0 then takeCounts u off data s else failStream u 6 s
  | .kv j off =>
    if r = 0 then
      colSend u ((x.index + 1) % x.count) (redPlace x.d.cid (4096 + (j + 1) % 2 * x.d.auxLen + off) data.length true false) data (.sentKv j) s
    else failStream u 6 s
  | .accum c sg => (unitOf (.col u c sg 0) s).elim s (fun v => offer v { use := .col u c sg 0, idx := 0, fmt := 0, data := data, poison := r != 0 } s)
  | .partial_ c sg =>
    (unitOf (.col u c sg 0) s).elim s (fun v =>
      offer v { use := .col u c sg 0, idx := if x.merged = 0 then 0 else 1, fmt := x.d.inf, data := data, poison := r != 0 } s)
  | .result _ _ p =>
    if r = 0 ∨ p then (if x.d.kind = 3 then fillSlot u x.index w.bytes none s else s) else failStream u 6 s
  | .word => if r = 0 then s else failStream u 6 s
  | .sentRestart => if r = 0 then s else if r = 4 then failStream u 10 s else failStream u (refusedCode r) s
  | .sent _ => if r = 0 then s else failStream u (refusedCode r) s
  | .sentKv _ => if r = 0 then s else failStream u (refusedCode r) s
  | _ => s

/-- The answer for a stream's job, but for a descriptor fetch, which COL_DESCRIPTOR_RX takes. -/
def streamJob (a : Answer) (s : State) : Option (Nat × ColWait) :=
  match a.client with
  | .stream u n => ((s.stream u).jobs.find? (fun w => w.n == n && decide (w.job ≠ .desc))).map (fun w => (u, w))
  | _ => none

/-- An answer that nobody waits for any more. -/
def strayAnswer (a : Answer) (s : State) : Bool :=
  match a.client with
  | .stream u n => !(s.stream u).jobs.any (fun w => w.n == n)
  | .chan c n => !(tget chan0 s.dma c).waits.any (fun w => w.n == n)
  | _ => false

/-- The streams take up the answers that have come for them; `n` bounds it. -/
def drainStreams : Nat → State → State
  | 0, s => s
  | n + 1, s =>
    match s.tx.done.find? (fun a => (streamJob a s).isSome || strayAnswer a s) with
    | none => s
    | some a =>
      let t := updT (fun k => { k with done := k.done.erase a }) s
      match streamJob a s with
      | some (u, w) => drainStreams n (progress u (streamAnswer u w a.resp a.data t))
      | none => drainStreams n t

/-- Whatever has been answered reaches the streams in the same step, while the adapter acts. -/
def settle (s : State) : State := if s.acts then drainStreams (s.tx.done.length + 1) s else s

/-! ### Restarts (R317) -/

/-- The generation of segment (c, sg) becomes `g`; none where it finds no room or would exceed 15. -/
def setGen (u c sg g : Nat) (s : State) : Option State :=
  let x := s.stream u
  let others := x.gens.filter (fun e => !(e.1 == c && e.2.1 == sg))
  if 15 < g ∨ 64 ≤ others.length then none
  else some (updStream u (fun y => { y with gens := others ++ [(c, sg, g)] }) s)

/-- FOLDs of a generation that has been left are answered OK and counted as stale (R308). -/
def staleFold (k : Contrib) (s : State) : State := acceptContrib k (if k.pkt.isSome then raise evWb 13 (bump (colCnt 1) 16 16 s) else s)

/-- What a stream reads for (c, sg) again when that is performed again. -/
def ColJob.rereads (j : ColJob) (c sg : Nat) : Bool :=
  match j with
  | .input a b _ => a == c && b == sg
  | .piece a b => a == c && b == sg
  | .accum a b => a == c && b == sg
  | .partial_ a b => a == c && b == sg
  | _ => false

/-- The open state of (c, sg) of generations before `g` is discarded; FOLDs of `g` that have come already wait for it (R308, R317). -/
def discardOpen (u c sg g : Nat) (s : State) : State :=
  let mine (k : SegUse) : Bool := match k with | .col w a b _ => w == u && a == c && b == sg | _ => false
  let waits := (List.range 8).flatMap (fun v => (s.wbUnit v).wait.filter (fun k => mine k.use)) ++ (s.stream u).early.filter (fun k => mine k.use)
  let s1 := (List.range 8).foldl (fun t v => updWb v (fun x => { x with
    segs := x.segs.filter (fun e => !mine e.use), wait := x.wait.filter (fun k => !mine k.use) }) t) s
  let s2 := updStream u (fun y => { y with
    jobs := y.jobs.filter (fun w => !w.job.rereads c sg)
    early := y.early.filter (fun k => !mine k.use) ++ waits.filter (fun k => decide (g ≤ k.gen)) }) s1
  (waits.filter (fun k => decide (k.gen < g))).foldl (fun t k => staleFold k t) s2

/-- The roles for (c, sg) are to be performed again, as soon as there is room for them. -/
def redo (u c sg : Nat) (s : State) : State :=
  updStream u (fun y => { y with
    live := y.live.filter (fun e => !(e.1 == c && e.2 == sg)), again := y.again.filter (fun e => !(e.1 == c && e.2 == sg)) ++ [(c, sg)] }) s

/-- A member receives RESTART for (c, sg) at generation `g`. -/
def restartSeg (u c sg g : Nat) (s : State) : State :=
  let x := s.stream u
  if g ≤ x.gen c sg then s
  else match setGen u c sg g s with
    | none => failStream u 10 s
    | some t =>
      let d := x.d
      let t1 := discardOpen u c sg g t
      if c * d.segs + sg < x.cursor ∧ sg < d.segsOf d.nelem c then redo u c sg t1 else t1

/-- This member lost segment (c, sg): it raises the generation and sends RESTART to every member, itself included; a merge
segment of the sequence ring, and a piece of ALLGATHER or ALLTOALL, which no other member folds, is performed again here alone. -/
def loseSegment (u c sg : Nat) (s : State) : State :=
  let x := s.stream u
  if x.st ≠ .run then s
  else if 2 ≤ x.d.kind then redo u c sg (discardOpen u c sg 16 s)
  else
    let g := x.gen c sg + 1
    if (setGen u c sg g s).isNone then failStream u 10 s
    else
      let s1 := raise evWb 10 (bump (colCnt 1) 0 16 (updStream u (fun y => { y with restarts := min 15 (y.restarts + 1) }) s))
      let s2 := ((List.range x.count).filter (fun m => m != x.index)).foldl (fun t m => colSend u m (redRestart x.d.cid c sg g) [] .sentRestart t) s1
      restartSeg u c sg g s2

end Sys2Proof.Machine
end

