-- ==== Sys2Proof/Machine/CollectiveOps.lean ====
section
/-!
DEFINITION. The commands of collectives: launch and abort, REDUCE packets received, stalls, and edges of the sequence
ring (11_collectives.md R302, R306 to R309, R316; R294).
-/
namespace Sys2Proof.Machine
open Host

/-! ### Launch (R302, R303, R306) -/

/-- A write that changes nothing and raises RANGE (R7). -/
def outOfRange (s : State) : State := raise evGlb 0 s

/-- GO is refused to a stream that is open (R302), and of an adapter that is not in RUN (R422). -/
def goRefused (u : Nat) (s : State) : Bool := (s.stream u).open_ || decide (s.bnd.adp ≠ .run)

/-- GO in COL_CMD: the stream enters FETCH and reads its descriptor. -/
def colGo (u : Nat) (s : State) : State :=
  if goRefused u s then outOfRange s
  else
    let addr := getF s colDaddrLo 6 26 * 64 + getF s colDaddrHi 0 16 * 2 ^ 32
    let s1 := updStream u (fun x => { st := .fetch, nextJob := x.nextJob, jobs := x.jobs.filter (fun j => j.job.outlives) }) s
    colRead u ((hipPorts s1).headD 0) addr 64 .desc s1

/-- COL_GO (R302). -/
def execColGo (u : StreamId) (s : State) : Outcome State Fault Refusal := .next (hostWrite (colGo u) s)

/-- COL_ABORT (R309): as an ABORT received, with ABORT to every other member. -/
def execColAbort (u : StreamId) (s : State) : Outcome State Fault Refusal := .next (hostWrite (failStream u 9) s)

/-- Scratch reserved by streams, in bytes (R306). -/
def colReserved (s : State) : Nat := (s.col.map (fun e => e.2.reserved.getD 0)).foldl (· + ·) 0

/-- A stream in WAIT reserves its scratch where that much is free, and learns when it enters RUN (R302, R306). -/
def reserve (u : Nat) (s : State) : State :=
  let x := s.stream u
  if x.st = .wait ∧ x.reserved.isNone ∧ colReserved s + x.d.demand ≤ (wbUnits s).length * wbScratch then
    let ahead := (x.d.start + 2 ^ 32 - s.tick % 2 ^ 32) % 2 ^ 32
    let late := x.d.startEn && decide ((s.tick % 2 ^ 32 + 2 ^ 32 - x.d.start) % 2 ^ 32 < 2 ^ 31)
    let run := if x.d.startEn && !late then s.tick + ahead else s.tick + 1
    let t := updStream u (fun y => { y with reserved := some y.d.demand, runTick := some run }) s
    if late then raise evWb 11 t else t
  else s

/-- A word of a group's entry or of its member entries is uncorrectable: the group counts as not valid until it is written and activated
again (R388). -/
def grpUncorr (g : Nat) (s : State) : State :=
  let t := sramUncorr unitTest unitTest .adapter 7 .poisoned s
  { t with banks := { t.banks with grpAct := tmod word0 t.banks.grpAct g (fun w => setFld w 27 1 0) } }

/-- COL_DESCRIPTOR_RX (R302, R303): the descriptor has come, or its READ has failed. `c.bad` says that a word of the group it names
is uncorrectable. -/
def execColDescriptorRx (c : Checked StreamId) (s : State) : Outcome State Fault Refusal :=
  let u := c.on
  let x := s.stream u
  let mine (a : Answer) : Bool := match a.client with | .stream v n => v == u.val && x.jobs.any (fun w => w.n == n && decide (w.job = .desc)) | _ => false
  if !s.acts then .next s else
  match s.tx.done.find? mine with
  | none => .next s
  | some a =>
    let s1 := updStream u (fun y => { y with jobs := y.jobs.filter (fun w => decide (w.job ≠ .desc)) }) (updT (fun k => { k with done := k.done.erase a }) s)
    if x.st ≠ .fetch then .next s1
    else
      let bs := nats a.data
      let d := ColDesc.ofBytes bs
      if a.resp ≠ 0 then .next (closeStream u .failed 4 s1)
      else if badColDesc bs || cidTaken u d.cid s then .next (closeStream u .failed 3 s1)
      else
        let s2 := if c.bad then grpUncorr d.group s1 else s1
        match groupMembers d.group s2 with
        | none => .next (closeStream u .failed 5 s2)
        | some ms =>
          match ms.zipIdx.find? (fun e => e.1 == s.die) with
          | none => .next (closeStream u .failed 5 s2)
          | some (_, k) =>
            if hasTwice ms || (d.alg == 2 && layersSplit ms) then .next (closeStream u .failed 5 s2)
            else .next (reserve u (updStream u (fun y => { y with st := .wait, d := d, members := ms, index := k }) s2))

/-- SCRATCH_RESERVED (R306). -/
def execScratchReserved (u : StreamId) (s : State) : Outcome State Fault Refusal := if s.acts then .next (reserve u s) else .next s

/-- A stream enters RUN (R302, R315, R316). -/
def enterRun (u : Nat) (s : State) : State :=
  let s1 := updStream u (fun x => { x with st := .run, runTick := none }) s
  let x := s1.stream u
  if x.d.kind = 4 then
    colSend u ((x.index + x.count - 1) % x.count) (redReady x.d.cid 1) [] (.sent none)
      (writeWord u (updStream u (fun y => { y with readyOut := 1 }) s1))
  else if x.d.kind = 3 then
    if x.d.auxAddr = 0 then fillSlot u x.index 0 (some (cb x.d.out x.d.nelem)) s1
    else colRead u (colPort 0 s1) x.d.auxAddr (min 4096 (4 * x.count)) (.counts 0) s1
  else s1

/-- COL_START_TICK (R302). -/
def execColStartTick (u : StreamId) (s : State) : Outcome State Fault Refusal :=
  match (s.stream u).runTick with
  | some t => if s.acts && decide ((s.stream u).st = .wait) && decide (t ≤ s.tick) && decide (s.cyc = 0) then .next (progress u (enterRun u s)) else .next s
  | none => .next s

/-! ### REDUCE packets received (R308) -/

/-- The first REDUCE for this die of the phases `f`, whole and well formed by itself. -/
def reduceAt (p : Nat) (f : Nat → Bool) (s : State) : Option CupPkt :=
  firstPkt p (fun c => c.complete && decide (c.hdr.dst = s.die) && c.hdr.opc == opReduce && !badRequest c && f (redPhase (c.slots.getD 1 0))) s

/-- A REDUCE is answered and its cells are freed. -/
def answerReduce (p : Nat) (c : CupPkt) (r : Nat) (s : State) : State := dropPkt p c (finish (.remote (remoteOf c.hdr 0)) r [] none s)

/-- A REDUCE that finds no stream (R308). -/
def noStream (p : Nat) (c : CupPkt) (s : State) : State := answerReduce p c 4 (raise evWb 12 (bump (colCnt 2) 16 16 s))

/-- A REDUCE goes through the pair state, and is then handled by `f` (R308). -/
def reduceGate (p : Nat) (c : CupPkt) (f : State → State) (s : State) : State :=
  if s.bnd.adp = .test then dropPkt p c (answerOnly c.hdr 4 s)
  else
    let (g, t) := gate c.hdr s
    if g = .fresh then f t else dropPkt p c t

/-- The stream in RUN (or, for an ABORT, in WAIT) that carries a CID. -/
def streamFor (cid : Nat) (wait : Bool) (s : State) : Option Nat :=
  (s.col.find? (fun e => e.2.d.cid == cid && (decide (e.2.st = .run) || (wait && decide (e.2.st = .wait))))).map (·.1)

/-- The bytes of a REDUCE's data. -/
def reduceData (c : CupPkt) : List Byte := bytesFrom 0 (redBytes (c.slots.getD 1 0)) (c.slots.drop 2)
/-- Some of its data slots are poisoned. -/
def reducePoison (c : CupPkt) : Bool := c.bad.any (fun i => decide (2 ≤ i))

/-- Runs a REDUCE command on the first packet of its phases; `bad` says that its header slot is uncorrectable. -/
def onReduce (p : Nat) (f : Nat → Bool) (bad : Bool) (h : CupPkt → State → State) (s : State) : Outcome State Fault Refusal :=
  if !s.acts then .next s else
  match reduceAt p f s with
  | none => .next s
  | some c =>
    if bad then .next (sramUncorr (unitPort p) (unitPort p) .port 1 .poisoned (dropPkt p c s))
    else .next (settle (reduceGate p c (h c) s))

/-- A FOLD or FOLD2 that has passed its checks: it goes to the unit of its segment, or is held until that opens (R305); where the folds
here are complete it is one that came twice (R295). -/
def admitFold (p u : Nat) (c : CupPkt) (k : Contrib) (ch sg : Nat) (s : State) : State :=
  let s1 := updPkt p c.id (fun x => { x with taken := true }) s
  let x := s.stream u
  let now := k.gen == x.gen ch sg && !x.again.contains (ch, sg)
  match (if now then unitOf k.use s else none) with
  | some v => offer v k s1
  | none =>
    if now && decide (ch * x.d.segs + sg < x.cursor) then acceptContrib k s1
    else bump (colCnt 2) 0 16 (updStream u (fun x => { x with early := x.early ++ [k] }) s1)

/-- The cycle from which what a whole packet brings may be used, and the CTS of its last slot (R193, R252). -/
def wholeAt (p : Nat) (c : CupPkt) (s : State) : Nat := dueAt p c (c.slots.length - 1) s
def CupPkt.lastSlot (c : CupPkt) : Nat := slotAt c (c.slots.length - 1)

/-- A FOLD or FOLD2 at its stream (R308). -/
def foldRx (p : Nat) (c : CupPkt) (s : State) : State :=
  let r := c.slots.getD 1 0
  match streamFor (sf r 0 32) false s with
  | none => noStream p c s
  | some u =>
    let x := s.stream u
    let d := x.d
    let ch := sf r 32 32
    let sg := sf r 64 16
    let i := sf r 80 13
    let level := if redPhase r = 1 then 2 else if d.alg = 2 then 1 else 0
    let gen := sf r 109 4
    match (if d.kind ≤ 1 ∧ ch < d.chunks d.nelem ∧ sg < d.segsOf d.nelem ch then (x.plan ch).2.find? (fun f => f.level == level) else none) with
    | none => answerReduce p c 8 s
    | some f =>
      if redBytes r ≠ d.size d.step (d.segLen d.nelem ch sg) ∨ sf r 93 13 ≠ f.ncont ∨ f.ncont ≤ i then answerReduce p c 8 s
      else if ((x.sender ch level i).map (fun m => x.members.getD m 0)) ≠ some c.hdr.src ∨ f.own = some i then answerReduce p c 2 s
      else if gen < x.gen ch sg then answerReduce p c 0 (raise evWb 13 (bump (colCnt 1) 16 16 s))
      else admitFold p u c ({ use := .col u ch sg level, gen := gen, idx := i, fmt := d.step, data := reduceData c, poison := reducePoison c
                              pkt := some (p, c.id, remoteOf c.hdr 0), due := wholeAt p c s, timed := c.timed, slot := c.lastSlot } : Contrib) ch sg s

/-- REDUCE_FOLD_RX (R308). -/
def execReduceFoldRx (p : PortId) (bad : Bool) (s : State) : Outcome State Fault Refusal := onReduce p (fun k => decide (k ≤ 1)) bad (foldRx p) s

/-- A group member's packet of another phase, at its stream: `f` handles it (R308). -/
def memberRx (p : Nat) (wait : Bool) (c : CupPkt) (f : Nat → State → State) (s : State) : State :=
  match streamFor (sf (c.slots.getD 1 0) 0 32) wait s with
  | none => noStream p c s
  | some u => if (s.stream u).members.contains c.hdr.src then f u s else answerReduce p c 2 s

/-- A PLACE at its stream: within its region, its bytes are written and sent on (R307, R308, R311). -/
def placeRx (p : Nat) (c : CupPkt) (s0 : State) : State :=
  let r := c.slots.getD 1 0
  let off := sf r 32 48
  let aux := sf r 80 1 == 1
  let n := redBytes r
  match streamFor (sf r 0 32) false s0 with
  | none => noStream p c s0
  | some u0 =>
    if (s0.stream u0).region aux < off + n then answerReduce p c 8 s0
    else memberRx p false c (fun u s =>
      let x := s.stream u
      let d := x.d
      let last := sf r 113 1 == 1
      if n = 0 then answerReduce p c 0 (notePlaced u c.hdr.src off 0 aux last s)
      else
        let ch := off / max 1 (d.size d.out d.chunkElem)
        let dest := if d.kind = 1 ∧ !aux then x.placeTo ch else []
        let data := reduceData c
        let (k, t) := newJob u (.place (remoteOf c.hdr 0) off aux last dest) n data s
        dropPkt p c (hostAccess (colPort (d.turnAt off aux) t)
          { client := .stream u k, write := true, addr := ((if aux then d.auxAddr else d.outAddr) + off) % 2 ^ 48, bytes := n, die := c.hdr.src
            data := data, poison := reducePoison c, ready := wholeAt p c s, port := p, timed := c.timed, slot := c.lastSlot } t)) s0

/-- REDUCE_PLACE_RX (R308). -/
def execReducePlaceRx (p : PortId) (bad : Bool) (s : State) : Outcome State Fault Refusal := onReduce p (fun k => k == 2) bad (placeRx p) s

/-- REDUCE_READY_RX (R308, R316). -/
def execReduceReadyRx (p : PortId) (bad : Bool) (s : State) : Outcome State Fault Refusal :=
  onReduce p (fun k => k == 3) bad (fun c => memberRx p false c (fun u t =>
    progress u (answerReduce p c 0 (updStream u (fun x => { x with readyIn := max x.readyIn (sf (c.slots.getD 1 0) 32 32) }) t)))) s

/-- REDUCE_RESTART_RX (R308, R317). -/
def execReduceRestartRx (p : PortId) (bad : Bool) (s : State) : Outcome State Fault Refusal :=
  onReduce p (fun k => k == 4) bad (fun c => memberRx p false c (fun u t =>
    let r := c.slots.getD 1 0
    progress u (restartSeg u (sf r 32 32) (sf r 64 16) (sf r 109 4) (answerReduce p c 0 t)))) s

/-- REDUCE_ABORT_RX (R308, R309): the stream ends FAILED with ABORTED. -/
def execReduceAbortRx (p : PortId) (bad : Bool) (s : State) : Outcome State Fault Refusal :=
  onReduce p (fun k => k == 5) bad (fun c => memberRx p true c (fun u t => closeStream u .failed 9 (answerReduce p c 0 t))) s

/-! ### Stalls and edges -/

/-- ORDER_STALL (R294, R318): raised once for the wait, and the stream shows the die and index awaited. -/
def execOrderStall (u : WbId) (s : State) : Outcome State Fault Refusal :=
  if !s.acts then .next s else
  match stalledSeg u s with
  | none => .next s
  | some g =>
    let t := raise evWb 5 (updSeg u g.use (fun x => { x with stalled := true }) s)
    match g.use with
    | .col v c _ level =>
      let x := s.stream v
      .next (updStream v (fun y => { y with stall := some (x.members.getD (if x.d.kind ≤ 1 then (x.sender c level g.next).getD x.index else x.index) 0, g.next) }) t)
    | .chan _ _ => .next t

/-- A qualified edge of a PACE line reaches the sequence rings that follow it (R316). -/
def colEdge (line : Nat) (s : State) : State :=
  (s.col.filter (fun e => e.2.d.kind == 4 && e.2.d.paceIdx == line && decide (e.2.st = .wait ∨ e.2.st = .run))).foldl
    (fun t e => progress e.1 (updStream e.1 (fun x => { x with edges := x.edges + 1 }) t)) s

/-- The activation of the tables changes the group of a stream in WAIT or RUN: it ends FAILED with GROUP_CHANGED, and sends
no ABORT (R301). `old` is the state before the activation. -/
def groupsChanged (old s : State) : State :=
  s.col.foldl (fun t e =>
    if decide (e.2.st = .wait ∨ e.2.st = .run) && (grpEntry e.2.d.group old != grpEntry e.2.d.group s || groupMembers e.2.d.group old != groupMembers e.2.d.group s) then closeStream e.1 .failed 11 t else t) s

end Sys2Proof.Machine
end

