-- ==== Sys2Proof/Machine/DmaDesc.lean ====
section
/-!
DEFINITION. DMA descriptors, address patterns, transforms and extents (12_dma_channels.md R327 to R329;
13_dma_datapaths.md R351 to R367).
-/
namespace Sys2Proof.Machine
open Host

/-- Bits `lo + n - 1` to `lo` of word `k` of a descriptor image (R327). -/
def dw (img : List Nat) (k lo n : Nat) : Nat := leNum ((img.drop (8 * k)).take 8) / 2 ^ lo % 2 ^ n

/-! ### Head fields (R327) -/

def hOwn (i : List Nat) : Bool := dw i 0 0 1 == 1
def hExt (i : List Nat) : Bool := dw i 0 1 1 == 1
def hIrq (i : List Nat) : Bool := dw i 0 2 1 == 1
def hFence (i : List Nat) : Bool := dw i 0 3 1 == 1
def hPaced (i : List Nat) : Bool := dw i 0 4 1 == 1
def hStop (i : List Nat) : Bool := dw i 0 5 1 == 1
def hPattern (i : List Nat) : Nat := dw i 0 8 4
def hXform (i : List Nat) : Nat := dw i 0 12 4
def hInf (i : List Nat) : Nat := dw i 0 16 4
def hOut (i : List Nat) : Nat := dw i 0 20 4
def hSr (i : List Nat) : Bool := dw i 0 24 1 == 1
def hXparam (i : List Nat) : Nat := dw i 3 44 8
def hSeed (i : List Nat) : Nat := dw i 4 32 32
def hNext (i : List Nat) : Nat := dw i 7 0 48

/-- The piece a head or a PIECE extension describes (R327, R328). -/
def pieceOf (hop at_ : Nat) (i : List Nat) : Piece :=
  { hop := hop, at_ := at_, sAddr := dw i 1 0 48, dAddr := dw i 2 0 48, sDie := dw i 3 0 18, sFab := dw i 3 18 1 == 1
    dDie := dw i 3 20 18, dFab := dw i 3 38 1 == 1, ip := dw i 3 40 4, len := dw i 4 0 32
    p := [dw i 5 0 64, dw i 6 0 64, 0, 0, 0, 0, 0, 0] }

/-- The piece with the words P2 to P7 of a PARAM extension (R328). -/
def Piece.withParams (k : Piece) (i : List Nat) : Piece := { k with p := k.p.take 2 ++ (List.range 6).map (fun j => dw i (j + 1) 0 64) }

/-! ### Pattern parameters (R353, R355) -/

def Piece.pw (k : Piece) (j lo n : Nat) : Nat := k.p.getD j 0 / 2 ^ lo % 2 ^ n
def Piece.row (k : Piece) : Nat := k.pw 0 0 24
def Piece.nrow (k : Piece) : Nat := k.pw 0 24 16
/-- Planes: 1 for STRIDE2. -/
def Piece.nplane (k : Piece) (pat : Nat) : Nat := if pat = 2 then k.pw 0 40 16 else 1
def Piece.sstr1 (k : Piece) : Int := toInt 32 (k.pw 1 0 32)
def Piece.dstr1 (k : Piece) : Int := toInt 32 (k.pw 1 32 32)
def Piece.sstr2 (k : Piece) : Int := toInt 48 (k.pw 2 0 48)
def Piece.dstr2 (k : Piece) : Int := toInt 48 (k.pw 3 0 48)
def Piece.iaddr (k : Piece) : Nat := k.pw 0 0 48
def Piece.elem (k : Piece) : Nat := k.pw 1 0 17
def Piece.oshift (k : Piece) : Nat := k.pw 1 17 4
def Piece.imax (k : Piece) : Nat := if k.pw 1 32 32 = 0 then 0xFFFFFFFF else k.pw 1 32 32
def Piece.nidx (k : Piece) : Nat := k.len / k.elem
/-- Bytes of quota the held index table takes (R357). -/
def Piece.tabRoom (k : Piece) : Nat := (4 * k.nidx + 4095) / 4096 * 4096

/-- The NULL index (R356). -/
def nullIdx : Nat := 0xFFFFFFFF

/-! ### Where a position lies (R351 to R356) -/

/-- A strided address: start, row stride, plane stride (R354). -/
def strided (a : Nat) (s1 s2 : Int) (k : Piece) (n : Nat) : Int :=
  let r := n / k.row
  (a : Int) + (r / k.nrow : Nat) * s2 + (r % k.nrow : Nat) * s1 + (n % k.row : Nat)

/-- The address of a position at the source, and the bytes from there to the end of its row, element or range. -/
def Piece.srcRun (k : Piece) (pat : Nat) (tab : Nat → Nat) (n : Nat) : Nat × Nat :=
  match pat with
  | 1 => ((strided k.sAddr k.sstr1 0 k n).toNat, k.row - n % k.row)
  | 2 => ((strided k.sAddr k.sstr1 k.sstr2 k n).toNat, k.row - n % k.row)
  | 3 => (k.sAddr + tab (n / k.elem) * 2 ^ k.oshift + n % k.elem, k.elem - n % k.elem)
  | 4 => (k.sAddr + n, k.elem - n % k.elem)
  | _ => (k.sAddr + n, k.len - n)

/-- The same at the destination. -/
def Piece.dstRun (k : Piece) (pat : Nat) (tab : Nat → Nat) (total n : Nat) : Nat × Nat :=
  match pat with
  | 1 => ((strided k.dAddr k.dstr1 0 k n).toNat, k.row - n % k.row)
  | 2 => ((strided k.dAddr k.dstr1 k.dstr2 k n).toNat, k.row - n % k.row)
  | 3 => (k.dAddr + n, k.elem - n % k.elem)
  | 4 => (k.dAddr + tab (n / k.elem) * 2 ^ k.oshift + n % k.elem, k.elem - n % k.elem)
  | _ => (k.dAddr + n, total - n)

/-- How far an access from address `a` reaches into `r` bytes that ascend (R326, R359). -/
def cutUp (a r : Nat) : Nat :=
  if a % 256 ≠ 0 then min r (256 - a % 256)
  else if 256 ≤ r then min (r / 256 * 256) (4096 - a % 4096)
  else r

/-- The same for bytes that descend from below address `e` (R366). -/
def cutDown (e r : Nat) : Nat :=
  if e % 256 ≠ 0 then min r (e % 256)
  else if 256 ≤ r then min (r / 256 * 256) (if e % 4096 = 0 then 4096 else e % 4096)
  else r

/-! ### Lengths (R360 to R364) -/

/-- Elements of a REQUANT piece (R363). -/
def requantElems (inf len : Nat) : Nat := if isMx inf then 512 * len / groupBytes inf else len / elemSize inf

/-- Destination bytes of a piece. -/
def dstBytes (img : List Nat) (k : Piece) : Nat := if hXform img = 5 then cb (hOut img) (requantElems (hInf img) k.len) else k.len

/-- Bytes of one chunk of 512 elements at the source, and at the destination. -/
def chunkIn (img : List Nat) : Nat := cb (hInf img) 512
def chunkOut (img : List Nat) : Nat := cb (hOut img) 512

/-! ### Reshuffles (R361, R362) -/

/-- Bit `t` of a byte, if it has come. -/
def bitAt (f : Nat → Option Byte) (n t : Nat) : Option Nat := (f n).map (fun b => b.toNat / 2 ^ t % 2)

/-- A byte from eight bits that may not have come. -/
def byteOfBits (bs : List (Option Nat)) : Option Byte :=
  (bs.foldr (fun b a => match a, b with | some v, some x => some (2 * v + x) | _, _ => none) (some 0)).map (BitVec.ofNat 8)

/-- Destination byte `n` of a reshuffle of `len` bytes, from the source bytes that have come (R360 to R362). -/
def reshuffle (x param len : Nat) (f : Nat → Option Byte) (n : Nat) : Option Byte :=
  let e := 2 ^ (param % 4)
  let fct := param / 4 + 1
  let m := len / (fct * e)
  let w := if param % 4 = 0 then 4 else 8
  match x with
  | 1 => f (((n / e) % fct * m + (n / e) / fct) * e + n % e)
  | 2 => f (((n / e) % m * fct + (n / e) / m) * e + n % e)
  | 3 =>
    let plane := len / w
    let b := n / plane
    let i := n % plane
    byteOfBits ((List.range 8).map (fun t => if w = 8 then bitAt f (8 * i + t) b else bitAt f (4 * i + t / 2) (b + 4 * (t % 2))))
  | 4 =>
    let plane := len / w
    byteOfBits ((List.range 8).map (fun t =>
      let i := if w = 8 then n else 2 * n + t / 4
      bitAt f (t % w * plane + i / 8) (i % 8)))
  | _ => f n

/-! ### Checks (R329, R353 to R363) -/

/-- A bit marked zero is 1 in words 1 to 3 and 7 of a head or PIECE, or SDIE or DDIE stands without its flag. -/
def badPlaces (i : List Nat) : Bool :=
  dw i 1 48 16 != 0 || dw i 2 48 16 != 0 || dw i 3 19 1 != 0 || dw i 3 39 1 != 0 || dw i 3 52 12 != 0 || dw i 7 48 16 != 0 ||
  (dw i 3 0 18 != 0 && dw i 3 18 1 == 0) || (dw i 3 20 18 != 0 && dw i 3 38 1 == 0) || dw i 4 0 32 == 0

/-- EXT and NEXT do not agree (R329). -/
def badNext (i : List Nat) : Bool := if hExt i then hNext i == 0 || hNext i % 64 != 0 else hNext i != 0

/-- Word 0 of a head breaks R329. -/
def badHead (i : List Nat) (paceEn : Bool) : Bool :=
  dw i 0 7 1 != 0 || dw i 0 25 7 != 0 || decide (4 < hPattern i) || decide (5 < hXform i) || badNext i || badPlaces i ||
  (if hXform i = 5 then !admits ropConvert (hInf i) (hOut i) else hInf i != 0 || hOut i != 0 || hSr i) ||
  (hPaced i && !paceEn) || (hXform i != 0 && hPattern i != 0)

/-- An extension breaks R328 or R329 by itself. -/
def badExt (i : List Nat) : Bool :=
  dw i 0 0 1 != 0 || dw i 0 2 2 != 0 || dw i 0 8 56 != 0 || (dw i 0 4 4 != 1 && dw i 0 4 4 != 2) || badNext i || dw i 7 48 16 != 0 ||
  (dw i 0 4 4 == 1 && (badPlaces i || hXparam i != 0 || hSeed i != 0))

/-- The lowest and the end of the addresses a strided side visits (R365). -/
def strideSpan (a : Nat) (s1 s2 : Int) (k : Piece) (np : Nat) : Int × Int :=
  let x := s1 * ((k.nrow - 1 : Nat) : Int)
  let y := s2 * ((np - 1 : Nat) : Int)
  ((a : Int) + min 0 x + min 0 y, (a : Int) + max 0 x + max 0 y + k.row)

/-- The range of the source, and of the destination, of a piece: its lowest byte and its end (R365). -/
def readSpan (img : List Nat) (k : Piece) : Int × Int :=
  match hPattern img with
  | 1 => strideSpan k.sAddr k.sstr1 0 k 1
  | 2 => strideSpan k.sAddr k.sstr1 k.sstr2 k (k.nplane 2)
  | 3 => (k.sAddr, (k.sAddr + (k.imax - 1) * 2 ^ k.oshift + k.elem : Nat))
  | _ => (k.sAddr, (k.sAddr + k.len : Nat))
def writeSpan (img : List Nat) (k : Piece) : Int × Int :=
  match hPattern img with
  | 1 => strideSpan k.dAddr k.dstr1 0 k 1
  | 2 => strideSpan k.dAddr k.dstr1 k.dstr2 k (k.nplane 2)
  | 4 => (k.dAddr, (k.dAddr + (k.imax - 1) * 2 ^ k.oshift + k.elem : Nat))
  | _ => (k.dAddr, (k.dAddr + dstBytes img k : Nat))

/-- A range of addresses reaches beyond 2^48, or below 0. -/
def beyond (r : Int × Int) : Bool := decide (r.1 < 0) || decide (2 ^ 48 < r.2)

/-- The pattern parameters or XPARAM of a piece break a rule (R353 to R363). `param` says that a PARAM extension came with
it, `quota` is the channel's quota in bytes. -/
def badPiece (img : List Nat) (k : Piece) (param : Bool) (quota : Nat) : Bool :=
  let pat := hPattern img
  let x := hXform img
  let prm := hXparam img
  let rest (j : Nat) : Bool := (k.p.drop j).any (fun w => w != 0)
  (match pat with
   | 0 => rest 0
   | 1 => k.row == 0 || k.nrow == 0 || k.pw 0 40 24 != 0 || rest 2 || k.len != k.row * k.nrow
   | 2 => !param || k.row == 0 || k.nrow == 0 || k.nplane 2 == 0 || k.pw 0 56 8 != 0 || k.pw 2 48 16 != 0 || k.pw 3 48 16 != 0 || rest 4 ||
          k.len != k.row * k.nrow * k.nplane 2
   | _ => k.pw 0 48 16 != 0 || k.iaddr % 4 != 0 || decide (k.elem < 4 ∨ 65536 < k.elem) || k.pw 1 21 11 != 0 || rest 2 || k.len % k.elem != 0 ||
          decide (16384 < k.nidx) || (pat == 4 && decide (2 ^ k.oshift < k.elem)) || decide (quota < k.tabRoom + 4096) ||
          decide (2 ^ 48 < k.iaddr + 4 * k.nidx)) ||
  (match x with
   | 0 => prm != 0
   | 5 => prm != 0 || (if isMx (hInf img) then k.len % groupBytes (hInf img) != 0 else k.len % elemSize (hInf img) != 0)
   | 3 => decide (2 ≤ prm % 4) || decide (4 ≤ prm) || k.len % 8 != 0
   | 4 => decide (2 ≤ prm % 4) || decide (4 ≤ prm) || k.len % 8 != 0
   | _ => prm % 4 == 3 || prm / 4 == 0 || k.len % ((prm / 4 + 1) * 2 ^ (prm % 4)) != 0) ||
  (if pat = 3 then beyond (writeSpan img k) else if pat = 4 then beyond (readSpan img k) else beyond (readSpan img k) || beyond (writeSpan img k))

/-! ### Overlap (R365 to R367) -/

/-- A range in an address space: 0 for host addresses of this die, die + 1 for fabric addresses at another die. -/
structure Extent where
  space : Nat
  lo : Int
  hi : Int
  deriving DecidableEq, Repr

/-- The host ranges of a range of this die's fabric addresses, through the windows in force (R185, R365). -/
def throughWindows (r : Int × Int) (s : State) : List Extent :=
  (List.range 64).filterMap (fun w =>
    let k := window w s
    let lo := max r.1 k.base
    let hi := min r.2 ((k.base + 2 ^ k.size : Nat) : Int)
    if k.en ∧ lo < hi then some { space := 0, lo := lo - k.base + k.host, hi := hi - k.base + k.host } else none)

def extents (fab : Bool) (die : Nat) (r : Int × Int) (s : State) : List Extent :=
  if !fab then [{ space := 0, lo := r.1, hi := r.2 }]
  else if die = s.die then throughWindows r s
  else [{ space := die + 1, lo := r.1, hi := r.2 }]

def meets (a b : List Extent) : Bool := a.any (fun x => b.any (fun y => x.space == y.space && decide (x.lo < y.hi) && decide (y.lo < x.hi)))

def readExt (img : List Nat) (k : Piece) (s : State) : List Extent := extents k.sFab k.sDie (readSpan img k) s
def writeExt (img : List Nat) (k : Piece) (s : State) : List Extent := extents k.dFab k.dDie (writeSpan img k) s
def indexExt (img : List Nat) (k : Piece) : List Extent :=
  if 3 ≤ hPattern img then [{ space := 0, lo := k.iaddr, hi := ((k.iaddr + 4 * k.nidx : Nat) : Int) }] else []

/-- A plain copy (R366). -/
def plainCopy (img : List Nat) (k : Piece) : Bool := hPattern img == 0 && hXform img == 0 && !k.sFab && !k.dFab

/-- Destination rows may collide (R367). -/
def rowsCollide (img : List Nat) (k : Piece) : Bool :=
  (hPattern img == 1 || hPattern img == 2) &&
  ((decide (1 < k.nrow) && decide (k.dstr1.natAbs < k.row)) ||
   (hPattern img == 2 && decide (1 < k.nplane 2) && decide (k.dstr2.natAbs < (k.nrow - 1) * k.dstr1.natAbs + k.row)))

/-- A piece is refused with OVERLAP (R367). -/
def overlapRefused (img : List Nat) (k : Piece) (s : State) : Bool :=
  rowsCollide img k || (!plainCopy img k && meets (writeExt img k s) (readExt img k s ++ indexExt img k))

/-- A plain copy whose extents overlap, its source and destination apart (R366). -/
def overlapped (img : List Nat) (k : Piece) (s : State) : Bool :=
  plainCopy img k && k.dAddr != k.sAddr && meets (writeExt img k s) (readExt img k s)

end Sys2Proof.Machine
end

