-- ==== Sys2Proof/Machine/Dma.lean ====
section
/-!
DEFINITION. DMA channels: descriptors taken up, transactions granted and answered, completion, halts, commands
(12_dma_channels.md R321 to R347; 13_dma_datapaths.md R357 to R369).
-/
namespace Sys2Proof.Machine
open Host

def State.chan (s : State) (c : Nat) : Chan := tget chan0 s.dma c
def updChan (c : Nat) (f : Chan → Chan) (s : State) : State := { s with dma := tmod chan0 s.dma c f }

/-! ### Configuration -/

/-- Ring mode (R321). -/
def ringMode (c : Nat) (s : State) : Bool := getF s (chCfg c) 0 1 == 1
def paceEn (c : Nat) (s : State) : Bool := getF s (chCfg c) 3 1 == 1
def burstBytes (c : Nat) (s : State) : Nat := 2 ^ getF s (chCfg c) 12 5
def quotaBytes (c : Nat) (s : State) : Nat := (getF s (chCfg c) 17 8 + 1) * 4096
def edges (c : Nat) (s : State) : Nat := getF s (chEdges c) 0 16
def ringIp (c : Nat) (s : State) : Nat := getF s (chRing c) 5 4
def ringSize (c : Nat) (s : State) : Nat := 2 ^ getF s (chRing c) 0 5
def headIdx (c : Nat) (s : State) : Nat := getF s (chRing c) 16 16
/-- The host address of ring entry `i` (R332). -/
def entryAddr (c i : Nat) (s : State) : Nat := (getF s (chRbaseLo c) 6 26 * 64 + getF s (chRbaseHi c) 0 16 * 2 ^ 32 + 64 * i) % 2 ^ 48
def readEng (c : Nat) (s : State) : Nat := getF s (chSts c) 8 3
def writeEng (c : Nat) (s : State) : Nat := 8 + getF s (chSts c) 11 3
/-- Engine `e` is in service (R348). -/
def engInSvc (e : Nat) (s : State) : Bool := getF s dmaEng e 1 == 1
/-- Transactions outstanding on an engine (R322). -/
def engOut (e : Nat) (s : State) : Nat := (s.dma.map (fun k => (k.2.waits.filter (fun w => w.eng == e)).length)).foldl (· + ·) 0

/-! ### Positions and data -/

/-- The index entry of element `i`, from the table held. -/
def Chan.entry (x : Chan) (i : Nat) : Nat :=
  ((x.tab.find? (fun t => decide (t.1 ≤ i) && decide (i < t.1 + t.2.length))).map (fun t => t.2.getD (i - t.1) 0)).getD 0

/-- The source byte at a position, if it has come. -/
def Chan.srcByte (x : Chan) (n : Nat) : Option Byte :=
  (x.src.find? (fun t => decide (t.1 ≤ n) && decide (n < t.1 + t.2.length))).bind (fun t => t.2[n - t.1]?)

/-- The destination byte at a position, if it can be formed. -/
def Chan.dstByte (x : Chan) (k : Piece) (n : Nat) : Option Byte :=
  if hXform x.cur = 5 then (x.enc.find? (fun t => decide (t.1 ≤ n) && decide (n < t.1 + t.2.length))).bind (fun t => t.2[n - t.1]?)
  else reshuffle (hXform x.cur) (hXparam x.cur) k.len x.srcByte n

/-- How many destination bytes from `n` on can be formed, at most `m`. -/
def Chan.runAt (x : Chan) (k : Piece) : Nat → Nat → Nat
  | 0, _ => 0
  | m + 1, n => if (x.dstByte k n).isSome then 1 + x.runAt k m (n + 1) else 0

/-- Reads and writes of the piece outstanding. -/
def Chan.reading (x : Chan) : Bool := x.waits.any (fun w => match w.job with | .read _ _ => true | _ => false)
def Chan.writing (x : Chan) : Bool := x.waits.any (fun w => match w.job with | .write _ _ => true | _ => false)

/-- Source bytes whose writes have been answered, for a count of destination bytes (R336, R351). -/
def Chan.answeredSrc (x : Chan) (k : Piece) : Nat :=
  let total := dstBytes x.cur k
  if hXform x.cur ≠ 5 then x.wdone else if total = 0 then 0 else x.wdone * k.len / total

/-- Dresser bytes a channel holds, in units of 256 bytes, and its held index table (R324, R357). -/
def Chan.space (x : Chan) : Nat :=
  match x.piece with
  | none => 0
  | some k => (x.rpos - x.answeredSrc k + 255) / 256 * 256 + (if 3 ≤ hPattern x.cur ∧ x.moving then k.tabRoom else 0)

/-- Dresser bytes all channels hold, and whether `n` more fit both limits (R324). -/
def dresserUsed (s : State) : Nat := (s.dma.map (fun e => e.2.space)).foldl (· + ·) 0
def dresserFits (c n : Nat) (s : State) : Bool :=
  decide ((s.chan c).space + n ≤ quotaBytes c s) && decide (dresserUsed s + n ≤ 4194304 - effF s dmaDress 0 6 * 65536)

/-! ### Failures and halts (R342) -/

/-- The failure latched where `f` arises beside one latched before: the earlier; of one cycle that of the lowest FDIR, then of the lowest
address (R342). -/
def firstFail (old : Option DmaFail) (f : DmaFail) : DmaFail :=
  match old with
  | none => f
  | some g => if g.came = f.came ∧ (f.dir < g.dir ∨ (f.dir = g.dir ∧ f.addr < g.addr)) then f else g

/-- A failure of the descriptor: the first is latched, all are counted, and the channel enters HALTING. -/
def chanFail (c : Nat) (f : DmaFail) (s : State) : State :=
  let t := bump (chCnt0 c) 16 16 s
  updChan c (fun x => { x with
    fail := some (firstFail x.fail { f with came := s.cts }), st := .halting, stopPend := x.stopPend || decide (x.st = .stopping), ask := false, askPre := false }) t

/-- The descriptor has lost its engine or unit and cannot be restarted: FADDR is the address of its first piece (R330, R346, R364). -/
def engineLost (c dir : Nat) (s : State) : State :=
  let i := (s.chan c).cur
  let fab := dw i 3 18 1 == 1
  chanFail c { code := 0x20, dir := dir, addr := dw i 1 0 48, fab := fab, die := if fab then dw i 3 0 18 else 0 } s

/-- A rejection of the piece whose descriptor lies at `at_` (R330, R342). -/
def chanReject (c code at_ hop : Nat) (s : State) : State := chanFail c { code := code, dir := 2, addr := at_, hop := hop } s

/-! ### Taking up a descriptor (R329, R331, R332, R337) -/

/-- A channel's fields as a descriptor begins, or begins again. -/
def Chan.afresh (x : Chan) : Chan :=
  { x with hops := 0, extAt := none, ext := none, loop := none, piece := none, moving := false, descending := false, base := 0, chunk0 := 0
           fence := none, rpos := 0, src := [], wpos := 0, wdone := 0, fed := 0, enc := [], tabAsk := 0, tab := [], tabOk := false
           allow := 0, taken := 0, askWb := false, wbFailed := false, ovl := false }

/-- Requantization of the channel leaves the Workbench. -/
def clearRequant (c : Nat) (s : State) : State :=
  let mine (k : SegUse) : Bool := match k with | .chan d _ => d == c | _ => false
  (List.range 8).foldl (fun t v => updWb v (fun x => { x with segs := x.segs.filter (fun g => !mine g.use), wait := x.wait.filter (fun k => !mine k.use) }) t) s

/-- Channels return to their home engines at a descriptor boundary (R346). -/
def homeEngines (c : Nat) (s : State) : State :=
  let s1 := if engInSvc (c % 8) s then setF (chSts c) 8 3 (c % 8) s else s
  if engInSvc (8 + c % 8) s1 then setF (chSts c) 11 3 (c % 8) s1 else s1

/-- A descriptor image becomes current and runs (R331, R332). `at_` is its address, 0 in register-set mode. -/
def beginDesc (c at_ : Nat) (img : List Nat) (credit : Nat) (s : State) : State :=
  let s2 := updChan c (fun x => { x.afresh with cur := img, busy := true, credit := credit, fail := none, status := 0, skipped := false
                                                askPre := ringMode c s && x.pre.isNone }) s
  if badHead img (paceEn c s) then chanReject c 0x01 at_ 0 s2
  else updChan c (fun x => { x with piece := some (pieceOf 0 at_ img), extAt := if hExt img then some (hNext img) else none }) s2

/-- The shadow set becomes current (R331). -/
def takeShadow (c : Nat) (s : State) : State :=
  let img := (List.range 16).flatMap (fun k => leBytes 4 (getReg s (chShd c k)).toNat)
  beginDesc c 0 img 0 (homeEngines c (updChan c (fun x => { x with shadow := false, st := .run }) s))

/-! ### Pieces (R328, R334, R357, R366, R367) -/

/-- The piece in progress may be checked: it is known whether a PARAM extension belongs to it (R328). -/
def Chan.pieceKnown (x : Chan) : Bool := x.piece.isSome && !x.moving && x.extAt.isNone && x.fail.isNone

/-- A piece passes its checks and begins to move, or is refused (R329, R365 to R367). -/
def startPiece (c : Nat) (s : State) : State :=
  let x := s.chan c
  match x.piece with
  | none => s
  | some k =>
    let param := match x.ext with | some (_, e) => dw e 0 4 4 == 2 | none => false
    let k1 := match x.ext with | some (_, e) => if param then k.withParams e else k | none => k
    let next := match x.ext with | some (_, e) => if param ∧ hExt e then some (hNext e) else none | none => none
    if badPiece x.cur k1 param (quotaBytes c s) then chanReject c 0x01 k.at_ k.hop s
    else if overlapRefused x.cur k1 s then chanReject c 0x02 k.at_ k.hop s
    else
      let ov := overlapped x.cur k1 s
      updChan c (fun y => { y with
        piece := some k1, moving := true, ext := if param then none else y.ext, extAt := next, ovl := y.ovl || ov
        descending := ov && decide (k1.sAddr < k1.dAddr), rpos := 0, src := [], wpos := 0, wdone := 0, fed := 0, enc := [], tabAsk := 0, tab := []
        tabOk := decide (hPattern y.cur < 3) }) s

/-- Every source position of the piece has been read and every destination byte answered. -/
def Chan.pieceDone (x : Chan) (k : Piece) : Bool :=
  x.moving && decide (k.len ≤ x.rpos) && decide (dstBytes x.cur k ≤ x.wdone) && !x.reading && !x.writing

/-- A descriptor completes with its status (R333, R336): a ring entry is written back, a set records it. -/
def completeDesc (c status : Nat) (skipped : Bool) (s : State) : State :=
  let x := s.chan c
  if ringMode c s then updChan c (fun y => { y with askWb := true, status := status, skipped := skipped, piece := none, moving := false }) s
  else
    let total := x.base
    let s1 := bumpWrap (chCnt1 c) (if skipped then 0 else total) (bump (chCnt0 c) 0 16 (setF (chSts c) 24 1 (bit skipped) (setF (chSts c) 16 8 status s)))
    let s2 := if hIrq x.cur then raise (evDmaCh c) 0 s1 else s1
    let stop := x.st == .stopping || x.stopPend || hStop x.cur
    let s3 := updChan c (fun y => { y with busy := false, piece := none, moving := false, fail := none, ovl := false, stopPend := false }) s2
    if stop then raise (evDmaCh c) 3 (updChan c (fun y => { y with st := .stopped }) s3)
    else if x.shadow then takeShadow c s3
    else updChan c (fun y => { y with st := .idle }) s3

/-- A ring entry's write-back has been answered OK: HEAD advances, and the channel goes on (R333, R341). -/
def ringDone (c : Nat) (s : State) : State :=
  let x := s.chan c
  let s1 := setF (chRing c) 16 16 ((headIdx c s + 1) % ringSize c s) s
  let s2 := bumpWrap (chCnt1 c) (if x.skipped then 0 else x.base) (bump (chCnt0 c) 0 16 (setF (chSts c) 24 1 (bit x.skipped) (setF (chSts c) 16 8 x.status s1)))
  let s3 := if hIrq x.cur then raise (evDmaCh c) 0 s2 else s2
  let stop := x.st == .stopping || x.stopPend || hStop x.cur
  let s4 := homeEngines c (updChan c (fun y => { y with
    busy := false, piece := none, moving := false, fail := none, ovl := false, stopPend := false, askWb := false, askPre := false }) s3)
  let out := x.waits.any (fun w => decide (w.job = .prefetch))
  if stop then raise (evDmaCh c) 3 (updChan c (fun y => { y with st := .stopped, pre := none, waits := y.waits.filter (fun w => decide (w.job ≠ .prefetch)) }) s4)
  else match x.pre with
    | some img => beginDesc c (entryAddr c (headIdx c s4) s4) img 0 (updChan c (fun y => { y with st := .run, pre := none }) s4)
    | none =>
      -- a prefetch under way has become the fetch of HEAD
      updChan c (fun y => { y with
        st := .run, ask := !out, waits := y.waits.map (fun w => if w.job = .prefetch then { w with job := .head } else w) }) s4

/-- The next piece of the chain, or the end of the descriptor (R334, R336). -/
def nextPiece (c : Nat) (k : Piece) (s : State) : State :=
  let x := s.chan c
  let chunks := if hXform x.cur = 5 then (requantElems (hInf x.cur) k.len + 511) / 512 else 0
  let s1 := updChan c (fun y => { y with base := y.base + k.len, chunk0 := y.chunk0 + chunks, moving := false, piece := none, src := [], enc := [], tab := []
                                         rpos := 0, wpos := 0, wdone := 0, fence := none }) s
  match x.ext with
  | some (a, e) =>
    if dw e 0 4 4 = 2 then chanReject c 0x01 a x.hops s1
    else updChan c (fun y => { y with piece := some (pieceOf y.hops a e), ext := none, extAt := if hExt e then some (hNext e) else none }) s1
  | none =>
    match x.loop with
    | some a => chanReject c 0x03 a x.hops s1
    | none => if x.extAt.isSome then s1 else completeDesc c 0 false s1

/-! ### What a channel asks an engine for (R323 to R326, R352, R359) -/

/-- A transaction that is ready: a READ or WRITE at a local or fabric address. -/
structure DmaAsk where
  job : DmaJob
  write : Bool
  fab : Bool
  die : Nat
  ip : Nat
  addr : Nat
  bytes : Nat
  data : List Byte := []
  deriving DecidableEq, Repr

/-- Source bytes the piece may read up to, its bursts allowing (R339). -/
def Chan.readLimit (x : Chan) (k : Piece) : Nat := if hPaced x.cur then min k.len (x.allow - x.base) else k.len

/-- The fence of R338 lets the first read go. -/
def Chan.fenced (x : Chan) (k : Piece) : Bool := hFence x.cur && k.dFab && decide (x.fence ≠ some true) && x.base == 0 && x.rpos == 0

/-- The next data read. -/
def dataRead (c : Nat) (s : State) : Option DmaAsk :=
  let x := s.chan c
  match x.piece with
  | none => none
  | some k =>
    let lim := x.readLimit k
    let null := decide (3 ≤ hPattern x.cur) && x.entry (x.rpos / k.elem) == nullIdx
    if !x.moving ∨ !x.tabOk ∨ lim ≤ x.rpos ∨ x.fenced k ∨ null then none
    else
      let (a, n) :=
        if x.descending then
          let e := k.sAddr + k.len - x.rpos
          let n := cutDown e (lim - x.rpos)
          (e - n, n)
        else
          let (a, r) := k.srcRun (hPattern x.cur) x.entry x.rpos
          (a, cutUp a (min r (lim - x.rpos)))
      if dresserFits c ((n + 255) / 256 * 256) s then
        some { job := .read x.rpos n, write := false, fab := k.sFab, die := k.sDie, ip := k.ip, addr := a, bytes := n }
      else none

/-- What the channel asks its read engine for: a fetch, a part of an index table, or data. -/
def readAsk (c : Nat) (s : State) : Option DmaAsk :=
  let x := s.chan c
  let fetch (job : DmaJob) (a n : Nat) : DmaAsk := { job := job, write := false, fab := false, die := s.die, ip := ringIp c s, addr := a, bytes := n }
  let out (job : DmaJob) : Bool := x.waits.any (fun w => decide (w.job = job))
  if x.ask ∧ !out .head then some (fetch .head (entryAddr c (headIdx c s) s) 64)
  else if x.st ≠ .run ∧ x.st ≠ .stopping then none
  else match (if x.fail.isNone && !out .ext then x.extAt else none) with
    | some a => some (fetch .ext a 64)
    | none =>
      match x.piece with
      | some k =>
        if x.moving ∧ !x.tabOk ∧ x.tabAsk < 4 * k.nidx ∧ (hPaced x.cur = false ∨ x.base < x.allow) then
          let a := k.iaddr + x.tabAsk
          some { fetch (.index x.tabAsk) a (min (4 * k.nidx - x.tabAsk) (4096 - a % 4096)) with ip := k.ip }
        else
          match dataRead c s with
          | some q => some q
          | none => pre x out fetch
      | none => pre x out fetch
where
  /-- The prefetch of the entry after HEAD (R332). -/
  pre (x : Chan) (out : DmaJob → Bool) (fetch : DmaJob → Nat → Nat → DmaAsk) : Option DmaAsk :=
    if x.askPre && !out .prefetch && x.busy && decide (x.st = .run) then
      some (fetch .prefetch (entryAddr c ((headIdx c s + 1) % ringSize c s) s) 64) else none

/-- An earlier write of the piece to the same destination element is outstanding (R358). -/
def sameEntryOut (x : Chan) (k : Piece) (n : Nat) : Bool :=
  hPattern x.cur == 4 && x.waits.any (fun w => match w.job with
    | .write m _ => m / k.elem != n / k.elem && x.entry (m / k.elem) == x.entry (n / k.elem)
    | _ => false)

/-- A write would fall on source bytes that have not been read (R366). -/
def ontoUnread (x : Chan) (k : Piece) (a n : Nat) : Bool :=
  x.ovl && plainCopy x.cur k &&
  (let low := (x.waits.filterMap (fun w => match w.job with | .read p _ => some p | _ => none)).foldl min x.rpos
   let (lo, hi) := if x.descending then (k.sAddr, k.sAddr + k.len - low) else (k.sAddr + low, k.sAddr + k.len)
   decide (a < hi) && decide (lo < a + n))

/-- The next data write. One that would wait for more bytes goes short where no more can be read before it. -/
def dataWrite (c : Nat) (s : State) : Option DmaAsk :=
  let x := s.chan c
  match x.piece with
  | none => none
  | some k =>
    let total := dstBytes x.cur k
    let null := hPattern x.cur == 4 && x.entry (x.wpos / k.elem) == nullIdx
    if !x.moving ∨ total ≤ x.wpos ∨ null ∨ sameEntryOut x k x.wpos then none
    else
      let (e, full) :=
        if x.descending then
          let e := k.dAddr + total - x.wpos
          (e, cutDown e (total - x.wpos))
        else
          let (a, r) := k.dstRun (hPattern x.cur) x.entry total x.wpos
          (a, cutUp a (min r (total - x.wpos)))
      let have_ := x.runAt k full x.wpos
      let dry := !x.reading && (dataRead c s).isNone && decide (hXform x.cur ≠ 5)
      if have_ = 0 ∨ (have_ < full ∧ !dry) then none
      else
        let bs := (List.range have_).filterMap (fun i => x.dstByte k (x.wpos + i))
        let a := if x.descending then e - have_ else e
        if ontoUnread x k a have_ then none
        else some { job := .write x.wpos have_, write := true, fab := k.dFab, die := k.dDie, ip := k.ip, addr := a, bytes := have_
                    data := if x.descending then bs.reverse else bs }

/-- The word a ring entry's write-back writes (R333). -/
def wbWord (x : Chan) : Nat :=
  dw x.cur 0 0 32 / 2 * 2 + x.status * 2 ^ 32 + bit x.skipped * 2 ^ 40 + x.hops * 2 ^ 48

/-- What the channel asks its write engine for: the write-back, or data. -/
def writeAsk (c : Nat) (s : State) : Option DmaAsk :=
  let x := s.chan c
  if x.askWb ∧ !x.waits.any (fun w => decide (w.job = .writeBack)) then
    some { job := .writeBack, write := true, fab := false, die := s.die, ip := ringIp c s, addr := entryAddr c (headIdx c s) s, bytes := 8
           data := bytesOf (leBytes 8 (wbWord x)) }
  else if x.st ≠ .run ∧ x.st ≠ .stopping then none
  else dataWrite c s

/-! ### Grants (R322, R323, R325) -/

/-- The request packet of a fabric access of DMA: class by its flow (R190, R326). -/
def dmaPacket (q : DmaAsk) (cls src : Nat) : List Slot :=
  if q.write then
    let (part, body) := writePayload q.addr q.data
    PktHdr.slot { opc := opWrite, len := lenField body.length, src := src, dst := q.die, cls := cls, part := part, addr := q.addr } :: body
  else [PktHdr.slot { opc := opRead, len := 1, src := src, dst := q.die, cls := cls, addr := q.addr }, BitVec.ofNat 128 q.bytes]

/-- A transaction leaves: locally, through this die's own windows, or over the fabric (R325). -/
def issueDma (c : Nat) (q : DmaAsk) (n : Nat) (s : State) : State :=
  let cl := Client.chan c n
  if !q.fab then
    hostAccess q.ip { client := cl, write := q.write, addr := q.addr, bytes := q.bytes, die := s.die, data := q.data, ready := s.cts } s
  else if q.die = s.die then localAccess cl (if q.write then opWrite else opRead) q.addr q.bytes q.data false s
  else
    let f := flowOf 0 c s
    submit { dst := q.die, slots := dmaPacket q (bulkClass f) s.die, client := cl, flow := f } s

/-- The channel's own books of a granted transaction. -/
def bookDma (q : DmaAsk) (x : Chan) : Chan :=
  match q.job with
  | .head => { x with ask := false }
  | .index off => { x with tabAsk := off + q.bytes }
  | .read pos n => { x with rpos := pos + n }
  | .write pos n => { x with wpos := pos + n }
  | _ => x

/-- Before its first grant an engine counts channel 127 as served last. -/
def last0 (_ : Nat) : Nat := 127

/-- Engine `e` grants a transaction of channel `c`. -/
def grantTo (e c : Nat) (q : DmaAsk) (s : State) : State :=
  let n := (s.chan c).nextN
  let s1 := updChan c (fun x => { (bookDma q x) with nextN := n + 1
                                                     waits := x.waits ++ [{ n := n, job := q.job, addr := q.addr, fab := q.fab, die := q.die, eng := e }] }) s
  let s2 := peak (dmaEngOut e) 16 10 (engOut e s1) { s1 with granted := tset last0 s1.granted e c }
  issueDma c q n s2

/-- What a channel has ready for an engine. -/
def askOf (e c : Nat) (s : State) : Option DmaAsk := if e < 8 then readAsk c s else writeAsk c s

/-- The channel engine `e` serves: of the highest PRIO, the first after the one granted last (R323). -/
def grantee (e : Nat) (s : State) : Option (Nat × DmaAsk) :=
  let last := tget last0 s.granted e
  let cs := (s.dma.map (·.1)).filter (fun c => (if e < 8 then readEng c s else writeEng c s) == e)
  let ready := cs.filterMap (fun c => (askOf e c s).map (fun q => (c, q)))
  let dist (c : Nat) : Nat := (c + 127 - last) % 128
  ready.foldl (fun b r => match b with
    | none => some r
    | some q =>
      let pq := getF s (chCfg q.1) 1 2
      let pr := getF s (chCfg r.1) 1 2
      if pq < pr ∨ (pq = pr ∧ dist r.1 < dist q.1) then some r else b) none

/-- NULL elements pass: a GATHER's bytes become zeros, a SCATTER's are neither read nor written (R356); `n` bounds it. -/
def passNulls : Nat → Nat → State → State
  | 0, _, s => s
  | n + 1, c, s =>
    let x := s.chan c
    match x.piece with
    | none => s
    | some k =>
      if !x.moving ∨ !x.tabOk ∨ hPattern x.cur < 3 then s
      else
        let lim := x.readLimit k
        let r := min (k.elem - x.rpos % k.elem) (lim - x.rpos)
        if x.rpos < lim ∧ x.entry (x.rpos / k.elem) = nullIdx ∧ !x.fenced k then
          passNulls n c (updChan c (fun y => { y with rpos := y.rpos + r
                                                      src := if hPattern y.cur = 3 then y.src ++ [(y.rpos, List.replicate r 0)] else y.src }) s)
        else if hPattern x.cur = 4 ∧ x.wpos < x.rpos ∧ x.entry (x.wpos / k.elem) = nullIdx then
          let w := min (k.elem - x.wpos % k.elem) (x.rpos - x.wpos)
          passNulls n c (updChan c (fun y => { y with wpos := y.wpos + w, wdone := y.wdone + w }) s)
        else s

/-- The Workbench unit of a channel's requantization (R364). -/
def requantUnit (c : Nat) (s : State) : Option Nat := ((List.range 8).map (fun i => (c + i) % 8)).find? (wbInSvc s)

/-- The next chunk of a REQUANT piece goes to its unit once its source bytes have come (R364). -/
def feedRequant (c : Nat) (s : State) : State :=
  let x := s.chan c
  match x.piece with
  | none => s
  | some k =>
    let elems := requantElems (hInf x.cur) k.len
    let n := min 512 (elems - 512 * x.fed)
    let lo := x.fed * chunkIn x.cur
    let bytes := min (chunkIn x.cur) (k.len - lo)
    if !x.moving ∨ hXform x.cur ≠ 5 ∨ elems ≤ 512 * x.fed then s
    else
      let bs := (List.range bytes).filterMap (fun i => x.srcByte (lo + i))
      if bs.length < bytes then s
      else match requantUnit c s with
        | none => engineLost c 0 s
        | some u =>
          if wbScratch < wbUsed s u + 4 * n then s
          else
            let use := SegUse.chan c (x.chunk0 + x.fed)
            let mode : RMode := if hSr x.cur then .sr (hSeed x.cur) (x.chunk0 + x.fed) 0 else .rne
            offer u { use := use, idx := 0, fmt := hInf x.cur, data := bs }
              (openSeg u { use := use, op := { rop := ropConvert, out := hOut x.cur, mode := mode, n := n }, ncont := 1, room := 4 * n }
                (updChan c (fun y => { y with fed := y.fed + 1 }) s))

/-- The fence of a descriptor runs: it starts, or it has completed (R338). -/
def runFence (c : Nat) (s : State) : State :=
  let x := s.chan c
  match x.piece with
  | none => s
  | some k =>
    if !x.moving ∨ !x.fenced k then s
    else
      let s1 := if x.fence.isNone then startFence (16 + c) k.dDie (updChan c (fun y => { y with fence := some false }) s) else s
      let f := getFence s1 (16 + c)
      if f.busy ∧ !fenceDone f s1 then s1
      else
        let s2 := if f.busy then endFence (16 + c) s1 else s1
        let r := (getFence s2 (16 + c)).result
        if r = 0 then updChan c (fun y => { y with fence := some true }) s2
        else chanFail c { code := 0x16, dir := 1, addr := k.dAddr, fab := true, die := k.dDie, resp := r, hop := k.hop } s2

/-- What a channel does of itself as it goes on: a piece begins, the fence runs, NULL elements pass, chunks reach the
Workbench, a piece or the descriptor ends; `n` bounds it. -/
def chanGo : Nat → Nat → State → State
  | 0, _, s => s
  | n + 1, c, s0 =>
    let x0 := s0.chan c
    if x0.st ≠ .run ∧ x0.st ≠ .stopping then s0
    else
      let s := feedRequant c (passNulls 16384 c (runFence c s0))
      let x := s.chan c
      if x.st ≠ .run ∧ x.st ≠ .stopping then s
      else if x.pieceKnown then chanGo n c (startPiece c s)
      else match x.piece with
        | some k => if x.pieceDone k then chanGo n c (nextPiece c k s) else s
        | none =>
          if x.busy && !x.askWb && x.extAt.isNone && x.ext.isSome then
            match x.ext with
            | some (a, e) => chanGo n c (updChan c (fun y => { y with piece := some (pieceOf y.hops a e), ext := none, extAt := if hExt e then some (hNext e) else none }) s)
            | none => s
          else s

/-- Every channel mapped to an engine goes on. -/
def chansGo (e : Nat) (s : State) : State :=
  ((s.dma.map (·.1)).filter (fun c => (if e < 8 then readEng c s else writeEng c s) == e)).foldl (fun t c => chanGo 64 c t) s

/-- The Dresser words of a write are uncorrectable: it is not issued, and the channel halts with POISON and FDIR read (R388). -/
def dresserFail (e c pos : Nat) (s : State) : State :=
  let t := sramUncorr (unitDmaEng e) (unitDmaEng (readEng c s)) .adapter 5 .poisoned s
  let x := s.chan c
  match x.piece with
  | none => t
  | some k => chanFail c { code := 0x13, dir := 0, addr := (k.srcRun (hPattern x.cur) x.entry (min pos (k.len - 1))).1, fab := k.sFab
                           die := if k.sFab then k.sDie else 0, resp := 3, hop := k.hop, pos := x.base + pos } t

/-- DMA_ENGINE_GRANT (R16, R323): an engine in service with room for one more transaction grants one. `bad` says that the
Dresser words of a write it grants are uncorrectable. -/
def execDmaEngineGrant (e : Fin 16) (bad : Bool) (s : State) : Outcome State Fault Refusal :=
  if !s.acts ∨ s.bnd.portsLow then .next s
  else
    let t := chansGo e s
    if engInSvc e t && decide (engOut e t < 512) then
      match grantee e t with
      | some (c, q) =>
        match q.job, bad with
        | .write pos _, true => .next (settle (dresserFail e c pos t))
        | _, _ => .next (settle (grantTo e c q t))
      | none => .next t
    else .next t

/-! ### Commands (R335) -/

/-- DMA_CH_CMD as a number: START 1, LOAD 2, DOORBELL 4, STOP 8, RESUME 16, SKIP 32, RESET 64, SWEDGE 128. The command is refused in the
present state: by the table of R335; and START, LOAD and DOORBELL of an adapter that is not in RUN, but for a DOORBELL in QUIESCE, which
starts nothing new (R422; log 106). -/
def chanRefuses (cmd c : Nat) (s : State) : Bool :=
  let x := s.chan c
  match cmd with
  | 0 => false
  | 1 => decide (s.bnd.adp ≠ .run) || (if ringMode c s then decide (x.st ≠ .idle ∧ x.st ≠ .stopped) else decide (x.st ≠ .stopped))
  | 2 => decide (s.bnd.adp ≠ .run) || ringMode c s || x.shadow || decide (x.st = .ringWait)
  | 4 => decide (s.bnd.adp ≠ .run ∧ s.bnd.adp ≠ .quiesce) || !ringMode c s
  | 8 => decide (x.st = .idle ∨ x.st = .stopping ∨ x.st = .stopped)
  | 16 => decide (x.st ≠ .halted) || x.ovl
  | 32 => decide (x.st ≠ .halted) || x.wbFailed
  | 64 => decide (x.st ≠ .idle ∧ x.st ≠ .stopped ∧ x.st ≠ .halted)
  | 128 => false
  | _ => true

/-- A command that is not refused is acted on (R335, R7). -/
def unlessRefused (cmd c : Nat) (f : State → State) (s : State) : State := if chanRefuses cmd c s then outOfRange s else f s

/-- START to a ring or a stopped set. -/
def dmaStart (c : Nat) : State → State := unlessRefused 1 c fun s =>
  if ringMode c s then homeEngines c (updChan c (fun y => { y with st := .run, ask := true, busy := false }) s)
  else if (s.chan c).shadow then takeShadow c s else updChan c (fun y => { y with st := .idle }) s

/-- LOAD queues the shadow set, or runs it on an IDLE channel. -/
def dmaLoad (c : Nat) : State → State := unlessRefused 2 c fun s =>
  if (s.chan c).st = .idle then takeShadow c s else updChan c (fun y => { y with shadow := true }) s

/-- DOORBELL to a ring. -/
def dmaDoorbell (c : Nat) : State → State := unlessRefused 4 c fun s =>
  match (s.chan c).st with
  | .run => updChan c (fun y => { y with askPre := y.busy && y.pre.isNone }) s
  | .ringWait => updChan c (fun y => { y with ask := true }) s
  | _ => s

/-- STOP. -/
def dmaStop (c : Nat) : State → State := unlessRefused 8 c fun s =>
  let x := s.chan c
  match x.st with
  | .run =>
    if x.busy || x.ask || x.waits.any (fun w => decide (w.job = .head)) then updChan c (fun y => { y with st := .stopping }) s
    else raise (evDmaCh c) 3 (updChan c (fun y => { y with st := .stopped }) s)
  | .ringWait => raise (evDmaCh c) 3 (updChan c (fun y => { y with st := .stopped, ask := false }) s)
  | _ => updChan c (fun y => { y with stopPend := true }) s

/-- RESUME (R343): the descriptor again from its first byte, bursts already taken being free; or the write-back alone. -/
def dmaResume (c : Nat) : State → State := unlessRefused 16 c fun s =>
  let x := s.chan c
  if x.wbFailed then updChan c (fun y => { y with st := .run, fail := none, wbFailed := false, askWb := true }) s
  else beginDesc c (if ringMode c s then entryAddr c (headIdx c s) s else 0) x.cur (x.taken + x.credit) (updChan c (fun y => { y with st := .run }) s)

/-- SKIP (R343). -/
def dmaSkip (c : Nat) : State → State := unlessRefused 32 c fun s =>
  completeDesc c (((s.chan c).fail.map (·.code)).getD 0) true (updChan c (fun y => { y with st := .run, fail := none }) s)

/-- RESET (R335); an edge of the same cycle is counted after it (R347). -/
def dmaReset (c : Nat) : State → State := unlessRefused 64 c fun s =>
  setF (chEdges c) 0 16 (bit ((s.chan c).edgeAt == some s.cts))
    (clearRequant c (updChan c (fun y => { ({} : Chan) with cur := y.cur, nextN := y.nextN, edgeAt := y.edgeAt }) s))

/-- An edge is counted, or lost on a saturated count (R339). -/
def countEdge (c : Nat) (s0 : State) : State :=
  if !paceEn c s0 then s0
  else
    let s := updChan c (fun x => { x with edgeAt := some s0.cts }) s0
    if edges c s = 65535 then raise (evDmaCh c) 5 s else setF (chEdges c) 0 16 (edges c s + 1) s

/-- A qualified edge of a PACE line reaches every channel that follows it (R339). -/
def dmaEdge (line : Nat) (s : State) : State :=
  (List.range 128).foldl (fun t c => if getF t (chCfg c) 4 8 = line then countEdge c t else t) s

def execDmaStart (c : ChanId) (s : State) : Outcome State Fault Refusal := .next (hostWrite (dmaStart c) s)
def execDmaLoad (c : ChanId) (s : State) : Outcome State Fault Refusal := .next (hostWrite (dmaLoad c) s)
def execDmaDoorbell (c : ChanId) (s : State) : Outcome State Fault Refusal := .next (hostWrite (dmaDoorbell c) s)
def execDmaStop (c : ChanId) (s : State) : Outcome State Fault Refusal := .next (hostWrite (dmaStop c) s)
def execDmaResume (c : ChanId) (s : State) : Outcome State Fault Refusal := .next (hostWrite (dmaResume c) s)
def execDmaSkip (c : ChanId) (s : State) : Outcome State Fault Refusal := .next (hostWrite (dmaSkip c) s)
def execDmaReset (c : ChanId) (s : State) : Outcome State Fault Refusal := .next (hostWrite (dmaReset c) s)
def execDmaSwedge (c : ChanId) (s : State) : Outcome State Fault Refusal := .next (hostWrite (countEdge c) s)

/-! ### Answers (R330, R332 to R336, R342, R357) -/

/-- The first answer for a channel whose transaction satisfies `f`; it is taken. -/
def takeAnswer (c : Nat) (f : DmaJob → Bool) (s : State) : Option (Answer × DmaWait × State) :=
  let wait (a : Answer) : Option DmaWait := match a.client with
    | .chan d n => if d = c then (s.chan c).waits.find? (fun w => w.n == n && f w.job) else none
    | _ => none
  match s.tx.done.find? (fun a => (wait a).isSome) with
  | none => none
  | some a => (wait a).map (fun w => (a, w,
      updChan c (fun x => { x with waits := x.waits.filter (fun k => k.n != w.n), moved := true, stall := 0, stalled := false })
        (updT (fun k => { k with done := k.done.erase a }) s)))

/-- The status code of a failing answer of a data or index access (R330). -/
def failCode (w : DmaWait) (r : Nat) (s : State) : Nat :=
  if r = 3 then 0x13
  else if r = 7 then (if w.fab ∧ w.die = s.die then 0x13 else 0x12)
  else if r = 6 then 0x15 else 0x14

/-- The code of a failing fetch or write-back. -/
def fetchCode (r : Nat) : Nat := if r = 7 then 0x10 else 0x11

/-- A failing answer is counted in a channel that already halts, and halts it otherwise. -/
def answerFail (c : Nat) (w : DmaWait) (code dir r pos : Nat) (s : State) : State :=
  let x := s.chan c
  chanFail c { code := code, dir := dir, addr := w.addr, fab := w.fab, die := if w.fab then w.die else 0
               resp := if !w.fab || (w.die == s.die && r == 7) then 3 else r, hop := (x.piece.map (·.hop)).getD x.hops, pos := x.base + pos } s

/-- The channel takes a fetched ring entry (R332). -/
def headFetched (c : Nat) (r : Nat) (w : DmaWait) (img : List Nat) (s : State) : State :=
  let x := s.chan c
  if x.st = .stopping then raise (evDmaCh c) 3 (updChan c (fun y => { y with st := .stopped, ask := false }) s)
  else if x.st ≠ .run ∧ x.st ≠ .ringWait then s
  else if r ≠ 0 then answerFail c w (fetchCode r) 2 r 0 s
  else if hOwn img then chanGo 64 c (beginDesc c w.addr img 0 (updChan c (fun y => { y with st := .run }) s))
  else raise (evDmaCh c) 4 (updChan c (fun y => { y with st := .ringWait }) s)

/-- DESCRIPTOR_FETCHED (R332): the fetch of HEAD, or a prefetch, is answered. A prefetch that fails is not kept. -/
def execDescriptorFetched (c : ChanId) (s : State) : Outcome State Fault Refusal :=
  if !s.acts then .next s else
  match takeAnswer c (fun j => match j with | .head => true | .prefetch => true | _ => false) s with
  | none => .next s
  | some (a, w, t) =>
    let img := nats a.data
    if w.job = .head then .next (headFetched c a.resp w img t)
    else if a.resp = 0 ∧ hOwn img ∧ (t.chan c).st = .run then .next (updChan c (fun x => { x with pre := some img, askPre := false }) t)
    else .next (updChan c (fun x => { x with askPre := false }) t)

/-- EXTENSION_FETCHED (R328, R334): an extension is taken up; the HOPMAX-th with EXT 1 ends the chain. -/
def execExtensionFetched (c : ChanId) (s : State) : Outcome State Fault Refusal :=
  if !s.acts then .next s else
  match takeAnswer c (fun j => decide (j = .ext)) s with
  | none => .next s
  | some (a, w, t) =>
    let x := t.chan c
    if x.st ≠ .run ∧ x.st ≠ .stopping then .next (if a.resp ≠ 0 then bump (chCnt0 c) 16 16 t else t)
    else if a.resp ≠ 0 then .next (answerFail c w (fetchCode a.resp) 2 a.resp 0 (updChan c (fun y => { y with extAt := none }) t))
    else
      let img := nats a.data
      let hops := x.hops + 1
      let t1 := updChan c (fun y => { y with hops := hops, extAt := none }) t
      if badExt img then .next (chanReject c 0x01 w.addr hops t1)
      else if dw img 0 4 4 = 2 ∧ x.moving then .next (chanReject c 0x01 w.addr hops t1)
      else
        let cut := hExt img && decide (effF s dmaCtl 0 11 ≤ hops)
        let img1 := if cut then (img.zipIdx.map (fun e => if e.2 = 0 then e.1 - 2 else if 56 ≤ e.2 then 0 else e.1)) else img
        .next (chanGo 64 c (updChan c (fun y => { y with ext := some (w.addr, img1), loop := if cut then some (hNext img) else y.loop }) t1))

/-- Entries of an index-table part have come. -/
def indexPart (c : Nat) (w : DmaWait) (r : Nat) (data : List Byte) (off : Nat) (s : State) : State :=
  if r ≠ 0 then answerFail c w (failCode w r s) 3 r 0 s
  else
    let es := (List.range (data.length / 4)).map (fun i => leNum (nats ((data.drop (4 * i)).take 4)))
    updChan c (fun x => { x with tab := x.tab ++ [(off / 4, es)] }) s

/-- A write is answered (R336): OK counts, with or without DUP. -/
def writeAnswered (c : Nat) (w : DmaWait) (pos n r : Nat) (s : State) : State :=
  if r = 0 then updChan c (fun x => { x with wdone := x.wdone + n }) s
  else answerFail c w (failCode w r s) 1 r pos s

/-- A read is answered: poisoned data is never written (R342); of a poisoned element of a GATHER the first position is latched (R369). -/
def readAnswered (c : Nat) (w : DmaWait) (pos n r : Nat) (data : List Byte) (s : State) : State :=
  if r = 0 then
    updChan c (fun x => { x with src := x.src ++ [(pos, if x.descending then (data.take n).reverse else data.take n)] }) s
  else
    let e := match (s.chan c).piece with | some k => max 1 k.elem | none => 1
    answerFail c w (failCode w r s) 0 r (if hPattern (s.chan c).cur = 3 ∧ failCode w r s = 0x13 then pos / e * e else pos) s

/-- DMA_TRANSACTION_ANSWER (R336, R342): a data or index access of the channel is answered; the piece and the descriptor
may end with it. -/
def execDmaTransactionAnswer (c : ChanId) (s : State) : Outcome State Fault Refusal :=
  if !s.acts then .next s else
  match takeAnswer c (fun j => match j with | .index _ => true | .read _ _ => true | .write _ _ => true | _ => false) s with
  | none => .next s
  | some (a, w, t) =>
    let t1 := match w.job with
      | .index off => indexPart c w a.resp a.data off t
      | .read pos n => readAnswered c w pos n a.resp a.data t
      | .write pos n => writeAnswered c w pos n a.resp t
      | _ => t
    .next (chanGo 64 c t1)

/-- INDEX_CHECK_PASS (R356, R357): the whole table has come; an entry out of range refuses the piece, the lowest latched. -/
def execIndexCheckPass (c : ChanId) (s : State) : Outcome State Fault Refusal :=
  let x := s.chan c
  match x.piece with
  | none => .next s
  | some k =>
    let have_ := (x.tab.map (fun t => t.2.length)).foldl (· + ·) 0
    if !s.acts ∨ !x.moving ∨ x.tabOk ∨ have_ < k.nidx ∨ (x.st ≠ .run ∧ x.st ≠ .stopping) then .next s
    else
      let entries := (List.range k.nidx).map (fun i => (i, x.entry i))
      match entries.find? (fun e => e.2 != nullIdx && decide (k.imax ≤ e.2)) with
      | some (i, _) => .next (chanFail c { code := 0x04, dir := 3, addr := k.iaddr + 4 * i, hop := k.hop, pos := x.base + i * k.elem } s)
      | none =>
        let start := if hPattern x.cur = 3 then k.sAddr else k.dAddr
        if entries.any (fun e => e.2 != nullIdx && decide (2 ^ 48 < start + e.2 * 2 ^ k.oshift + k.elem)) then .next (chanReject c 0x01 k.at_ k.hop s)
        else .next (chanGo 64 c (updChan c (fun y => { y with tabOk := true }) s))

/-- WRITE_BACK_ANSWER (R333, R343). -/
def execWriteBackAnswer (c : ChanId) (s : State) : Outcome State Fault Refusal :=
  if !s.acts then .next s else
  match takeAnswer c (fun j => decide (j = .writeBack)) s with
  | none => .next s
  | some (a, w, t) =>
    if a.resp = 0 then .next (chanGo 64 c (ringDone c t))
    else .next (answerFail c w (fetchCode a.resp) 1 a.resp 0 (updChan c (fun x => { x with askWb := false, wbFailed := true }) t))

/-- BURST_START (R339): a paced descriptor takes an edge, or one credited, for its next burst. -/
def execBurstStart (c : ChanId) (s : State) : Outcome State Fault Refusal :=
  let x := s.chan c
  match x.piece with
  | none => .next s
  | some k =>
    let next := x.allow ≤ x.base + x.rpos && decide (x.allow < x.base + k.len)
    if !s.acts ∨ !hPaced x.cur ∨ !x.moving ∨ !next ∨ (x.st ≠ .run ∧ x.st ≠ .stopping) then .next s
    else if 0 < x.credit then
      .next (chanGo 64 c (updChan c (fun y => { y with credit := y.credit - 1, taken := y.taken + 1, allow := y.allow + burstBytes c s }) s))
    else if 0 < edges c s then
      .next (chanGo 64 c (setF (chEdges c) 0 16 (edges c s - 1) (updChan c (fun y => { y with taken := y.taken + 1, allow := y.allow + burstBytes c s }) s)))
    else .next s

/-- HALT (R342): everything outstanding of a HALTING descriptor has been answered. -/
def execHalt (c : ChanId) (s : State) : Outcome State Fault Refusal :=
  let x := s.chan c
  if s.acts && decide (x.st = .halting) && x.waits.all (fun w => decide (w.job = .prefetch)) then
    .next (raise (evDmaCh c) 1 (clearRequant c (updChan c (fun y => { y with st := .halted, piece := none, moving := false, src := [], enc := [], tab := [] }) s)))
  else .next s

/-- DMA_STALL (R344): at cycle 0 of the tick after STALLT whole ticks without progress. -/
def execDmaStall (c : ChanId) (s : State) : Outcome State Fault Refusal :=
  let x := s.chan c
  if s.acts && decide (s.cyc = 0) && !x.stalled && decide (getF s (chStall c) 0 16 ≤ x.stall) && x.busy && decide (x.st = .run ∨ x.st = .stopping) then
    .next (raise (evDmaCh c) 2 (updChan c (fun y => { y with stalled := true }) s))
  else .next s

/-- A tick ends for a channel's stall watch (R344). -/
def chanTick (x : Chan) : Chan :=
  if x.busy ∧ (x.st = .run ∨ x.st = .stopping) then { x with stall := if x.moved then 0 else min 65535 (x.stall + 1), moved := false }
  else { x with moved := false }

/-! ### Engine loss (R346, R364) -/

/-- The next engine of the same kind in service after `e`, wrapping. -/
def nextEngine (e : Nat) (s : State) : Option Nat :=
  let b := e / 8 * 8
  ((List.range 7).map (fun i => b + (e + 1 + i) % 8)).find? (fun k => engInSvc k s)

/-- The descriptor in progress begins again on another engine or unit; one that cannot be restarted halts. -/
def restartDesc (c dir : Nat) (keep : DmaWait → Bool) (s : State) : State :=
  let x := s.chan c
  if !x.busy ∨ (x.st ≠ .run ∧ x.st ≠ .stopping) then s
  else if x.askWb then s
  else if x.ovl then engineLost c dir s
  else
    let at_ := if ringMode c s then entryAddr c (headIdx c s) s else 0
    let st := x.st
    let t := updChan c (fun y => { y with waits := y.waits.filter keep }) s
    updChan c (fun y => if y.st = .run then { y with st := st } else y) (beginDesc c at_ x.cur (x.taken + x.credit) (clearRequant c t))

/-- A channel whose engine `e` left service moves to the next, or halts where none is left. -/
def remap (e c : Nat) (s : State) : State :=
  match nextEngine e s with
  | some k =>
    let t := setF (chSts c) (if e < 8 then 8 else 11) 3 (k % 8) (raise (evDmaCh c) 6 s)
    let lost := (s.chan c).waits.filter (fun w => w.eng == e)
    -- a fetch or a write-back under way on the lost engine is asked for again
    let t1 := updChan c (fun y => { y with waits := y.waits.filter (fun w => w.eng != e), ask := y.ask || lost.any (fun w => decide (w.job = .head)) }) t
    restartDesc c (if e < 8 then 0 else 1) (fun w => match w.job with | .head => true | .writeBack => true | .prefetch => true | _ => false) t1
  | none =>
    if (s.chan c).busy ∧ ((s.chan c).st = .run ∨ (s.chan c).st = .stopping) then
      engineLost c (if e < 8 then 0 else 1)
        (updChan c (fun y => { y with waits := y.waits.filter (fun w => w.eng != e) }) s)
    else s

/-- An engine leaves service: its bit falls, its event is raised, and its channels move (R346). -/
def loseEngine (e : Nat) (s : State) : State :=
  let s0 := raise evDma (if e < 8 then 0 else 1) (setF dmaEng e 1 0 s)
  ((List.range 128).filter (fun c => (if e < 8 then readEng c s0 else writeEng c s0) == e)).foldl (fun t c => remap e c t) s0

/-- DMA_ENGINE_LOST (R346, R382): the self-check fails; the engine leaves service at cycle 0 of the next tick. -/
def execDmaEngineLost (e : Fin 16) (s : State) : Outcome State Fault Refusal :=
  if s.acts && engInSvc e s && s.leaving.all (fun l => l.1 != unitDmaEng e) then
    let act := if (nextEngine e s).isSome then FaultAct.remap else .unitOut
    .next (handOver (unitDmaEng e) (unitDmaEng e) .adapter 0x0403 act e { s with leaving := s.leaving ++ [(unitDmaEng e, s.tick + 1)] })
  else .next s

end Sys2Proof.Machine
end

