-- ==== Sys2Proof/Machine/Segments.lean ====
section
/-!
DEFINITION. Rows whose answers reach collective streams, output of the Workbench units, and the loss of a unit
(R296, R364, R382; R191, R198, R205, R206, R209).
-/
namespace Sys2Proof.Machine
open Host

/-! ### Answers that reach the streams -/

/-- What a step answers reaches the streams in the same step. -/
def settled_ (o : Outcome State Fault Refusal) : Outcome State Fault Refusal :=
  match o with
  | .next t => .next (settle t)
  | o => o

/-- HRSP_TRANSFER (R30, R33 to R36): beats of the host's responses. -/
def execHrspTransfer (ip : IpId) (hdr : Option (BitVec 128)) (beats : List Beat) (s : State) : Outcome State Fault Refusal :=
  if s.portsOpen then .next (settle (hrsp ip hdr beats s)) else .next s

/-- HREQ_TIMEOUT (R35). -/
def execHreqTimeout (ip : IpId) (tag : Tag) (s : State) : Outcome State Fault Refusal := settled_ (coreHreqTimeout ip tag s)
/-- REQUEST_COMMIT (R194, R203). -/
def execRequestCommit (s : State) : Outcome State Fault Refusal := settled_ (coreRequestCommit s)
/-- RESPONSE_RX (R193, R198). -/
def execResponseRx (p : PortId) (bad : Bool) (s : State) : Outcome State Fault Refusal :=
  if s.acts then .next (settle (responseRx p bad s)) else .next s
/-- RSP_TIMEOUT (R198). -/
def execRspTimeout (dst : BitVec 18) (txid : BitVec 20) (s : State) : Outcome State Fault Refusal := settled_ (coreRspTimeout dst txid s)
/-- BUSY_RESEND (R198). -/
def execBusyResend (dst : BitVec 18) (txid : BitVec 20) (s : State) : Outcome State Fault Refusal := settled_ (coreBusyResend dst txid s)
/-- PORT_LOST (R205). -/
def execPortLost (p : Checked PortId) (s : State) : Outcome State Fault Refusal := settled_ (corePortLost p s)
/-- COLD_TRAINING (R101, R154, R206). -/
def execColdTraining (p : PortId) (s : State) : Outcome State Fault Refusal := settled_ (coreColdTraining p s)
/-- DRAIN_TIMEOUT (R209). -/
def execDrainTimeout (p : PortId) (s : State) : Outcome State Fault Refusal := settled_ (coreDrainTimeout p s)

/-! ### Output of the Workbench (R296, R364) -/

/-- Bytes of a requantized chunk stand ready to be written; poisoned ones halt the channel (R295, R342, R364). -/
def chanEncoded (c n : Nat) (data : List Byte) (poison : Bool) (s : State) : State :=
  let x := s.chan c
  match x.piece with
  | none => s
  | some k =>
    let at_ := (n - x.chunk0) * chunkOut x.cur
    if poison then chanFail c { code := 0x13, dir := 0, addr := k.sAddr, fab := k.sFab, die := k.sDie, hop := k.hop, pos := x.base + (n - x.chunk0) * chunkIn x.cur } s
    else chanGo 64 c (updChan c (fun y => { y with enc := y.enc ++ [(at_, data)] }) s)

/-- Every stream in RUN goes on: room has become free. -/
def allProgress (s : State) : State := s.col.foldl (fun t e => progress e.1 t) s

/-- SEGMENT_ENCODED (R296): the output of a complete segment is sent or written, and its room is free. -/
def execSegmentEncoded (u : WbId) (s : State) : Outcome State Fault Refusal :=
  if !s.acts then .next s else
  match takeEncoded u s with
  | none => .next s
  | some (g, data, t) =>
    match g.use with
    | .col v c sg level => .next (allProgress (settle (streamSegment v c sg level g.gen data g.poison t)))
    | .chan c n => .next (allProgress (chanEncoded c n data g.poison t))

/-! ### Loss of a unit's segments (R295, R317, R364, R382) -/

/-- Segments open on unit `u`. -/
def segsOn (u : Nat) (s : State) : List WbSeg := (s.wbUnit u).segs

/-- The unit's segments and what waits for it leave it, but for FOLDs, which the restart of their segment takes up (R308, R317). -/
def emptyUnit (u : Nat) (s : State) : State :=
  updWb u (fun x => { x with segs := [], wait := x.wait.filter (fun c => c.pkt.isSome) }) s

/-- Segments lost with unit `u` are restarted: those of collectives under R317, DMA descriptors under R364. -/
def loseUnit (u : Nat) (s : State) : State :=
  let gs := segsOn u s
  let s1 := emptyUnit u s
  let cols := (gs.filterMap (fun g => match g.use with | .col v c sg _ => some (v, c, sg) | _ => none)).eraseDups
  let chans := (gs.filterMap (fun g => match g.use with | .chan c _ => some c | _ => none)).eraseDups
  let s2 := cols.foldl (fun t e => loseSegment e.1 e.2.1 e.2.2 t) s1
  allProgress (settle (chans.foldl (fun t c =>
    if (requantUnit c t).isNone then engineLost c 0 t
    else chanGo 64 c (restartDesc c 0 (fun w => match w.job with | .head => true | .writeBack => true | .prefetch => true | _ => false) t)) s2))

/-- A quad reset poisons the open segments of a unit (R295): WB_POISON for each, and the segments are lost. -/
def poisonUnit (u : Nat) (s : State) : State :=
  loseUnit u ((segsOn u s).foldl (fun t g => poisonSeg u g t) s)

end Sys2Proof.Machine
end

