-- ==== Sys2Proof/Machine/Engines.lean ====
section
/-!
DEFINITION. Port engines and their shadows, quad resets, and the failures of the other units and of the lockstep pairs
(14_faults_failover.md R371 to R392).
-/
namespace Sys2Proof.Machine
open Host

/-! ### The engines of a quad (R373, R374, R400, R401) -/

def quad0 (_ : Nat) : Quad := {}
/-- The quad's state. -/
def State.quad (s : State) (q : Nat) : Quad := tget quad0 s.quads q
/-- Replaces it by its image under `f`. -/
def updQuad (q : Nat) (f : Quad → Quad) (s : State) : State := { s with quads := tmod quad0 s.quads q f }

/-- The engine that serves a port; 31 none. -/
def engOf (p : Nat) (s : State) : Nat := getF s (prtEng p) 0 5
/-- The engine that is the quad's shadow; 31 none. -/
def seng (q : Nat) (s : State) : Nat := getF s (qdShdSts q) 0 5
/-- An engine of a quad is in service. -/
def engIn (q e : Nat) (s : State) : Bool := getF s (qdEngSts q) e 1 == 1
/-- The port that an engine of quad `q` serves. -/
def servedBy (q e : Nat) (s : State) : Option Nat := ((List.range 16).map (16 * q + ·)).find? (fun p => engOf p s == e)

/-- PRT_ENG.ENG changes (R402). -/
def setEng (p e : Nat) (s : State) : State :=
  if engOf p s = e then s else raise (evPrt p) 23 (setF (prtEng p) 0 5 e s)
/-- An engine leaves service. -/
def retireEng (q e : Nat) (s : State) : State := setF (qdEngSts q) e 1 0 s
/-- The quad is left without a shadow. -/
def noShadow (q : Nat) (s : State) : State := raise (evQd q) 11 (setF (qdShdSts q) 0 5 31 s)
/-- The shadow is attached no longer. -/
def detach (q : Nat) (s : State) : State := updQuad q (fun x => { x with attached := none }) s
/-- The port has no verified engine output from now on (R372). -/
def stopPort (p : Nat) (s : State) : State := updPort p (fun x => { x with stopped := true }) s

/-- The effective tick of a hand-over decided in cycle `v` of CTS (R376). -/
def handEff (v : Nat) : Nat := if v % 1024 ≤ 767 then v / 1024 + 1 else v / 1024 + 2

/-- The shadow may take a port over: there is one, and no hand-over has taken it. -/
def shadowFree (q : Nat) (s : State) : Bool := seng q s != 31 && (s.quad q).hand.all (fun h => h.eng != seng q s)

/-! ### Rotation (R374, R375) -/

/-- A shadow may attach to a port (R374). -/
def shadowable (p : Nat) (s : State) : Bool :=
  let x := s.port p
  decide (x.ln.lstate = .up) && !x.rt.lost && !x.stopped && engOf p s != 31

/-- SHADOW_ATTACH (R374, R375): in the marker slot, to the next eligible port of the quad. -/
def execShadowAttach (q : QuadId) (s : State) : Outcome State Fault Refusal :=
  let x := s.quad q
  if s.acts && decide (s.cyc ≤ 3) && x.attached.isNone && x.reset.isNone && shadowFree q s then
    match ((List.range 16).map (fun i => (x.next + i) % 16)).find? (fun i => shadowable (16 * q + i) s) with
    | some i => .next (updQuad q (fun y => { y with attached := some (i, s.tick), dwell := effF s (qdShdCtl q) 1 5, next := (i + 1) % 16 }) s)
    | none => .next s
  else .next s

/-- The former engine of a port is tested by a rotation slice (R375, R377). -/
def testEngine (q e : Nat) (s : State) : State :=
  updQuad q (fun x => { x with testing := x.testing ++ [e] }) { s with tst := { s.tst with rot := s.tst.rot ++ [(q, e)] } }

/-- SHADOW_ROTATION (R375): the dwell is over, and the shadow exchanges roles with the engine at cycle 0. -/
def execShadowRotation (q : QuadId) (s : State) : Outcome State Fault Refusal :=
  let x := s.quad q
  match x.attached with
  | some (i, t) =>
    if s.acts && effF s (qdShdCtl q) 0 1 == 1 && decide (s.cyc = 0) && decide (t + 2 ^ x.dwell ≤ s.tick) then
      let p := 16 * q.val + i
      let e := engOf p s
      .next (testEngine q e (bumpWrap (qdRotCnt q) 1 (setF (qdShdSts q) 0 5 31 (detach q (setEng p (seng q s) s)))))
    else .next s
  | none => .next s

/-! ### Failures of engines (R377, R378, R380, R392) -/

/-- The action recorded when port `p` is lost for want of an engine. -/
def lostAct (p : Nat) (s : State) : FaultAct :=
  match (lostState p (updPort p (fun x => { x with rt := { x.rt with lost := true } }) s)).1 with
  | .relay => .portLostRelay
  | _ => .portLostUnreach

/-- A port loses its engine: it is lost at cycle 0 of the next tick (R377, R378). -/
def loseForEngine (q p : Nat) (s : State) : State :=
  raise (evQd q) 12 (updPort p (fun x => { x with stopped := true, rt := { x.rt with lossDue := some .engine, lossTick := s.tick + 1 } }) s)

/-- The port to which the shadow goes instead: an engine of it failed in this cycle too, and its number is lower (R392). -/
def displaced (q p : Nat) (s : State) : Option HandOver :=
  (s.quad q).hand.find? (fun h => h.since == s.cts && h.eng == seng q s && decide (p < h.port))

/-- Engine `e`, serving port `p` unshadowed, has failed: the shadow takes the port over, with a link reset, or the port is
lost (R378, R392). -/
def takeOver (q e p : Nat) (s : State) : State :=
  let h : HandOver := { port := p, since := s.cts, eng := seng q s, eff := handEff s.cts, reset := true, change := true }
  let s1 := stopPort p (retireEng q e s)
  if shadowFree q s then updQuad q (fun x => { x with attached := none, hand := x.hand ++ [h] }) s1
  else match displaced q p s with
    | some o =>
      updQuad q (fun x => { x with hand := x.hand.erase o ++ [{ h with leave := o.leave }] })
        (setEng o.port 31 (loseForEngine q o.port s1))
    | none => setEng p 31 (loseForEngine q p s1)

/-- ACTION of an ENG_SELFCHECK record: the shadow takes the port over, or the engine is out (R394). -/
def selfAct (q p : Nat) (s : State) : FaultAct :=
  if shadowFree q s || (displaced q p s).isSome then .takeoverReset else .unitOut

/-- ENG_SELFCHECK is raised and counted, and its record made with cause 0 self-check, 1 retry, 2 overrun or 3 store (R394). -/
def noteSelf (q e cause : Nat) (act : FaultAct) (s : State) : State :=
  handOver (unitEng q e) (unitEng q e) .quad 0x0302 act (e + 256 * cause) (raise (evQd q) 9 (bump (qdEngCnt q) 16 8 s))

/-- Outcome of a mismatch at a port, from both verdicts (R377): the hand-over and the action recorded. -/
def mismatch (q p : Nat) (eF sF : Bool) (s : State) : State :=
  let e := engOf p s
  let sh := seng q s
  let h : HandOver := { port := p, since := s.cts, eng := sh, eff := handEff (s.cts + 8), reset := false, change := true }
  let (h1, act) := match eF, sF with
    | true, false => ({ h with leave := [e] }, FaultAct.takeover)
    | false, true => ({ h with eng := e, change := false, leave := [sh] }, .resume)
    | false, false => ({ h with reset := true, test := some e }, .takeoverReset)
    | true, true => ({ h with eng := 31, leave := [e, sh] }, lostAct p s)
  let s1 := updQuad q (fun x => { x with attached := none, hand := x.hand ++ [h1] })
    (stopPort p (raise (evQd q) 8 (bump (qdEngCnt q) 0 8 s)))
  let s2 := handOver (unitArb q) (unitEng q e) .quad 0x0301 act (e + 256 * sh + 2 ^ 16 * bit eF + 2 ^ 17 * bit sF) s1
  if eF ∧ sF then loseForEngine q p s2 else s2

/-- A self-check failure of engine `e` of quad `q` (R378, R380): on a shadowed port the outputs differ as well, and R377
applies; else the engine leaves service, and its port goes to the shadow or is lost. -/
def engFails (q e cause : Nat) (s : State) : State :=
  if !engIn q e s then s
  else
    let x := s.quad q
    let at_ := match x.attached with | some (i, t) => if t < s.tick then some (16 * q + i) else none | none => none
    match at_ with
    | some p =>
      if e = engOf p s then mismatch q p true false s
      else if e = seng q s then mismatch q p false true s
      else match servedBy q e s with
        | some p2 => takeOver q e p2 (noteSelf q e cause (selfAct q p2 s) s)
        | none => retireEng q e (noteSelf q e cause .unitOut s)
    | none =>
      match x.hand.find? (fun h => h.eng == e && decide (h.eng ≠ 31)) with
      | some h =>
        -- the engine of a hand-over fails before its effective tick: its port is lost
        setEng h.port 31 (loseForEngine q h.port (retireEng q e (noteSelf q e cause .unitOut
          (noShadow q (updQuad q (fun y => { y with hand := y.hand.erase h }) (h.leave.foldl (fun t k => retireEng q k t) s))))))
      | none =>
        if e = seng q s then noShadow q (detach q (retireEng q e (noteSelf q e cause .unitOut s)))
        else match servedBy q e s with
          | some p => takeOver q e p (noteSelf q e cause (selfAct q p s) s)
          | none =>
            updQuad q (fun y => { y with testing := y.testing.filter (fun k => k != e) })
              { (retireEng q e (noteSelf q e cause .unitOut s)) with tst := { s.tst with rot := s.tst.rot.filter (fun r => r != (q, e)) } }

/-- ENG_MISMATCH (R377): the outputs of the shadowed engine and the shadow differ; the two self-check verdicts. -/
def execEngMismatch (q : QuadId) (eFails sFails : Bool) (s : State) : Outcome State Fault Refusal :=
  match (s.quad q).attached with
  | some (i, t) => if s.acts && decide (t < s.tick) then .next (mismatch q (16 * q.val + i) eFails sFails s) else .next s
  | none => .next s

/-- ENG_SELFCHECK (R378, R380, R388): a self-check failure of an engine; with `store` a failure of the residue check on its
state-store writes; with `uncorr` an uncorrectable word of its port's state store. -/
def execEngSelfcheck (q : QuadId) (e : EngineId) (store uncorr : Bool) (s : State) : Outcome State Fault Refusal :=
  if !s.acts || !engIn q e s then .next s
  else
    let s1 := match uncorr, servedBy q e s with
      | true, some p => sramUncorr (unitEng q e) (unitPort p) .port 6 .poisoned s
      | _, _ => s
    .next (engFails q e (if store then 3 else 0) s1)

/-- A port goes on under its new or resumed engine: a training restarts, a port in P2 or P3 wakes, and a link reset, where
one belongs to the hand-over, begins now (R376, R378, R392). -/
def goOnUnder (p : Nat) (reset : Bool) (s : State) : State :=
  let x := s.port p
  if !reset then s
  else match x.ln.training with
    | some t =>
      if t.cold then updLn p (fun y => { y with coldDue := some y.afterWarm, dueTick := s.tick }) s else beginTraining p false s
    | none =>
      if x.ln.lstate ≠ .up then s
      else if x.pw.state = .p2 ∨ x.pw.state = .p3 then startWake p s.tick s.tick true s
      else updLn p (fun y => { y with dueTick := s.tick }) (resetDue p 7 s)

/-- A hand-over takes effect (R376 to R378). -/
def handNow (q : Nat) (h : HandOver) (s : State) : State :=
  let s1 := h.leave.foldl (fun t e => retireEng q e t) (updQuad q (fun x => { x with hand := x.hand.erase h }) s)
  let s2 := if h.test.isSome then setF (qdShdSts q) 0 5 31 s1 else noShadow q s1
  let s3 := match h.test with | some e => testEngine q e s2 | none => s2
  if h.eng = 31 then setEng h.port 31 s3
  else
    let s4 := if h.change then raise (evQd q) 10 (bump (qdEngCnt q) 8 8 (setEng h.port h.eng s3)) else s3
    goOnUnder h.port h.reset (updPort h.port (fun x => { x with stopped := false }) s4)

/-- HANDOVER_EFFECTIVE (R376): at cycle 0, the hand-overs of the quad whose effective tick has come. -/
def execHandoverEffective (q : QuadId) (s : State) : Outcome State Fault Refusal :=
  if s.acts && decide (s.cyc = 0) then .next (((s.quad q).hand.filter (fun h => decide (h.eff ≤ s.tick))).foldl (fun t h => handNow q h t) s)
  else .next s

/-! ### Other units (R17, R382) -/

/-- The ports of a quad. -/
def portsOf (q : Nat) : List Nat := (List.range 16).map (16 * q + ·)

/-- A quad reset resets the link of a port: one that is up, or in a warm retraining, retrains; one in a cold training, which keeps
nothing of the link, begins it again; one that is down stays down (R17, R106; log 105). -/
def quadResets (t : State) (p : Nat) : State :=
  match (t.port p).ln.training with
  | some x => if x.cold then coldDue p (t.port p).ln.afterWarm t else resetDue p 7 t
  | none => if (t.port p).ln.lstate = .up then resetDue p 7 t else t

/-- ARB_SELFCHECK (R17, R382): a quad reset: its ports reset their links together, and its Workbench units are poisoned. -/
def execArbSelfcheck (q : QuadId) (s : State) : Outcome State Fault Refusal :=
  if !s.acts || (s.quad q).reset.isSome then .next s
  else
    let s1 := handOver (unitArb q) (unitArb q) .quad 0x0304 .quadReset 0 (raise (evQd q) 13 s)
    let s2 := (portsOf q).foldl quadResets s1
    .next (poisonUnit (2 * q.val + 1) (poisonUnit (2 * q.val) (updQuad q (fun x => { x with reset := some s.tick }) s2)))

/-- QUAD_RESET_COMPLETE (R17). -/
def execQuadResetComplete (q : QuadId) (s : State) : Outcome State Fault Refusal :=
  if s.acts then .next (updQuad q (fun x => { x with reset := none }) s) else .next s

/-- QUAD_RESET_TIMEOUT (R382): after 64 ticks all 16 ports are lost. -/
def execQuadResetTimeout (q : QuadId) (s : State) : Outcome State Fault Refusal :=
  match (s.quad q).reset with
  | some t =>
    if s.acts && decide (t + 64 ≤ s.tick) then
      .next ((portsOf q).foldl (fun u p => updPort p (fun x => { x with rt := { x.rt with lossDue := some .engine, lossTick := s.tick + 1 } }) u)
        (updQuad q (fun x => { x with reset := none }) s))
    else .next s
  | none => .next s

/-- WB_SELFCHECK (R382): the unit leaves service at cycle 0 of the next tick. -/
def execWbSelfcheck (u : WbId) (s : State) : Outcome State Fault Refusal :=
  if s.acts && getF s wbSts u 1 == 1 && s.leaving.all (fun l => l.1 != unitWb u) then
    .next (handOver (unitWb u) (unitWb u) .adapter 0x0305 .unitOut u { s with leaving := s.leaving ++ [(unitWb u, s.tick + 1)] })
  else .next s

/-- Streams in WAIT give their reservations up where those of all streams exceed the scratch in service (R382). -/
def recompute (s : State) : State :=
  if colReserved s ≤ (wbUnits s).length * wbScratch then s
  else s.col.foldl (fun t e => if e.2.st = .wait then updStream e.1 (fun x => { x with reserved := none, runTick := none }) t else t) s

/-- A Workbench unit leaves service (R382). -/
def leaveWb (u : Nat) (s : State) : State :=
  recompute (loseUnit u (raise (evQd (u / 2)) 14 (setF wbSts u 1 0 s)))

/-- CENTRAL_SELFCHECK (R382, R386): the adapter enters FAULT. The crossbar has no unit number (R88). -/
def execCentralSelfcheck (unit : CentralUnit) (s : State) : Outcome State Fault Refusal :=
  if !s.acts then .next s
  else
    let (n, t) := match unit with
      | .atomic => (unitAtm, s)
      | .protection => (unitProt, s)
      | .keyStore => (unitProt, s)
      | .crossbar => ((takeFree s).1 % 2 ^ 14, (takeFree s).2)
    .next (enterFault (handOver n n .adapter 0x0404 .adapterFault 0 t))

/-! ### The lockstep time base (R383) -/

/-- The pair goes on with one half: GLB_LOCK.TB_MODE, the event and the record. -/
def surviveTb (b : Bool) (s : State) : State :=
  let t := setF glbLock 0 2 (if b then 2 else 1) (raise evTb 8 { s with tb := { s.tb with mode := if b then .bOnly else .aOnly } })
  handOver unitTb (unitTb + if b then 1 else 2) .adapter 0x0401 .survivor (if b then 2 else 1) t

/-- No half of the time base works: FAULT. -/
def loseTb (s : State) : State :=
  enterFault (handOver unitTb unitTb .adapter 0x0401 .adapterFault 0 { s with tb := { s.tb with dead := true } })

/-- TB_MISMATCH (R383): the verdicts of both halves, and whether the CTS of each continues the one before; of a half that
runs alone, its later self-check failure. -/
def execTbMismatch (aFails bFails aCts bCts : Bool) (s : State) : Outcome State Fault Refusal :=
  if !s.alive || s.tb.dead then .next s
  else match s.tb.mode with
    | .pair =>
      if aFails ∧ bFails then .next (raise evTb 8 (loseTb s))
      else if aFails then .next (surviveTb true s)
      else if bFails then .next (surviveTb false s)
      else if aCts then .next (surviveTb false s)
      else if bCts then .next (surviveTb true s)
      else .next (surviveTb ((takeFree s).1 % 2 == 1) (takeFree s).2)
    | .aOnly => .next (if aFails then loseTb s else s)
    | .bOnly => .next (if bFails then loseTb s else s)

/-! ### The lockstep Lectern (R240, R384, R385) -/

/-- An abandoned client: the answer reaches nobody. -/
def orphanThread : Client → Client
  | .thread _ => .orphan
  | c => c

/-- An access whose answer reaches nobody if it was a thread's. -/
def HostReq.orphaned (r : HostReq) : HostReq := { r with client := orphanThread r.client }
def Atom.orphaned (x : Atom) : Atom := { x with client := orphanThread x.client }
def Answer.orphaned (a : Answer) : Answer := { a with client := orphanThread a.client }

/-- The accesses that wait or are outstanding at an inner port. -/
def InnerPort.orphaned (x : InnerPort) : InnerPort :=
  { x with wait := x.wait.map HostReq.orphaned, header := x.header.map HostReq.orphaned, busy := x.busy.map HostReq.orphaned }

/-- The atomics of a lane. -/
def AtomLane.orphaned (l : AtomLane) : AtomLane :=
  let pair (a : Atom × Nat × Bool) := (a.1.orphaned, a.2)
  { l with
    arrivals := l.arrivals.map Atom.orphaned
    words := l.words.map (fun w => { w with queue := w.queue.map Atom.orphaned, applied := w.applied.map pair, covered := w.covered.map pair }) }

/-- A Lectern restart abandons its outstanding accesses, wherever they are: to other dies, to this one, at a lane, or answered and held
under MSYNC (R240). -/
def abandonThreads (s : State) : State :=
  let n := (s.tx.threads.filter (fun e => e.2.parked)).length
  let t := updT (fun u => { u with
    threads := [], current := 0, resumes := 0
    waiting := u.waiting.map (fun q => { q with client := orphanThread q.client })
    held := u.held.map (fun h => (h.1, h.2.map Answer.orphaned))
    done := u.done.map Answer.orphaned
    lanes := u.lanes.map (fun e => (e.1, e.2.orphaned))
    spairs := u.spairs.map (fun e => (e.1, e.2.map (fun k => { k with reqs := k.reqs.map (fun r => { r with client := orphanThread r.client }) }))) }) s
  bumpN atmLth 16 16 n (raise evAtm 6 { t with ips := t.ips.map (fun e => (e.1, e.2.orphaned)) })

/-- A request under execution is abandoned and gets no reply (R385, R432). -/
def abandonRequest (s : State) : State :=
  match s.plv.armed with
  | none => s
  | some r =>
    let t := { s with plv := { s.plv with armed := none } }
    if r.path = .mailbox then setF mgtMbxSts 2 1 1 (setF mgtMbxSts 0 2 0 t) else t

/-- The Lectern restarts in a mode (R384). -/
def restartLectern (m : PairMode) (s : State) : State :=
  let lm := match m with | .pair => 0 | .aOnly => 1 | .bOnly => 2
  let s1 := handOver unitLectern unitLectern .adapter 0x0402 .lecternRestart lm (raise evTb 11 (bump glbLock 8 8 (setF glbLock 2 2 lm s)))
  abandonRequest (abandonThreads { s1 with lect := { s.lect with
    mode := m, restart := some s.tick, lockstep := decide (m = .pair), recovery := false } })

/-- No half of the Lectern can run: FAULT. How DETAIL names the halves restarted when none is, is left open. -/
def loseLectern (s : State) : State :=
  let (n, t) := takeFree s
  enterFault (handOver unitLectern unitLectern .adapter 0x0402 .adapterFault (n % 4) { t with lect := { t.lect with dead := true } })

/-- LECTERN_MISMATCH (R384): the halves differ, with the verdicts of both; of a half that runs alone, its self-check failure. -/
def execLecternMismatch (aFails bFails : Bool) (s : State) : Outcome State Fault Refusal :=
  if !s.acts || s.lect.dead then .next s
  else match s.lect.mode with
    | .aOnly => .next (if aFails then loseLectern s else s)
    | .bOnly => .next (if bFails then loseLectern s else s)
    | .pair =>
      if aFails ∧ ¬bFails then .next (restartLectern .bOnly s)
      else if bFails ∧ ¬aFails then .next (restartLectern .aOnly s)
      else
        let soon := match s.lect.ended with | some t => s.lect.lockstep && decide (s.tick ≤ t / 1024 + 1600) | none => false
        .next (restartLectern (if soon && !aFails then .aOnly else .pair) s)

/-- The firmware runs again, in recovery (R384, R385). -/
def lecternRestarted (s : State) : State := { s with lect := { s.lect with restart := none, recovery := true, ended := some s.cts } }

/-- Every hand-off that was pending as the restart ended has entered the log. -/
def handOffsLogged (s : State) : Bool := s.flt.held.all (fun r => decide (s.lect.ended.getD 0 < r.cts))

/-- RECOVERY_END (R238): the firmware has logged the outcome of every hand-off pending at the restart, all of which the log then holds
(log 109). -/
def execRecoveryEnd (s : State) : Outcome State Fault Refusal :=
  if s.acts && handOffsLogged s then .next { s with lect := { s.lect with recovery := false } } else .next s

/-! ### Software on the fault log (R397) -/

/-- FLT_CLEAR (R397). -/
def execFltClear (s : State) : Outcome State Fault Refusal :=
  .next (hostWrite (clearLog) s)

end Sys2Proof.Machine
end

