-- ==== Sys2Proof/Machine/Epoch.lean ====
section
/-!
DEFINITION. The banks of the fabric manager's tables, the configuration digest, and epochs (R243 to R245, R255, R256,
R319, R425, R439 to R442).
-/
namespace Sys2Proof.Machine
open Host

/-! ### The digest (R439) -/

/-- A staged group entry never written holds COUNT 2 (R319). -/
def grpStg0 (_ : Nat) : Word := 0x8000

/-- The bytes of entries 0 to `n - 1` of a table. -/
def tabBytes (d : Nat → Word) (t : Tab Word) (n : Nat) : List Nat := (List.range n).flatMap (fun i => leBytes 4 (tget d t i).toNat)

/-- The time word of a TB_CFG value (R439). -/
def timeWord (cfg : Word) (s : State) : Nat :=
  fld cfg 14 18 + 2 ^ 18 * (if fld cfg 0 2 = 0 then fld cfg 8 6 else s.site)

/-- The digest of a flow table, a group table, a member memory and a time-master choice with the relay tables in force. -/
def digestOf (flow : Tab Word) (gd : Nat → Word) (grp mem : Tab Word) (cfg : Word) (s : State) : Nat :=
  crc64 (tabBytes word0 flow 4096 ++ tabBytes gd grp 256 ++ tabBytes word0 mem 16384 ++
    (List.range 65).flatMap (fun i => leBytes 4 (imgWord (512 + i) s)) ++ leBytes 4 (timeWord cfg s))

/-- The digest of what is in force. -/
def activeDigest (s : State) : Nat := digestOf s.banks.flowAct word0 s.banks.grpAct s.banks.memAct (getReg s tbCfg) s

/-- The staged digest. -/
def stagedDigest (s : State) : Nat := digestOf s.banks.flowStg grpStg0 s.banks.grpStg s.banks.memStg (getReg s tbCfgStg) s

/-- The epoch in force. -/
def epochNow (s : State) : Nat := getF s mgtEpoch 0 32
/-- The digest in force, as MGT_DIG shows it. -/
def digestNow (s : State) : Nat := getF s (mgtDig 0) 0 32 + 2 ^ 32 * getF s (mgtDig 1) 0 32

/-- Epoch and digest in force are those of the tables from the present tick on; the last four are kept for the ledgers (R441). -/
def noteDigest (d : Nat) (s : State) : State :=
  let t := setF (mgtDig 0) 0 32 d (setF (mgtDig 1) 0 32 (d / 2 ^ 32) s)
  { t with banks := { t.banks with history := ((t.tick, epochNow t, d % 2 ^ 64) :: t.banks.history).take 4 } }

/-- Epoch and digest that were in force at cycle 0 of tick `k` (R441). -/
def inForceAt (k : Nat) (s : State) : Nat × Nat :=
  match s.banks.history.find? (fun h => decide (h.1 ≤ k)) with
  | some h => h.2
  | none => (epochNow s, digestNow s)

/-! ### Activation (R256, R440, R442) -/

/-- A table read with one default, listed with another. -/
def retab (d e : Nat → Word) (n : Nat) (t : Tab Word) : Tab Word := (List.range n).foldl (fun u k => tset e u k (tget d t k)) []

/-- The banks are exchanged. -/
def Banks.exchange (b : Banks) : Banks :=
  { b with
    calStg := b.calAct, calAct := b.calStg, flowStg := b.flowAct, flowAct := b.flowStg
    grpStg := retab word0 grpStg0 256 b.grpAct, grpAct := retab grpStg0 word0 256 b.grpStg
    memStg := b.memAct, memAct := b.memStg, abank := !b.abank }

/-- The configuration activated at its epoch tick: banks, time-master choice, epoch and digest (R256, R440). -/
def activate (a : Activation) (s : State) : State :=
  let s1 := { s with banks := { s.banks.exchange with copying := true } }
  let s2 := takeRole (setF mgtEpoch 0 32 a.epoch (putReg tbCfg (getReg s tbCfgStg) s1))
  groupsChanged s (noteDigest a.digest (raise evPwr 1 s2))

/-- EPOCH_ACTIVATION (R256, R440): at cycle 0 of the epoch tick. -/
def execEpochActivation (s : State) : Outcome State Fault Refusal :=
  match s.banks.pend with
  | some a => if s.acts && decide (s.cyc = 0) && decide (a.tick = s.tick) && !s.banks.copying then .next (settle (activate a s)) else .next s
  | none => .next s

/-- Each bank in force is copied into its staging bank. -/
def Banks.copyBack (b : Banks) : Banks :=
  { b with
    calStg := b.calAct, flowStg := b.flowAct, grpStg := retab word0 grpStg0 256 b.grpAct, memStg := b.memAct
    pend := none, copying := false }

/-- BANK_COPY_BACK (R255, R256): the copy ends, and with it the activation. -/
def execBankCopyBack (s : State) : Outcome State Fault Refusal :=
  if s.acts && s.banks.copying then .next { s with banks := s.banks.copyBack } else .next s

/-! ### Staging (R244, R245, R255, R319) -/

/-- A calendar entry in range (R7, R243, R244). -/
def calOk (e : Nat) (w : Word) : Bool :=
  !(fld w 31 1 == 1 && (e == 0 || e == 128)) && decide (fld w 22 6 < 2 ^ fld w 28 3) && fld w 28 3 != 7

/-- A flow-table entry in range (R7, R245). -/
def flowOk (w : Word) : Bool := decide (fld w 28 3 ≤ 1) && !(fld w 28 3 == 0 && decide (128 ≤ fld w 0 10))

/-- A group entry in range (R319). -/
def grpOk (w : Word) : Bool := decide (2 ≤ fld w 14 13) && decide (fld w 14 13 ≤ 4096) && decide (fld w 0 14 + fld w 14 13 ≤ 16384)

/-- The staging tables the fabric manager writes. -/
inductive StgTab where
  | cal (p : Nat)
  | flow | grp | mem
  deriving DecidableEq, Repr

/-- Entries of the table. -/
def StgTab.size : StgTab → Nat
  | .cal _ => 256 | .flow => 4096 | .grp => 256 | .mem => 16384

/-- An entry word is in range. -/
def StgTab.ok : StgTab → Nat → Word → Bool
  | .cal _, e, w => calOk e w
  | .flow, _, w => flowOk w
  | .grp, _, w => grpOk w
  | .mem, _, _ => true

/-- The bits of an entry word that are fields; the others read as zero (R5). -/
def StgTab.mask : StgTab → Word → Word
  | .cal _, w => w &&& 0xFFC00FFF#32
  | .flow, w => w &&& 0xF00003FF#32
  | .grp, w => w &&& 0x0FFFFFFF#32
  | .mem, w => w &&& 0x0003FFFF#32

/-- Stages entry `e`. -/
def stageEntry (k : StgTab) (e : Nat) (w0 : Word) (s : State) : State :=
  let w := k.mask w0
  let b := s.banks
  match k with
  | .cal p => { s with banks := { b with calStg := tset word0 b.calStg (256 * p + e) w } }
  | .flow => { s with banks := { b with flowStg := tset word0 b.flowStg e w } }
  | .grp => { s with banks := { b with grpStg := tset grpStg0 b.grpStg e w } }
  | .mem => { s with banks := { b with memStg := tset word0 b.memStg e w } }

/-- Entry `e` of the staging bank, or of the bank in force. -/
def entryOf (k : StgTab) (act : Bool) (e : Nat) (s : State) : Word :=
  let b := s.banks
  match k with
  | .cal p => tget word0 (if act then b.calAct else b.calStg) (256 * p + e)
  | .flow => tget word0 (if act then b.flowAct else b.flowStg) e
  | .grp => if act then tget word0 b.grpAct e else tget grpStg0 b.grpStg e
  | .mem => tget word0 (if act then b.memAct else b.memStg) e

/-- Staging is locked: STAGE_LOCKED (R255). -/
def stageLocked (s : State) : State := raise evPwr 0 s

end Sys2Proof.Machine
end

