-- ==== Sys2Proof/Machine/Protect.lean ====
section
/-!
DEFINITION. Protection state and its two-party change: the lock, staging, ARM, COMMIT, ABORT, apply, expiry and
zeroisation (15_protection.md R403 to R421).
-/
namespace Sys2Proof.Machine
open Host

/-! ### The image and its digest (R406, R407) -/

/-- The key in force, and the key that would be in force after an apply. -/
def keyAfter (s : State) : Option (List Nat) := match s.prot.stgKey with | some k => some k | none => s.prot.key

/-- KCV: the first 8 bytes of the hash of a key, as two words; zero where there is none (R406, R407). -/
def kcv (k : Option (List Nat)) : Nat := match k with | some b => leNum ((sha256 b).take 8) | none => 0

/-- Word `i` of an image whose KCV words are `kv`. -/
def imageWord (img : Tab Word) (kv i : Nat) : Nat :=
  if i = 1097 then kv % 2 ^ 32 else if i = 1098 then kv / 2 ^ 32 % 2 ^ 32 else (tget word0 img i).toNat

/-- The digest of an image (R407). -/
def imageDigest (img : Tab Word) (kv : Nat) : Nat :=
  leNum ((sha256 ((List.range 1100).flatMap (fun i => leBytes 4 (imageWord img kv i)))).take 8)

/-- The digest of the staging image. -/
def stgDigest (s : State) : Nat := imageDigest s.prot.stg (kcv (keyAfter s))

/-! ### What R411 refuses -/

/-- Window `w` of an image is acceptable (R411). -/
def windowOk (img : Tab Word) (die w : Nat) : Bool :=
  let i (k : Nat) := (tget word0 img (8 * w + k)).toNat
  let zeros := i 0 % 4096 == 0 && decide (i 1 < 65536) && i 2 % 4096 == 0 && decide (i 3 < 65536) && decide (i 4 < 2 ^ 15) &&
    decide (i 5 < 65536) && decide (i 6 < 2 ^ 24) && i 7 == 0
  let en := i 4 % 2 == 1
  let size := i 4 / 2 % 64
  zeros && (!en || (decide (12 ≤ size ∧ size ≤ 42) && (i 0 + i 1 * 2 ^ 32) % 2 ^ size == 0 &&
    !(i 4 / 2 ^ 13 % 2 == 1 && i 6 % 2 ^ 18 == die)))

/-- An image that R411 does not refuse. -/
def imageOk (img : Tab Word) (die : Nat) : Bool :=
  (List.range 64).all (windowOk img die) && (List.range 64).all (fun p => decide ((tget word0 img (512 + p)).toNat < 128)) &&
    decide ((tget word0 img 576).toNat < 2) && tget word0 img 1099 == 0

/-! ### The lock and the staging area (R408) -/

/-- PSTATE. -/
def pstate (s : State) : Nat := getF s proSts 0 2
/-- The protection lock is held. -/
def lockHeld (s : State) : Bool := getF s proSts 5 1 == 1

def updProt (f : Protect → Protect) (s : State) : State := { s with prot := f s.prot }

/-- A MAGENT access to the PRO block: the lock's 65,536 ticks begin afresh (R408). -/
def touchLock (agent : Bool) (s : State) : State := if agent then updProt (fun x => { x with lockTick := s.tick }) s else s

/-- AGENT_REJECT. -/
def agentReject (s : State) : State := raise evPro 6 s

/-- A write governed by R408: by the agent, with the lock held; else AGENT_REJECT. -/
def agentGate (agent : Bool) (f : State → State) (s : State) : State :=
  if agent && lockHeld s then f s else agentReject s

/-- Such a write to the PRO block. -/
def agentWrite (agent : Bool) (f : State → State) (s : State) : Outcome State Fault Refusal :=
  .next (hostWrite (fun t => agentGate agent f (touchLock agent t)) s)

/-- The agent takes the lock where it is free. -/
def lockAcq (agent : Bool) (s : State) : State := if agent then setF proSts 5 1 1 (touchLock true s) else agentReject s

/-- PRO_LOCK_ACQ (R408): the agent takes the free lock. -/
def execProLockAcq (agent : Bool) (s : State) : Outcome State Fault Refusal :=
  .next (hostWrite (lockAcq agent) s)

/-- PRO_LOCK_REL (R408). -/
def execProLockRel (agent : Bool) (s : State) : Outcome State Fault Refusal := agentWrite agent (setF proSts 5 1 0) s

/-- PRO_LOCK_TIMEOUT (R408). -/
def execProLockTimeout (s : State) : Outcome State Fault Refusal :=
  if s.acts && lockHeld s && decide (s.prot.lockTick + 65536 ≤ s.tick) then .next (setF proSts 5 1 0 s) else .next s

/-- Word `i` of the staging image is written; the KCV words ignore it (R407). -/
def stageImage (i : Nat) (w : Word) (s : State) : State :=
  if i = 1097 ∨ i = 1098 then updProt (fun x => { x with stgSeen := true }) s
  else updProt (fun x => { x with stg := tset word0 x.stg i w, stgSeen := true }) s

/-- The staging word PRO_STG_IDX selects is written, in IDLE only. -/
def stageWord (w : Word) (s : State) : State := if pstate s = 0 then stageImage (getF s proStgIdx 0 11) w s else agentReject s

/-- PRO_STG_WRITE (R408, R417): the agent writes the staging word PRO_STG_IDX selects. -/
def execProStgWrite (agent : Bool) (w : Word) (s : State) : Outcome State Fault Refusal :=
  agentWrite agent (stageWord w) s

/-- Four bytes of the staged key, in IDLE only. -/
def stageKey (k : Nat) (w : Word) (s : State) : State :=
  if pstate s = 0 then
    setF proSts 4 1 1 (updProt (fun x =>
      let b := x.stgKey.getD (List.replicate 32 0)
      { x with stgKey := some (b.take (4 * k) ++ leBytes 4 w.toNat ++ b.drop (4 * k + 4)), stgSeen := true }) s)
  else agentReject s

/-- PRO_KEY_STG_WRITE (R408, R420): four bytes of the staged key, which is then staged. -/
def execProKeyStgWrite (agent : Bool) (k : Fin 8) (w : Word) (s : State) : Outcome State Fault Refusal :=
  agentWrite agent (stageKey k w) s

/-! ### Discards (R406, R413) -/

/-- PSTATE returns to IDLE with no change pending. -/
def toIdle (s : State) : State :=
  setF proSts 0 2 0 (setF proSts 2 1 0 (setF (proArmDig 0) 0 32 0 (setF (proArmDig 1) 0 32 0 (setF proArmTick 0 32 0
    (updProt (fun x => { x with change := none, applyAt := none }) s)))))

/-- The change is discarded: staging is copied back and the staged key is zeroised. -/
def discardChange (s : State) : State :=
  setF proSts 4 1 0 (toIdle (updProt (fun x => { x with stg := x.img, stgKey := none }) s))

/-- An ARM is refused: PSTATE returns to IDLE and staging is copied back; a staged key stays (R410, R478). -/
def refuseChange (s : State) : State := toIdle (updProt (fun x => { x with stg := x.img }) s)

/-- An armed change that nobody has committed by cycle 0 of T_A + 65,536 is due to be discarded (R413). -/
def armExpired (s : State) : Bool :=
  pstate s == 2 && (match s.prot.change with | some c => decide (c.tick + 65536 ≤ s.tick) | none => false)

/-- It is discarded: EXPIRED. -/
def expire (s : State) : State := raise evPro 3 (discardChange s)

/-- ARM_EXPIRY (R413). -/
def execArmExpiry (s : State) : Outcome State Fault Refusal :=
  if s.acts && armExpired s then .next (expire s) else .next s

/-- An expiry that is due takes effect before a request of its cycle (R417). -/
def settleExpiry (s : State) : State := if armExpired s then expire s else s

/-! ### ARM, COMMIT, ABORT (R410, R412, R413): status and state -/

def stDone : Nat := 0
def stAccepted : Nat := 1
def stState : Nat := 2
def stRange : Nat := 3
def stAuth : Nat := 4
def stBusy : Nat := 5
def stUnknown : Nat := 6
def stTimeout : Nat := 7
def stInconclusive : Nat := 8
def stFail : Nat := 9
def stNotArmed : Nat := 0xA
def stLength : Nat := 0xB
def stLocked : Nat := 0xC

/-- An ARM by the fabric manager (`fm`) or the host security agent: BUSY, or the check begins. -/
def protArm (fm : Bool) (dig nonce : Nat) (s0 : State) : Nat × State :=
  let s := settleExpiry s0
  if pstate s ≠ 0 then (stBusy, s)
  else (stAccepted, setF proSts 0 2 1 (updProt (fun x => { x with change := some { fm := fm, dig := dig, nonce := nonce, tick := s.tick } }) s))

/-- A COMMIT. -/
def protCommit (fm : Bool) (dig nonce : Nat) (s0 : State) : Nat × State :=
  let s := settleExpiry s0
  match s.prot.change with
  | none => (stNotArmed, s)
  | some c =>
    if pstate s ≠ 2 then (stBusy, s)
    else if c.fm = fm ∨ c.dig ≠ dig ∨ c.nonce ≠ nonce then (stRange, s)
    else (stDone, setF proSts 0 2 3 (updProt (fun x => { x with applyAt := some (s.tick + 1) }) s))

/-- An ABORT. -/
def protAbort (s0 : State) : Nat × State :=
  let s := settleExpiry s0
  if pstate s = 1 ∨ pstate s = 2 then (stDone, raise evPro 2 (discardChange s)) else (stNotArmed, s)

/-- The check of an ARM ends (R410, R411): `bad` where the staging image holds an uncorrectable word. In BOOT the adapter
commits the agent's change itself (R415). -/
def armChecked (bad : Bool) (c : ArmedChange) (s : State) : Nat × State :=
  if bad then (stFail, raise evPro 4 (refuseChange s))
  else if !imageOk s.prot.stg s.die || stgDigest s != c.dig then (stRange, raise evPro 4 (refuseChange s))
  else
    let boot := decide (s.bnd.adp = .boot) && !c.fm
    let t := updProt (fun x => { x with change := some { c with tick := s.tick }, applyAt := if boot then some (s.tick + 1) else none }) s
    (stDone, raise evPro 0 (setF proSts 0 2 (if boot then 3 else 2) (setF proSts 2 1 (bit c.fm)
      (setF (proArmDig 0) 0 32 c.dig (setF (proArmDig 1) 0 32 (c.dig / 2 ^ 32) (setF proArmTick 0 32 s.tick t))))))

/-! ### The agent's requests (R408, R414) -/

/-- A request of the agent leaves its outcome in RESULT. -/
def agentRequest (f : State → Nat × State) (s : State) : State :=
  let (r, t) := f s
  setF proSts 8 4 r t

/-- D and N as the agent supplies them. -/
def argDig (s : State) : Nat := getF s (proArgDig 0) 0 32 + 2 ^ 32 * getF s (proArgDig 1) 0 32
def argNonce (s : State) : Nat := getF s (proArgNonce 0) 0 32 + 2 ^ 32 * getF s (proArgNonce 1) 0 32

/-- ARM and COMMIT written to PRO_CMD. -/
def cmdArm (s : State) : State := agentRequest (protArm false (argDig s) (argNonce s)) s
def cmdCommit (s : State) : State := agentRequest (protCommit false (argDig s) (argNonce s)) s

/-- PRO_CMD_ARM (R410). -/
def execProCmdArm (agent : Bool) (s : State) : Outcome State Fault Refusal :=
  agentWrite agent cmdArm s
/-- PRO_CMD_COMMIT (R412). -/
def execProCmdCommit (agent : Bool) (s : State) : Outcome State Fault Refusal :=
  agentWrite agent cmdCommit s

/-! ### Apply (R412, R416) -/

/-- A port in RELAY or DRAINING whose entry changes uses the new site, or becomes UNREACHABLE (R416). -/
def reroute (old : State) (p : Nat) (s : State) : State :=
  let r := (s.port p).rt
  if (r.rstate = .relay ∨ r.rstate = .draining) ∧ imgWord (512 + p) old ≠ imgWord (512 + p) s then
    match relaySite p s with
    | some site => setRoute p r.rstate site s
    | none => setRoute p .unreachable 0 s
  else s

/-- The staging image and key come into force. -/
def applyChange (c : ArmedChange) (s : State) : State :=
  let s1 := updProt (fun x => { x with img := x.stg, key := keyAfter s, stgKey := none }) s
  let s2 := setF proSts 3 1 (bit (keyAfter s).isSome) (setF proSts 4 1 0 (setF proSts 6 1 0
    (setF (proCurDig 0) 0 32 c.dig (setF (proCurDig 1) 0 32 (c.dig / 2 ^ 32) (toIdle s1)))))
  let s3 := (s.ports.map (·.1)).foldl (fun t p => reroute s p t) (bump proCnt 16 16 (raise evPro 1 s2))
  noteDigest (activeDigest s3) (match s3.banks.pend with
    | some a => if s3.banks.copying then s3 else { s3 with banks := { s3.banks with pend := some { a with digest := stagedDigest s3 } } }
    | none => s3)

/-- PROT_APPLY (R412): at cycle 0 of the tick after the COMMIT. -/
def execProtApply (s : State) : Outcome State Fault Refusal :=
  match s.prot.applyAt, s.prot.change with
  | some t, some c => if s.acts && decide (s.cyc = 0) && decide (t ≤ s.tick) then .next (applyChange c s) else .next s
  | _, _ => .next s

/-! ### Zeroisation (R418) -/

/-- Keys first, then both images, the nonce and every pending change; the lock is free. -/
def zeroise (s : State) : State :=
  raise evPro 7 (putReg proSts (BitVec.ofNat 32 (2 ^ 6 + 2 ^ 8 * getF s proSts 8 4))
    ([proArmDig 0, proArmDig 1, proArmTick, proCurDig 0, proCurDig 1, proFmNonce 0, proFmNonce 1].foldl (fun t a => putReg a 0 t)
      { s with prot := {} }))

end Sys2Proof.Machine
end

