-- ==== Sys2Proof/Machine/SelfTest.lean ====
section
/-!
DEFINITION. Self-test slices, soft repair, the two-party burn, and the test access port
(17_selftest_freeze.md R445 to R463).
-/
namespace Sys2Proof.Machine
open Host

def updTst (f : TestCtl → TestCtl) (s : State) : State := { s with tst := f s.tst }

/-! ### Repair records (R454) -/

/-- A record with its CHK. -/
def sealRec (body : Nat) : BitVec 128 := BitVec.ofNat 128 (body % 2 ^ 120 + crc8 120 (body % 2 ^ 120) 0 * 2 ^ 120)

/-- CHK is correct. -/
def chkOk (r : BitVec 128) : Bool := sf r 120 8 == crc8 120 (r.toNat % 2 ^ 120) 0

def recKind (r : BitVec 128) : Nat := sf r 0 4
/-- ARRAY and INSTANCE of an SRAM record. -/
def recMacro (r : BitVec 128) : Nat × Nat := (sf r 4 4, sf r 8 12)
/-- An SRAM record. -/
def isSram (r : BitVec 128) : Bool := recKind r == 1 || recKind r == 2
/-- Quad and engine of an ENGINE_OUT record. -/
def recEngine (r : BitVec 128) : Nat × Nat := ((sf r 4 14 - 0x300) / 32, (sf r 4 14 - 0x300) % 32)

/-- A unit number is a port engine's (R88). -/
def isEngine (u : Nat) : Bool := decide (0x300 ≤ u) && decide (u < 0x380) && decide ((u - 0x300) % 32 ≤ 16)

/-- CHK, KIND and every field are as R454 lays them out. -/
def recOk (r : BitVec 128) : Bool :=
  chkOk r && (match recKind r with
    | 1 => decide (sf r 4 4 ≤ 9) && sf r 32 88 == 0
    | 2 => decide (sf r 4 4 ≤ 9) && decide (sf r 20 10 ≤ 35) && decide (sf r 30 2 ≤ 1) && sf r 32 88 == 0
    | 3 => decide (sf r 4 9 < 320) && sf r 13 107 == 0
    | 4 => isEngine (sf r 4 14) && sf r 18 102 == 0
    | 8 => sf r 10 6 == 0 && sf r 96 24 == 0
    | _ => false)

/-- The records in eFuse whose CHK is correct. -/
def burned (s : State) : List (BitVec 128) := (s.efuse.slots.map (·.2)).filter chkOk

/-- Two SRAM records name the same spare. -/
def sameSpare (a b : BitVec 128) : Bool :=
  isSram a && recKind a == recKind b && recMacro a == recMacro b && sf a 30 2 == sf b 30 2

/-- The spare an SRAM record names is in use by a record other than `but`. -/
def spareUsed (r : BitVec 128) (but : Option (BitVec 128)) (s : State) : Bool :=
  (s.tst.soft ++ burned s).any (fun q => sameSpare r q && decide (some q ≠ but))

/-- Free spares of a kind (1 rows, 2 columns) in a macro, ascending. -/
def freeSpares (kind : Nat) (m : Nat × Nat) (s : State) : List Nat :=
  (List.range (if kind = 1 then 4 else 2)).filter (fun k =>
    !(s.tst.soft ++ burned s).any (fun q => recKind q == kind && recMacro q == m && sf q 30 2 == k))

/-! ### Macros (R448, R450) -/

/-- Macros of each array (log 62). -/
def macroCounts : List Nat := [512, 512, 4, 32, 512, 256, 64, 19, 1, 2]
/-- All macros. -/
def macroTotal : Nat := macroCounts.foldl (· + ·) 0

/-- The macro at a place in ascending array and instance order. -/
def macroAt : Nat → Nat → List Nat → Nat × Nat
  | _, n, [] => (0, n)
  | a, n, c :: cs => if n < c then (a, n) else macroAt (a + 1) (n - c) cs

/-- The unit that owns a macro; one that several ports share counts as the first one's (R450). -/
def ownerOf (m : Nat × Nat) : Nat :=
  match m.1 with
  | 0 => unitPort (m.2 / 8)
  | 1 => unitPort (m.2 / 8)
  | 2 => unitPort (16 * m.2)
  | 3 => unitAtm
  | 4 => unitWb (m.2 / 64)
  | 5 => unitDmaEng (m.2 % 8)
  | 6 => unitPort m.2
  | 7 => if m.2 < 8 then unitPort (8 * m.2) else unitTest
  | 8 => unitProt
  | _ => unitLectern

/-- The arrays a unit owns, none for a unit that owns none. -/
def arraysOf (u : Nat) : List Nat :=
  if 0x200 ≤ u ∧ u < 0x240 then [0, 1, 2, 6, 7]
  else if 0x400 ≤ u ∧ u < 0x408 then [4]
  else if u = unitAtm then [3]
  else if 0x580 ≤ u ∧ u < 0x588 then [5]
  else if u = unitProt then [8]
  else if u = unitTest then [7]
  else if u = unitLectern then [9]
  else []

/-- A unit's macros, ascending. -/
def unitMacros (u : Nat) : List (Nat × Nat) :=
  (arraysOf u).flatMap (fun a => let (f, c, st) := macrosOf a u; (List.range c).map (fun k => (a, f + k * st)))

def tested0 (_ : Nat) : Option Nat := none

/-- The macro the next slice on a unit tests: the one after the last tested, wrapping (R450). -/
def nextMacro (u : Nat) (s : State) : Option (Nat × Nat) :=
  let ms := unitMacros u
  match tget tested0 s.tst.tested u with
  | some k => ms[(k + 1) % max ms.length 1]?
  | none => ms[0]?

/-- That macro has been tested. -/
def noteTested (u : Nat) (m : Nat × Nat) (s : State) : State :=
  updTst (fun x => { x with tested := tset tested0 x.tested u (some ((unitMacros u).findIdx (fun k => k == m))) }) s

/-! ### Starting slices (R445, R446, R448) -/

/-- TST_CTL.BUDGET. -/
def defBudget (s : State) : Nat := getF s tstCtl 0 11

/-- Adapter states in which slices run: READY, RUN, QUIESCE, TEST (R449). -/
def sliceState (s : State) : Bool := decide (s.bnd.adp = .ready ∨ s.bnd.adp = .run ∨ s.bnd.adp = .quiesce ∨ s.bnd.adp = .test)

/-- The slice that starts next, and the state without it among those that wait (R448). -/
def nextSlice (s : State) : Option (SliceJob × State) :=
  let b := defBudget s
  let rot := (List.range 4).findSome? (fun q => s.tst.rot.find? (fun r => r.1 == q))
  match rot, s.tst.damage, s.tst.request, s.tst.sweep with
  | some (q, e), _, _, _ => some ({ why := .rotation q e, unit := unitEng q e, budget := b }, updTst (fun x => { x with rot := x.rot.erase (q, e) }) s)
  | none, m :: ms, _, _ => some ({ why := .damage, unit := ownerOf m, mem := some m, budget := b }, updTst (fun x => { x with damage := ms }) s)
  | none, [], some j, _ => some (j, updTst (fun x => { x with request := none }) s)
  | none, [], none, some m => some ({ why := .sweep, unit := ownerOf m, mem := some m, budget := b }, updTst (fun x => { x with sweep := none }) s)
  | none, [], none, none => none

/-- A slice starts: TST_STS and TST_MEM show it. -/
def startSlice (j : SliceJob) (s : State) : State :=
  let s1 := putReg tstSts (BitVec.ofNat 32 (1 + 2 ^ 5 * bit j.mem.isSome + 2 ^ 8 * j.unit)) (updTst (fun x => { x with run := some { job := j, began := s.tick, phase := if j.mem.isSome then 0 else 1, next := s.tick } }) s)
  match j.mem with
  | some m => noteTested j.unit m (putReg tstMem (BitVec.ofNat 32 (m.1 + 2 ^ 4 * m.2)) s1)
  | none => s1

/-- SLICE_START (R448): at cycle 16 of the tick after the previous slice ended. -/
def execSliceStart (s : State) : Outcome State Fault Refusal :=
  let after := match s.tst.ended with | some t => decide (t < s.tick) | none => true
  if s.acts && sliceState s && s.tst.run.isNone && !s.tst.broken && after then
    match nextSlice s with
    | some (j, t) => .next (startSlice j (arrive 16 t))
    | none => .next s
  else .next s

/-- A slice is running, or one of kinds 1 to 3 waits (R448). -/
def testBusy (s : State) : Bool := s.tst.run.isSome || !s.tst.rot.isEmpty || !s.tst.damage.isEmpty || s.tst.request.isSome

/-- SWEEP_TIMER (R448): the sweep's gap is over and nothing waits: its next macro is wanted. -/
def execSweepTimer (s : State) : Outcome State Fault Refusal :=
  if s.acts && sliceState s && !s.tst.broken && getF s tstCtl 11 1 == 1 && !testBusy s && s.tst.sweep.isNone &&
      decide (s.tst.ended.getD 0 + getF s tstCtl 12 16 ≤ s.tick) then
    let n := match s.tst.swept with | some k => (k + 1) % macroTotal | none => 0
    .next (updTst (fun x => { x with swept := some n, sweep := some (macroAt 0 n macroCounts) }) s)
  else .next s

/-! ### Allocating spares (R453) -/

/-- Symbol columns that fail in two or more rows, ascending. -/
def badCols (fails : List (Nat × Nat)) : List Nat :=
  (List.range 36).filter (fun c => decide (2 ≤ ((fails.filter (fun f => f.2 == c)).map (·.1)).eraseDups.length))

/-- The spares of R453: column and row records, or none where the free spares do not cover the failures. -/
def allocate (m : Nat × Nat) (fails : List (Nat × Nat)) (s : State) : Option (List (BitVec 128)) :=
  let freeC := freeSpares 2 m s
  let cols := (badCols fails).take freeC.length
  let rows := (((fails.filter (fun f => !cols.contains f.2)).map (·.1)).eraseDups).mergeSort (· ≤ ·)
  let freeR := freeSpares 1 m s
  if freeR.length < rows.length then none
  else
    let mk (kind addr spare : Nat) := sealRec (kind + 2 ^ 4 * m.1 + 2 ^ 8 * m.2 + 2 ^ 20 * addr + 2 ^ 30 * spare)
    some (List.zipWith (fun c k => mk 2 c k) cols freeC ++ List.zipWith (fun r k => mk 1 r k) rows freeR)

/-- The march is over: the outcome, and the spares applied (R451, R453, R455). -/
def judge (x : Slice) (m : Nat × Nat) (s : State) : (Nat × Nat) × State :=
  if x.fails.isEmpty then ((2, 0), s)
  else match allocate m x.fails s with
    | none => ((3, 0), raise evTst 4 s)
    | some rs =>
      if 128 < s.tst.soft.length + rs.length then ((3, 0), raise evTst 4 s)
      else ((5, 0), raise evTst 3 (bumpN tstCnt1 16 16 rs.length (updTst (fun y => { y with soft := y.soft ++ rs }) s)))

/-! ### Steps (R445, R451, R452) -/

/-- Steps of a phase of a slice. -/
def stepsOf (x : Slice) : Nat :=
  match x.job.mem with
  | some _ => if x.phase = 1 then 40 else 4
  | none => if isEngine x.job.unit then 48 else 96

/-- Every step of a slice is complete. -/
def Slice.stepsDone (x : Slice) : Bool := (x.job.mem.isNone || decide (x.phase = 2)) && decide (x.steps = stepsOf x)

/-- The reference signature of a logic object's type (R452). -/
def reference (u : Nat) : Nat :=
  Config.bistReference (if isEngine u then 0 else if 0x400 ≤ u ∧ u < 0x408 then 1 else if 0x580 ≤ u ∧ u < 0x588 then 2
    else if 0x588 ≤ u ∧ u < 0x590 then 3 else if 0x280 ≤ u ∧ u < 0x284 then 4 else if u = unitAtm then 5 else 6) % 2 ^ 64

/-- Ticks used so far, saturating (TST_STS.USED). -/
def usedTicks (x : Slice) (s : State) : Nat := min 1023 (s.tick + 1 - x.began)

def putRun (x : Slice) (s : State) : State := setF tstSts 22 10 (usedTicks x s) (updTst (fun y => { y with run := some x }) s)

/-- The restore begins (R451). -/
def toRestore (x : Slice) (v : Nat × Nat) : Slice := { x with phase := 2, steps := 0, verdict := some v }

/-- The save is complete: the save RAM stands in, and queued records of the macro are applied (R451, R455). -/
def saved (x : Slice) (m : Nat × Nat) (s : State) : State :=
  putRun { x with phase := 1, steps := 0 } (putReg tstSave (BitVec.ofNat 32 (1 + 2 * m.1 + 2 ^ 5 * m.2))
    (updTst (fun y => { y with queued := y.queued.filter (fun r => recMacro r != m) }) s))

/-- One step of a memory slice; in the test phase `fails` are the failing pairs it found. -/
def memStep (x : Slice) (m : Nat × Nat) (fails : List (Nat × Nat)) (s : State) : State :=
  let y := { x with steps := x.steps + 1, next := s.tick + 1 }
  match x.phase with
  | 0 => if y.steps = 4 then saved y m s else putRun y s
  | 1 =>
    let z := { y with fails := (y.fails ++ fails).eraseDups }
    let s1 := setF tstMem 16 6 (min 63 z.fails.length) s
    if z.steps = 40 then let (v, s2) := judge z m s1; putRun (toRestore z v) s2 else putRun z s1
  | _ =>
    let late := !y.exceeded && decide (x.began + x.job.budget ≤ s.tick)
    putRun { y with exceeded := y.exceeded || late } (if late then raise evTst 9 s else s)

/-- One step of a logic slice; `sig` is the signature reached (R452). -/
def logicStep (x : Slice) (sig : BitVec 64) (s : State) : State :=
  let y := { x with steps := x.steps + 1, next := s.tick + 1 }
  let ok := sig.toNat == reference x.job.unit
  let s1 := setF (tstSig 0) 0 32 sig.toNat (setF (tstSig 1) 0 32 (sig.toNat / 2 ^ 32) (setF tstSts 6 1 (bit ok) s))
  putRun (if y.steps = stepsOf x then { y with verdict := some (if ok then 2 else 3, 0) } else y) s1

/-- BIST_STEP (R445): one step of the running slice, from cycle 16 of the tick. -/
def execBistStep (sig : BitVec 64) (fails : List (Fin 1024 × Fin 36)) (s0 : State) : Outcome State Fault Refusal :=
  match s0.tst.run with
  | none => .next s0
  | some x =>
    if s0.acts && decide (x.next ≤ s0.tick) && decide (x.steps < stepsOf x) then
      let s := arrive 16 s0
      match x.job.mem with
      | some m => .next (memStep x m (fails.map (fun f => (f.1.val, f.2.val))) s)
      | none => .next (logicStep x sig s)
    else .next s0

/-! ### Ends (R446, R447, R375, R381, R430) -/

/-- An engine whose slice has passed goes back to work (R375, R381): with `back` it had left service, and serves the
lowest-numbered lost port of the quad without an engine; else it is the shadow. -/
def returnEng (q e : Nat) (back : Bool) (s : State) : State :=
  let s1 := setF (qdEngSts q) e 1 1 (updQuad q (fun x => { x with testing := x.testing.filter (fun k => k != e) }) s)
  match (portsOf q).find? (fun p => engOf p s == 31 && (s.port p).rt.lost) with
  | some p =>
    if back then setEng p e (updPort p (fun x => { x with stopped := false }) s1) else setF (qdShdSts q) 0 5 e s1
  | none => setF (qdShdSts q) 0 5 e (if seng q s = 31 then s1 else detach q s1)

/-- The record of a slice on a port engine that did not pass (R394). -/
def engBist (q e code : Nat) (s : State) : State :=
  handOver unitTest (unitEng q e) .quad 0x0303 (if code = 3 then .unitOut else .bistRetry) (e + 256 * (if code = 3 then 1 else 2)) s

/-- What an outcome does to the slice's unit. -/
def settleUnit (x : Slice) (code : Nat) (s : State) : State :=
  match x.job.why with
  | .rotation q e =>
    if !engIn q e s then s
    else if code = 2 then returnEng q e false s
    else
      let s1 := raise (evQd q) 15 (bump (qdEngCnt q) 24 8 (engBist q e code s))
      if code = 3 then
        noShadow q (retireEng q e (updQuad q (fun y => { y with testing := y.testing.filter (fun k => k != e) }) s1))
      else updTst (fun y => { y with rot := y.rot ++ [(q, e)] }) s1
  | .giveBack =>
    let u := x.job.unit
    let s1 := if code = 2 then { s with returning := s.returning ++ [(u, s.tick + 1)] } else s
    if isEngine u ∧ code ≠ 2 then engBist ((u - 0x300) / 32) ((u - 0x300) % 32) code s1 else s1
  | _ => s

/-- The slice ends with an outcome and, for INCONCLUSIVE, its cause (R447). -/
def endSlice (x : Slice) (code cause : Nat) (s : State) : State :=
  let s1 := setF tstSts 0 3 code (setF tstSts 3 2 cause (setF tstSts 22 10 (usedTicks x s)
    (updTst (fun y => { y with run := none, ended := some s.tick }) s)))
  let s2 := match code with
    | 3 => raise evTst 1 (bump tstCnt0 16 16 s1)
    | 4 => raise evTst 2 (bump tstCnt1 0 16 s1)
    | _ => raise evTst 0 (bump tstCnt0 0 16 s1)
  settleUnit x code s2

/-- The slice is cut short (R446): its outcome is INCONCLUSIVE, unless spares have been applied; a save RAM that stands in is
restored first. -/
def cutSlice (x : Slice) (cause : Nat) (s : State) : State :=
  match x.job.mem, x.phase with
  | some _, 1 => putRun (toRestore x (4, cause)) s
  | some _, 2 => if (x.verdict.getD (0, 0)).1 = 5 then s else putRun { x with verdict := some (4, cause) } s
  | _, _ => endSlice x 4 cause s

/-- SLICE_BUDGET_EXPIRY (R446, R451): the patterns, or the march's part of the budget, have run out. -/
def execSliceBudgetExpiry (s : State) : Outcome State Fault Refusal :=
  match s.tst.run with
  | none => .next s
  | some x =>
    let exceeded := match x.job.mem with
      | some _ => decide (x.phase ≤ 1) && decide (x.began + x.job.budget ≤ s.tick + 5)
      | none => x.verdict.isNone && decide (x.began + x.job.budget ≤ s.tick)
    if s.acts && exceeded then .next (cutSlice x 0 s) else .next s

/-- SLICE_END (R447): every step is done. -/
def execSliceEnd (s : State) : Outcome State Fault Refusal :=
  match s.tst.run with
  | none => .next s
  | some x =>
    if s.acts && x.stepsDone then
      let (code, cause) := x.verdict.getD (4, 0)
      .next (endSlice x code cause (if x.job.mem.isSome then putReg tstSave 0 s else s))
    else .next s

/-- TEST_CONTROLLER_SELFCHECK (R382, R459): slices stop, one in progress ends INCONCLUSIVE, and a save RAM that stands in
goes on doing so. -/
def execTestControllerSelfcheck (s : State) : Outcome State Fault Refusal :=
  if !s.acts then .next s
  else
    let t := updTst (fun x => { x with broken := true }) s
    match s.tst.run with
    | some x => .next (endSlice x 4 2 t)
    | none => .next t

/-! ### The burn (R457, R458) -/

/-- BSTATE, with its armer. -/
def setBstate (b : Nat) (fm : Bool) (s : State) : State := setF tstBurnSts 0 2 b (setF tstBurnSts 2 1 (bit fm) s)

/-- The first repair slot that is free. -/
def freeSlot (f : EFuse) : Option Nat := (List.range 512).find? (fun k => tget (fun _ => 0#128) f.slots k == 0 && !f.used.contains k)

/-- Slots, and patch entries, that are used. -/
def slotsUsed (f : EFuse) : Nat := (List.range 512).countP (fun k => tget (fun _ => 0#128) f.slots k != 0 || f.used.contains k)
def patchesUsed (f : EFuse) : Nat := (List.range 64).countP (fun k => tget (fun _ => 0#128) f.patches k != 0 || f.used.contains (512 + k))

/-- There is room in eFuse for a record. -/
def burnRoom (r : BitVec 128) (f : EFuse) : Bool :=
  if recKind r = 8 then tget (fun _ => 0#128) f.patches (sf r 4 6) == 0 && !f.used.contains (512 + sf r 4 6) else (freeSlot f).isSome

/-- What is programmed into the record's place: the record, or, where programming did not verify or was cut short, bits that
are left open; the place is used. -/
def program (r : BitVec 128) (good : Bool) (s : State) : State :=
  let (n, t) := takeFree s
  let v := if good then r else BitVec.ofNat 128 n
  let f := s.efuse
  if recKind r = 8 then
    let k := sf r 4 6
    { t with efuse := { f with patches := tset (fun _ => 0#128) f.patches k v, used := if good then f.used else f.used ++ [512 + k] } }
  else match freeSlot f with
    | some k => { t with efuse := { f with slots := tset (fun _ => 0#128) f.slots k v, used := if good then f.used else f.used ++ [k] } }
    | none => s

/-- A reset or a freeze ends a burn (R458). -/
def cutBurn (s : State) : State :=
  match s.tst.burning with
  | some (r, _) => updTst (fun x => { x with burning := none }) (program r false s)
  | none => s

/-- The burn is disarmed. -/
def disarm (s : State) : State := setBstate 0 false (updTst (fun x => { x with armed := none }) s)

/-- An armed burn whose ticks are over. -/
def burnExpired (s : State) : Bool := match s.tst.armed with | some (_, _, t) => decide (t + 65536 ≤ s.tick) | none => false

/-- A party presents a record: its status (R457). -/
def burnPart (fm : Bool) (r : BitVec 128) (s0 : State) : Nat × State :=
  let s := if burnExpired s0 then disarm s0 else s0
  if s.tst.burning.isSome then (stBusy, s)
  else match s.tst.armed with
    | some (q, who, _) =>
      if r = q ∧ fm ≠ who then
        (stAccepted, setBstate 2 who (updTst (fun x => { x with armed := none, burning := some (r, s.tick) }) s))
      else (stRange, s)
    | none =>
      if recOk r && burnRoom r s.efuse && !spareUsed r (some r) s then
        (stDone, raise evTst 5 (setBstate 1 fm (updTst (fun x => { x with armed := some (r, fm, s.tick) }) s)))
      else (stRange, s)

/-- A party disarms. -/
def burnCancel (s : State) : Nat × State := if s.tst.armed.isSome then (stDone, disarm s) else (stNotArmed, s)

/-- The record in TST_BURN_REC. -/
def burnRec (s : State) : BitVec 128 := BitVec.ofNat 128 ((List.range 4).foldl (fun v k => v + (getReg s (tstBurnRec k)).toNat * 2 ^ (32 * k)) 0)

/-- A burn request of the host leaves its outcome in RESULT. -/
def hostBurn (f : State → Nat × State) (s : State) : State :=
  let (r, t) := f s
  setF tstBurnSts 3 4 r t

/-- The record is presented by the host. -/
def burnGo (s : State) : State := hostBurn (burnPart false (burnRec s)) s

/-- BURN_GO (R457). -/
def execBurnGo (agent : Bool) (s : State) : Outcome State Fault Refusal := .next (hostWrite (agentGate agent burnGo) s)
/-- BURN_ABORT (R457). -/
def execBurnAbort (agent : Bool) (s : State) : Outcome State Fault Refusal := .next (hostWrite (agentGate agent (hostBurn burnCancel)) s)

/-- BURN_EXPIRY (R457). -/
def execBurnExpiry (s : State) : Outcome State Fault Refusal :=
  if s.acts && burnExpired s then .next (disarm s) else .next s

/-- TST_EFUSE shows what is free and burned. -/
def showEfuse (s : State) : State := setF tstEfuse 0 10 (512 - slotsUsed s.efuse) (setF tstEfuse 18 7 (patchesUsed s.efuse) s)

/-- BURN_COMPLETE (R458): the place has been programmed and read back; `good` where the read-back matches. -/
def execBurnComplete (good : Bool) (s : State) : Outcome State Fault Refusal :=
  match s.tst.burning with
  | some (r, _) =>
    if s.acts then
      let t := showEfuse (program r good (setBstate 0 false (updTst (fun x => { x with burning := none }) s)))
      .next (raise evTst (if good then 6 else 7) (setF tstBurnSts 3 4 (if good then stDone else stFail) t))
    else .next s
  | none => .next s

/-! ### Soft repair by REPAIR_SOFT (R455) -/

/-- A LANE_OUT or ENGINE_OUT record names a lane in FAILED, or an engine out of service. -/
def isOut (r : BitVec 128) (s : State) : Bool :=
  if recKind r = 3 then decide ((s.lane (sf r 4 9)).role = .failed) else !engIn (recEngine r).1 (recEngine r).2 s

/-- A REPAIR_SOFT record: its status. -/
def softRepair (r : BitVec 128) (s : State) : Nat × State :=
  if !recOk r || recKind r == 8 then (stRange, s)
  else if 128 ≤ s.tst.soft.length then (stFail, s)
  else if isSram r then
    if spareUsed r none s then (stRange, s)
    else (stDone, wantMacro (recMacro r).1 (recMacro r).2 (raise evTst 3
      (updTst (fun x => { x with soft := x.soft ++ [r], queued := x.queued ++ [r] }) s)))
  else if isOut r s then (stDone, raise evTst 3 (updTst (fun x => { x with soft := x.soft ++ [r] }) s))
  else (stRange, s)

/-! ### The test access port (R460 to R463) -/

/-- Instructions of the wrapper (R460). -/
def wsExtest : Nat := 1
def wsSafe : Nat := 2

def setDr (v : Nat) (s : State) : State := updTst (fun x => { x with dr := v }) s

/-- TAP_BYPASS (R460): one bit, captured as 0. -/
def execTapBypass (s : State) : Outcome State Fault Refusal := .next (setDr 0 s)

/-- Outputs of no stated value. -/
def freePins (n : Nat) : WrapPins :=
  let v (k : Nat) := Config.freeValue (n + k)
  { mready := v 0 % 2 == 1, mrvalid := v 1 % 2 == 1, mrerr := v 2 % 2 == 1, mrdata := BitVec.ofNat 32 (v 3), irq := BitVec.ofNat 4 (v 4)
    adp := BitVec.ofNat 4 (v 5)
    ips := (List.range 16).map (fun i =>
      let w (k : Nat) := v (6 + 12 * i + k)
      { valid := BitVec.ofNat 4 (w 0), ready := BitVec.ofNat 4 (w 1), hreqHdr := BitVec.ofNat 128 (w 2), frspHdr := BitVec.ofNat 128 (w 3)
        hreqData := ⟨BitVec.ofNat 2048 (w 4), BitVec.ofNat 32 (w 5), w 6 % 2 == 1⟩
        frspData := ⟨BitVec.ofNat 2048 (w 7), BitVec.ofNat 32 (w 8), w 9 % 2 == 1⟩ }) }

/-- The states in which WS_EXTEST and WS_SAFE take effect (R460). -/
def wrapperOpen (s : State) : Bool := decide (s.bnd.adp = .boot ∨ s.bnd.adp = .frozen)

/-- TAP_WSP (R54, R460): a wrapper instruction, 0 WS_BYPASS, 1 WS_EXTEST with the `cells` shifted into the boundary register, 2 WS_SAFE,
whose values no rule states (log 110); the last two act as BYPASS where they do not take effect. -/
def execTapWsp (w : WspLoad) (s : State) : Outcome State Fault Refusal :=
  if w.wir.val ≠ 0 ∧ !wrapperOpen s then .next (setDr 0 s)
  else if w.wir.val = wsSafe then
    .next (updTst (fun x => { x with wrapper := w.wir, cells := freePins s.free }) { s with free := s.free + 198 })
  else .next (updTst (fun x => { x with wrapper := w.wir, cells := if w.wir.val = wsExtest then w.cells else x.cells }) s)

/-! ### The pins the wrapper covers (R26, R28, R54) -/

/-- A data beat with its parity, inverted over the words of `bad` (R28, R492). -/
def dataPins (v bad : Nat) (last : Bool) : Beat := ⟨BitVec.ofNat 2048 v, BitVec.ofNat 32 (dataPar v ^^^ bad), last⟩

/-- The outputs of an inner port as the adapter drives them: VALID of HREQ and FRSP, and READY of HRSP and FREQ, header before data; and
the beats presented, or else those driven last. -/
def ipPins (i : Nat) (s : State) : IpPins :=
  let x := s.ip i
  let v (b : Bool) := s.portsOpen && b
  { valid := BitVec.ofNat 4 (bit (v x.header.isSome) + 2 * bit (v x.beat.isSome) + 4 * bit (v x.frspHeader.isSome) + 8 * bit (v x.frspBeat.isSome))
    ready := BitVec.ofNat 4 (bit (readyFor i s .hrsp false) + 2 * bit (readyFor i s .hrsp true) + 4 * bit (readyFor i s .freq false) + 8 * bit (readyFor i s .freq true))
    hreqHdr := match x.header with | some r => r.hdrBeat | none => x.hreqHdr
    frspHdr := match x.frspHeader, x.frsp with | some _, f :: _ => f.hdrBeat | _, _ => x.frspHdr
    hreqData := match x.beat, inProgress x with
      | some _, some r =>
        let d := writeData r s
        let v := beatValue r (beatChunk r d)
        dataPins v (poisonWords r 0 d) (decide (r.beats + 1 = beatCount r.addr r.bytes))
      | _, _ => ⟨x.hreqBeat, x.hreqPar, x.hreqLast⟩
    frspData := match x.frspBeat, x.frspOut with
      | some _, o :: _ => dataPins (frspValue o.x o.beats) 0 (decide (o.beats + 1 = frspBeats o.x))
      | _, _ => ⟨x.frspData, x.frspPar, x.frspLast⟩ }

/-- The outputs the wrapper covers, as the adapter drives them. -/
def ownPins (s : State) : WrapPins :=
  { mready := s.mready, mrvalid := decide (s.bnd.mrvalid = some s.cts), mrerr := s.bnd.mrerr, mrdata := s.bnd.mrdata
    irq := BitVec.ofNat 4 (bit (s.irq .fault) + 2 * bit (s.irq .dma) + 4 * bit (s.irq .coll) + 8 * bit (s.irq .mgt))
    adp := BitVec.ofNat 4 s.bnd.adp.code, ips := (List.range 16).map (fun i => ipPins i s) }

/-- The outputs the wrapper covers, as the host sees them: the cells of the boundary register while WS_EXTEST or WS_SAFE is in effect. -/
def hostPins (s : State) : WrapPins := if s.tst.wrapper ≠ 0 ∧ wrapperOpen s then s.tst.cells else ownPins s

/-- The zeroisation before the first MEM_READ or SCAN of a freeze (R461). -/
def zeroiseFirst (s : State) : State := if s.tst.zeroed then s else updTst (fun x => { x with zeroed := true }) (zeroise s)

/-- The 32 bytes of a fault record (R393). -/
def FaultRec.bytes (r : FaultRec) : List Nat :=
  leBytes 32 (r.cts % 2 ^ 64 + 2 ^ 64 * (r.source % 2 ^ 32) + 2 ^ 96 * (r.level % 8) + 2 ^ 100 * (r.unit % 2 ^ 14) +
    2 ^ 128 * (r.code % 2 ^ 16) + 2 ^ 144 * (r.action % 2 ^ 8) + 2 ^ 160 * (r.recno % 2 ^ 32) + 2 ^ 192 * (r.detail % 2 ^ 64))

/-- The bytes of an entry of the log; zero where it holds no record (R399). -/
def logEntry (i : Nat) (s : State) : List Nat := match tget rec0 s.flt.ring i with | some r => r.bytes | none => List.replicate 32 0

/-- TAP_MEM_READ (R461, R462): in FROZEN, the data and state of a row. The protection tables read as zero; a row of the fault
log is half of an entry; where another array keeps what it holds is left open. -/
def execTapMemRead (array : Fin 16) (inst : Fin 4096) (row : Fin 1024) (save : Bool) (s : State) : Outcome State Fault Refusal :=
  if s.bnd.adp ≠ .frozen then .next (setDr 0 s)
  else
    let t := zeroiseFirst s
    let asked := array.val + 2 ^ 4 * inst.val + 2 ^ 16 * row.val + 2 ^ 26 * bit save
    if array.val = 8 then .next (setDr asked t)
    else if array.val = 9 ∧ inst.val < 2 ∧ !save then
      let r := inst.val * 1024 + row.val
      let bs := ((logEntry (r / 2) s).drop (16 * (r % 2))).take 16
      .next (setDr (asked + 2 ^ 32 * leNum bs + 2 ^ 160 * (if s.flt.poison.contains (r / 2) then 3 else 0)) t)
    else .next (setDr (asked + 2 ^ 32 * ((takeFree t).1 % 2 ^ 130)) (takeFree t).2)

/-- TAP_SCAN (R461, R463): in FROZEN, the chains' bits, in an order left to another document. -/
def execTapScan (s : State) : Outcome State Fault Refusal :=
  if s.bnd.adp ≠ .frozen then .next (setDr 0 s)
  else let t := zeroiseFirst s; .next (setDr (takeFree t).1 (takeFree t).2)

end Sys2Proof.Machine
end

