-- ==== Sys2Proof/Machine/Show.lean ====
section
/-!
DEFINITION. What a software read of a register returns: the stored fields, and the fields that show the state of a unit
(R60 to R64, R90, R124, R125, R127, R159, R160, R182, R212 to R216, R241, R267, R268, R297, R319, R348, R349, R399 to R401,
R420, R443, R465).
-/
namespace Sys2Proof.Machine

/-- Fields that do not overlap, put together. -/
def fieldsOf (fs : List (Nat × Nat × Nat)) : Nat := pack fs

/-- Bit p for every port p that satisfies `f`, from port `b` on: 32 of them. -/
def portMask (b : Nat) (f : Nat → Bool) : Nat := (List.range 32).foldl (fun v i => v + bit (f (b + i)) * 2 ^ i) 0

/-- Low or high half of a 64-bit value. -/
def half (h v : Nat) : Nat := v / 2 ^ (32 * h) % 2 ^ 32

/-- Word `k` of a list of bytes. -/
def wordAt (bs : List Nat) (k : Nat) : Nat := leNum ((bs.drop (4 * k)).take 4) % 2 ^ 32

/-! ### GLB and TB -/

/-- GLB_TX_STS, and the fault log's registers (R212, R399). -/
def showGlb (o : Nat) (s : State) : Nat :=
  let i := getF s fltIdx 0 10
  if o = 0x104 then fieldsOf [(0, 13, s.tx.spairs.length), (16, 13, s.tx.tpairs.length)]
  else if o = 0x204 then fieldsOf [(0, 10, s.flt.wptr), (11, 11, s.flt.count)]
  else if o = 0x20C then s.flt.recno
  else if o = 0x210 then fieldsOf [(31, 1, bit (s.flt.poison.contains i))]
  else if 0x220 ≤ o ∧ o < 0x240 then wordAt (logEntry i s) ((o - 0x220) / 4)
  else 0

/-- TB_STS, TB_TRIM, TB_CTS_LO, and VALID of TB_PEER_OFS (R90). -/
def showTb (o : Nat) (s : State) : Nat :=
  if o = 0x008 then
    fieldsOf [(0, 3, s.tb.state.code), (3, 1, bit s.tb.expired), (4, 4, s.stratum), (8, 8, min 255 s.tb.miss), (16, 16, min 65535 s.tb.hold)]
  else if o = 0x010 then ofInt 16 s.tb.trim
  else if o = 0x018 then half 0 s.cts
  else if 0x200 ≤ o ∧ o < 0x300 then
    match tget (fun _ => none) s.tb.peerTick ((o - 0x200) / 4) with
    | some t => fieldsOf [(16, 1, bit (decide ((s.tick : Int) < t + 8)))]
    | none => 0
  else 0

/-! ### MGT and PRO -/

/-- CFG_SKEW stands against port `p`. -/
def skewed (s : State) (p : Nat) : Bool := (s.port p).sc.skew

/-- The MGT registers that show state (R443). -/
def showMgt (o : Nat) (s : State) : Nat :=
  let a := s.banks.pend.getD ⟨0, 0, 0⟩
  if o = 0x000 then fieldsOf [(0, 4, s.bnd.adp.code), (4, 4, s.bnd.prev.code)]
  else if o = 0x02C then half 0 (stagedDigest s)
  else if o = 0x030 then half 1 (stagedDigest s)
  else if o = 0x034 then bit s.banks.pend.isSome
  else if o = 0x038 then a.epoch
  else if o = 0x03C then half 0 a.tick
  else if o = 0x040 then half 1 a.tick
  else if o = 0x044 then portMask 0 (skewed s)
  else if o = 0x048 then portMask 32 (skewed s)
  else 0

/-- The PRO registers that show the images, and the relay tables (R215, R420). -/
def showPro (o : Nat) (s : State) : Nat :=
  if o = 0x038 then (if s.prot.stgSeen then half 0 (stgDigest s) else 0)
  else if o = 0x03C then (if s.prot.stgSeen then half 1 (stgDigest s) else 0)
  else if o = 0x044 then imageWord s.prot.stg (kcv (keyAfter s)) (getF s proStgIdx 0 11)
  else if 0x100 ≤ o ∧ o < 0x120 then imgWord (577 + (o - 0x100) / 4) s
  else if o = 0x124 then imgWord (585 + getF s proSglIdx 0 9) s
  else if 0x200 ≤ o ∧ o < 0x300 then imgWord (512 + (o - 0x200) / 4) s
  else if o = 0x300 then imgWord 576 s
  else 0

/-- Windows `a` and `b` share an address. -/
def overlaps (a b : Window) : Bool := decide (a.base < b.base + 2 ^ b.size) && decide (b.base < a.base + 2 ^ a.size)

/-- The registers of window `w` (R214). -/
def showWin (w k : Nat) (s : State) : Nat :=
  if k < 7 then imgWord (8 * w + k) s
  else
    let x := window w s
    fieldsOf [(0, 16, min 65535 (tget mlag0 s.tx.mlag w)),
      (16, 1, bit (x.en && (List.range w).any (fun v => (window v s).en && overlaps (window v s) x)))]

/-! ### CAL, PWR, QD -/

/-- Ports with a lane in CAL; lanes due and waiting (R127). -/
def calRunning (s : State) : Nat := ((List.range 64).filter (fun p => !(inRole p .cal s).isEmpty)).length
def calWaiting (s : State) : Nat := (s.lanes.filter (fun e => e.2.due.isSome && decide (e.2.role ≠ .cal))).length

/-- CAL_STS, the flow table, PWR_STS (R127, R268). -/
def showCal (o : Nat) (s : State) : Nat :=
  let f := getF s schFlowIdx 0 12
  if o = 0x008 then fieldsOf [(0, 4, calRunning s), (4, 9, calWaiting s)]
  else if o = 0x104 then (entryOf .flow false f s).toNat
  else if o = 0x108 then (entryOf .flow true f s).toNat
  else if o = 0x10C then fieldsOf [(0, 1, bit s.banks.pend.isSome), (1, 1, bit s.banks.abank)]
  else if o = 0x200 then fieldsOf [(0, 7, portsIn .p0 s), (8, 7, portsIn .p1 s), (16, 7, portsIn .p2 s), (24, 7, portsIn .p3 s)]
  else 0

/-- A rotation slice of the quad runs. -/
def rotationRuns (q : Nat) (s : State) : Bool :=
  match s.tst.run with
  | some x => (match x.job.why with | .rotation k _ => k == q | _ => false)
  | none => false

/-- The inner-port, fence and shadow registers of quad `q` (R64, R216, R400). -/
def showQd (q o : Nat) (s : State) : Nat :=
  let i := 4 * q + (o - 0x100) / 0x20
  let x := s.ip i
  if o = 0x204 then
    match (s.quad q).attached with
    | some (p, t) => fieldsOf [(5, 1, 1), (6, 4, p % 16), (10, 1, bit (rotationRuns q s)), (15, 17, min (2 ^ 17 - 1) (s.tick - t))]
    | none => fieldsOf [(10, 1, bit (rotationRuns q s))]
  else if o < 0x100 ∨ 0x180 ≤ o then 0
  else if o % 0x20 = 4 then
    fieldsOf [(0, 11, x.out), (11, 11, x.quar.length),
      (22, 1, bit (beatWaits x .hreq s)), (23, 1, bit (beatWaits x .frsp s))]
  else if o % 0x20 = 0x14 then
    let f := getFence s i
    fieldsOf [(0, 1, bit f.busy), (1, 4, f.result), (5, 20, f.mark)]
  else 0

/-! ### PRT and LN -/

/-- The peer's PWR field and the own one last sent. -/
def sentPwr (p : Nat) (s : State) : Nat := match (s.port p).pw.sent with | some (_, w, _) => w | none => 0

/-- The registers of port `p` that show its state (R124, R159, R182, R215, R267, R401). -/
def showPrt (p o : Nat) (s : State) : Nat :=
  let x := s.port p
  let q := p / 16
  if o = 0x008 then
    fieldsOf [(0, 2, x.ln.lstate.code), (2, 1, bit x.tx.selective), (3, 1, bit x.tx.replaying), (4, 1, bit (!sbRoom x.tx s.cts false)),
      (5, 1, bit (isDark p s)), (6, 10, x.tx.unacked), (16, 9, x.rx.held.length), (25, 6, min 63 x.tx.retries)]
  else if o = 0x00C then fieldsOf [(0, 16, x.tx.nextTx.toNat), (16, 16, x.tx.oldest.toNat)]
  else if o = 0x010 then fieldsOf [(0, 16, x.rx.nextRx.toNat), (16, 16, x.rx.lastAck.toNat)]
  else if o = 0x080 then fieldsOf [(4, 1, bit x.cr.own.priv), (5, 3, if x.cr.own.priv then x.cr.own.channels - 1 else 0)]
  else if 0x0A8 ≤ o ∧ o < 0x0CC then
    let k := (o - 0x0A8) / 4
    fieldsOf [(0, 14, cget x.cr.out k), (14, 14, x.cr.shared k)]
  else if o = 0x0CC then fieldsOf [(0, 13, x.cr.sharedUsed)]
  else if o = 0x0D0 then
    let c := ((hatsHeld x.rx).filter isControl).length
    let up := x.ln.lstate ≠ .down
    fieldsOf [(0, 6, if up then ctlRoom x.cr else 0), (8, 5, if up then plvRoom x.cr else 0), (16, 6, c), (24, 5, (hatsHeld x.rx).length - c)]
  else if o = 0x0D4 then 8192 - cupUsed x.rx
  else if o = 0x0E0 then fieldsOf [(0, 2, x.rt.rstate.code), (2, 6, x.rt.rsite)]
  else if o = 0x100 then
    fieldsOf [(0, 1, bit s.banks.abank), (1, 1, bit s.banks.pend.isSome), (2, 1, bit x.sc.sched), (3, 1, bit (dmTime p s)),
      (4, 1, bit (dmPhase p s)), (5, 1, bit (dmCfg p s)), (6, 1, bit (dmLink p s))]
  else if o = 0x104 then fieldsOf [(0, 12, x.sc.d), (12, 1, bit x.sc.dValid), (13, 3, x.sc.dWidth)]
  else if o = 0x10C then (entryOf (.cal p) true (getF s (prtCalIdx p) 0 8) s).toNat
  else if o = 0x128 then
    let w := sentPwr p s
    fieldsOf [(0, 2, x.pw.state.code), (2, 2, pwrProp w), (4, 2, pwrAgree w), (6, 1, bit (pwrValid w)), (7, 2, x.pw.peerCur),
      (9, 2, x.pw.peerProp), (11, 1, bit x.pw.wake.isSome)]
  else if o = 0x180 then
    fieldsOf [(5, 1, bit (match (s.quad q).attached with | some (k, _) => k % 16 == p % 16 | none => false))]
  else if o = 0x300 then
    fieldsOf [(0, 5, (maskOf (inRole p .active s)).toNat), (5, 5, (maskOf (inRole p .spare s)).toNat), (10, 5, (maskOf (inRole p .failed s)).toNat),
      (15, 5, (maskOf (inRole p .cal s)).toNat), (20, 3, if x.ln.lstate = .up then x.ln.width else 0),
      (23, 4, match x.ln.training with | some t => t.phase.code | none => 0)]
  else 0

/-- Striping position of channel `i` among a port's active lanes (R97). -/
def stripePos (p i : Nat) (s : State) : Nat := ((inRole p .active s).filter (fun k => decide (k < i))).length

/-- The registers of lane `l` that show its state (R125). -/
def showLn (l o : Nat) (s : State) : Nat :=
  let x := s.lane l
  if o = 0x04 then
    fieldsOf [(0, 3, x.role.code), (3, 2, if x.role = .active then stripePos (portOf l) (chanOf l) s else 0), (5, 1, bit x.rlock), (6, 1, bit x.cdr),
      (7, 1, bit x.los), (8, 1, bit x.due.isSome), (9, 1, bit x.fallback), (16, 16, ofInt 16 x.tempDcal)]
  else if o = 0x18 then half 0 x.gcts
  else if o = 0x20 then half 0 x.dcts
  else if o = 0x28 then fieldsOf [(0, 16, x.heater.getD 0), (16, 12, x.rbias)]
  else 0

/-! ### DMA -/

/-- Source bytes read: those before the first read outstanding (R349). -/
def Chan.readDone (x : Chan) : Nat :=
  x.base + (x.waits.filterMap (fun w => match w.job with | .read p _ => some p | _ => none)).foldl min x.rpos

/-- Source bytes whose writes are answered. -/
def Chan.writeDone (x : Chan) : Nat := x.base + (match x.piece with | some k => x.answeredSrc k | none => 0)

/-- The channel waits for an edge (R339). -/
def paceWait (c : Nat) (s : State) : Bool :=
  let x := s.chan c
  match x.piece with
  | some k => hPaced x.cur && x.moving && decide (x.st = .run ∨ x.st = .stopping) && decide (x.allow ≤ x.base + x.rpos) &&
      decide (x.allow < x.base + k.len) && x.credit == 0 && edges c s == 0
  | none => false

/-- Channels in a state. -/
def chansWhere (f : ChanSt → Bool) (s : State) : Nat := (s.dma.filter (fun e => f e.2.st)).length

/-- DMA_DRESS, DMA_STS, DMA_ENG_OUT (R348). -/
def showDma (o : Nat) (s : State) : Nat :=
  if o = 0x008 then fieldsOf [(16, 11, (4194304 - effF s dmaDress 0 6 * 65536 - dresserUsed s) / 4096)]
  else if o = 0x00C then
    fieldsOf [(0, 8, chansWhere (fun t => decide (t ≠ .idle ∧ t ≠ .stopped)) s), (8, 8, chansWhere (fun t => decide (t = .halted)) s)]
  else if 0x010 ≤ o ∧ o < 0x050 then fieldsOf [(0, 10, engOut ((o - 0x010) / 4) s)]
  else 0

/-- The registers of channel `c` that show its state (R349). -/
def showChan (c o : Nat) (s : State) : Nat :=
  let x := s.chan c
  let f := x.fail.getD { code := 0, dir := 0, addr := 0 }
  if o = 0x08 then
    fieldsOf [(0, 3, x.st.code), (3, 1, bit x.shadow), (4, 1, bit (paceWait c s)), (5, 1, bit x.stalled), (6, 1, bit x.ovl), (7, 1, bit x.stopPend)]
  else if o = 0x0C then fieldsOf [(16, 16, x.stall)]
  else if o = 0x1C then x.readDone
  else if o = 0x20 then x.writeDone
  else if o = 0x28 then half 0 f.addr
  else if o = 0x2C then fieldsOf [(0, 16, f.addr / 2 ^ 32), (16, 2, f.dir), (18, 1, bit f.fab), (20, 8, f.code), (28, 4, f.resp)]
  else if o = 0x30 then fieldsOf [(0, 18, f.die), (18, 11, f.hop)]
  else if o = 0x34 then f.pos
  else if 0x80 ≤ o ∧ o < 0xC0 then wordAt x.cur ((o - 0x80) / 4)
  else 0

/-! ### WB, COL, ATM, TST -/

/-- Chunks whose segments here are all taken up and settled; MERGED of SEQRING. ALLGATHER and ALLTOALL have no chunks with
roles: what they show is open (R319). -/
def chunksDone (x : Stream) (s : State) : Nat :=
  if x.d.kind = 4 then x.merged
  else if x.d.kind = 2 ∨ x.d.kind = 3 then Config.freeValue s.free
  else
    let total := x.d.chunks x.d.nelem
    let open_ := (x.live.map (·.1)).eraseDups
    let begun := if x.d.positions x.d.nelem ≤ x.cursor then total else (x.d.pos x.cursor).1
    begun - (open_.filter (fun c => decide (c < begun))).length

/-- The registers of the Workbench units, and those of the collective stream and entries selected (R297, R319). -/
def showWb (o : Nat) (s : State) : Nat :=
  let x := s.stream (getF s colIdx 0 10)
  let g := getF s colGrpIdx 0 8
  let m := getF s colMemIdx 0 14
  if o = 0x004 then fieldsOf [(8, 8, (List.range 8).foldl (fun v u => v + bit (!(s.wbUnit u).segs.isEmpty) * 2 ^ u) 0)]
  else if 0x040 ≤ o ∧ o < 0x140 ∧ o % 0x20 = 0 then
    let u := s.wbUnit ((o - 0x040) / 0x20)
    fieldsOf [(0, 16, u.segs.length), (16, 7, wbHeld u)]
  else if o = 0x414 then fieldsOf [(0, 3, x.st.code), (4, 4, x.code), (8, 13, x.index)]
  else if o = 0x418 then x.d.cid
  else if o = 0x41C then fieldsOf [(0, 19, chunksDone x s), (19, 4, x.restarts)]
  else if o = 0x420 then (match x.stall with | some (d, i) => fieldsOf [(0, 18, d), (18, 13, i), (31, 1, 1)] | none => 0)
  else if o = 0x424 then
    fieldsOf [(0, 11, (s.col.filter (fun e => decide (e.2.st = .fetch ∨ e.2.st = .wait ∨ e.2.st = .run))).length), (11, 13, (colReserved s + 1023) / 1024)]
  else if o = 0x434 then (entryOf .grp false g s).toNat
  else if o = 0x438 then (entryOf .grp true g s).toNat
  else if o = 0x440 then (entryOf .mem false m s).toNat
  else if o = 0x444 then (entryOf .mem true m s).toNat
  else 0

/-- The registers of the atomic unit that show its state (R241). -/
def showAtm (o : Nat) (s : State) : Nat :=
  if o = 0x004 then fieldsOf [(0, 16, s.tx.chest.length)]
  else if 0x020 ≤ o ∧ o < 0x030 then fieldsOf [(0, 7, (s.alane ((o - 0x020) / 4)).words.length)]
  else if 0x040 ≤ o ∧ o < 0x080 then fieldsOf [(0, 10, rreOut ((o - 0x040) / 4) s)]
  else if o = 0x080 then
    fieldsOf [(0, 8, (List.range 8).foldl (fun v t => v + bit (s.thread t).parked * 2 ^ t) 0), (8, 1, bit (eightThreads s))]
  else 0

/-- The soft record selected (R465). -/
def showTst (o : Nat) (s : State) : Nat :=
  if 0x024 ≤ o ∧ o < 0x034 then ((s.tst.soft[getF s tstSrepIdx 0 7]?).getD 0).toNat / 2 ^ (32 * ((o - 0x024) / 4)) % 2 ^ 32 else 0

/-! ### The whole address space (R479) -/

/-- What the state of the units adds to the stored fields of the register at `a`. -/
def shown (a : Nat) (s : State) : Nat :=
  if a < 0x01000 then showGlb a s
  else if a < 0x02000 then showTb (a - 0x01000) s
  else if a < 0x03000 then showMgt (a - 0x02000) s
  else if a < 0x03400 then showPro (a - 0x03000) s
  else if a < 0x03C00 then showWin ((a - 0x03400) / 0x20) ((a - 0x03400) % 0x20 / 4) s
  else if a < 0x05000 then showCal (a - 0x04000) s
  else if a < 0x0C000 then showQd ((a - 0x08000) / 0x1000) ((a - 0x08000) % 0x1000) s
  else if a < 0x20000 then showPrt ((a - 0x10000) / 0x400) ((a - 0x10000) % 0x400) s
  else if a < 0x2A000 then showLn ((a - 0x20000) / 0x80) ((a - 0x20000) % 0x80) s
  else if a < 0x31000 then showDma (a - 0x30000) s
  else if a < 0x39000 then showChan ((a - 0x31000) / 0x100) ((a - 0x31000) % 0x100) s
  else if a < 0x41000 then showWb (a - 0x40000) s
  else if a < 0x49000 then showAtm (a - 0x48000) s
  else if a < 0x51000 then showTst (a - 0x50000) s
  else if 0x60000 ≤ a ∧ a < 0x70000 then (entryOf (.cal ((a - 0x60000) / 0x400)) false ((a - 0x60000) % 0x400 / 4) s).toNat
  else 0

/-- A read of a register of the event block at base `b` (R9). -/
def readEvt (b o : Nat) (s : State) : Word :=
  let k := getEvt s b
  if o = 0x00 ∨ o = 0x0C then k.raw
  else if o = 0x04 then k.en
  else if o = 0x08 then k.pend
  else if 0x20 ≤ o ∧ o < 0x40 then BitVec.ofNat 32 (k.cnt.toNat / 2 ^ (32 * ((o - 0x20) / 4)))
  else 0

/-- What a read of byte address `a` returns (R8, R481). -/
def readReg (a : Nat) (s : State) : Word :=
  match evtAt a with
  | some b => readEvt b (a - b) s
  | none => if (regFields a).isSome then getReg s a ||| BitVec.ofNat 32 (shown a s) else 0

/-- A read that latches: TB_CTS_LO and the lanes' CTS registers leave the high half in the partner register (R67, R125). -/
def latchRead (a : Nat) (s : State) : State :=
  if a = tbCtsLo then setF tbCtsHi 0 32 (s.cts / 2 ^ 32) s
  else if 0x20000 ≤ a ∧ a < 0x2A000 then
    let l := (a - 0x20000) / 0x80
    if a = lnGcalCtsLo l then setF (lnGcalCtsHi l) 0 32 ((s.lane l).gcts / 2 ^ 32) s
    else if a = lnDcalCtsLo l then setF (lnDcalCtsHi l) 0 32 ((s.lane l).dcts / 2 ^ 32) s
    else s
  else s

end Sys2Proof.Machine
end

