-- ==== Sys2Proof/Machine/Plv.lean ====
section
/-!
DEFINITION. Plovirko packets: their paths, fragments and reassembly, the checks of a request, and replies (R409, R426 to R436).
-/
namespace Sys2Proof.Machine
open Host

def updPlv (f : Plovirko → Plovirko) (s : State) : State := { s with plv := f s.plv }

/-! ### The header (R426) -/

/-- Bits `lo + w - 1` down to `lo` of a packet's header. -/
def plvF (r : List Nat) (lo w : Nat) : Nat := leNum (r.take 32) / 2 ^ lo % 2 ^ w

def plvTag (r : List Nat) : Bool := plvF r 8 1 == 1
def plvOpc (r : List Nat) : Nat := plvF r 16 16
def plvLen (r : List Nat) : Nat := plvF r 48 16
def plvUnit (r : List Nat) : Nat := plvF r 64 16
def plvNonce (r : List Nat) : Nat := plvF r 128 64
/-- The payload. -/
def plvPay (r : List Nat) : List Nat := (r.drop 32).take (plvLen r)
/-- The bytes of the packet. -/
def plvSize (r : List Nat) : Nat := 32 + plvLen r + (if plvTag r then 16 else 0)
/-- A number of `n` bytes in a payload. -/
def payNum (p : List Nat) (off n : Nat) : Nat := leNum ((p.drop off).take n)

/-- Who may leave out the tag (R430). -/
inductive TagRule where
  | none | remote | always
  deriving DecidableEq, Repr

/-- The units an opcode accepts. -/
inductive PlvUnits where
  | none | port | lane | engine | wbDma | tested
  deriving DecidableEq, Repr

/-- The payload an opcode expects: so many bytes, or 8 and 4 for each of the count that stands in two bytes at an offset. -/
inductive PlvLen where
  | fixed (n : Nat)
  | counted (off : Nat)
  deriving DecidableEq, Repr

/-- A row of the opcode table (R430). -/
structure OpRow where
  opc : Nat
  units : PlvUnits := .none
  len : PlvLen := .fixed 0
  legal : List Nat
  tag : TagRule
  deriving DecidableEq, Repr

/-- The opcode table. -/
def opRows : List OpRow := [
  { opc := 0x0100, legal := [1, 2, 3, 4, 5, 6, 8], tag := .none },
  { opc := 0x0101, legal := [1, 2, 3, 4, 5, 6, 8], tag := .none },
  { opc := 0x0102, len := .fixed 4, legal := [1, 3, 4, 5, 6], tag := .remote },
  { opc := 0x0103, len := .fixed 4, legal := [1], tag := .remote },
  { opc := 0x0104, len := .fixed 8, legal := [1], tag := .remote },
  { opc := 0x0200, units := .port, legal := [2, 3, 4, 5, 6, 8], tag := .none },
  { opc := 0x0201, units := .port, len := .fixed 4, legal := [3, 4, 5], tag := .remote },
  { opc := 0x0202, units := .port, len := .fixed 4, legal := [3, 4, 5], tag := .remote },
  { opc := 0x0203, units := .port, legal := [3, 4, 5], tag := .remote },
  { opc := 0x0204, units := .port, legal := [3, 4, 5], tag := .remote },
  { opc := 0x0205, units := .lane, legal := [2, 3, 4, 5, 6, 8], tag := .none },
  { opc := 0x0206, units := .lane, legal := [3, 4, 5, 6], tag := .remote },
  { opc := 0x0207, units := .engine, len := .fixed 4, legal := [3, 4, 5, 6], tag := .remote },
  { opc := 0x0208, units := .wbDma, len := .fixed 4, legal := [3, 4, 5, 6], tag := .remote },
  { opc := 0x0300, units := .port, len := .counted 2, legal := [1, 2, 3, 4, 5, 6], tag := .remote },
  { opc := 0x0301, units := .port, len := .fixed 8, legal := [1, 2, 3, 4, 5, 6, 8], tag := .none },
  { opc := 0x0302, len := .counted 2, legal := [1, 2, 3, 4, 5, 6], tag := .remote },
  { opc := 0x0303, len := .fixed 8, legal := [1, 2, 3, 4, 5, 6, 8], tag := .none },
  { opc := 0x0304, len := .counted 2, legal := [1, 2, 3, 4, 5, 6], tag := .remote },
  { opc := 0x0305, len := .fixed 8, legal := [1, 2, 3, 4, 5, 6, 8], tag := .none },
  { opc := 0x0306, len := .counted 2, legal := [1, 2, 3, 4, 5, 6], tag := .remote },
  { opc := 0x0307, len := .fixed 8, legal := [1, 2, 3, 4, 5, 6, 8], tag := .none }] ++ [
  { opc := 0x0400, len := .counted 2, legal := [1, 2, 3, 4, 5, 6], tag := .always },
  { opc := 0x0401, len := .fixed 16, legal := [1, 2, 3, 4, 5, 6], tag := .always },
  { opc := 0x0402, len := .fixed 16, legal := [1, 2, 3, 4, 5, 6], tag := .always },
  { opc := 0x0403, legal := [1, 2, 3, 4, 5, 6], tag := .always },
  { opc := 0x0404, legal := [1, 2, 3, 4, 5, 6, 8], tag := .always },
  { opc := 0x0500, units := .tested, len := .fixed 4, legal := [3, 4, 5, 6], tag := .remote },
  { opc := 0x0501, legal := [1, 2, 3, 4, 5, 6, 8], tag := .none },
  { opc := 0x0502, legal := [3, 4, 5, 6], tag := .remote },
  { opc := 0x0503, len := .fixed 16, legal := [1, 2, 3, 4, 5, 6], tag := .remote },
  { opc := 0x0504, len := .fixed 16, legal := [3, 6], tag := .remote },
  { opc := 0x0505, len := .fixed 8, legal := [1, 2, 3, 4, 5, 6, 8], tag := .none },
  { opc := 0x0600, units := .lane, legal := [3, 4, 5], tag := .remote },
  { opc := 0x0601, len := .fixed 8, legal := [1, 2, 3, 4, 5], tag := .remote },
  { opc := 0x0602, units := .lane, legal := [2, 3, 4, 5, 6, 8], tag := .none },
  { opc := 0x0700, len := .fixed 4, legal := [1, 2, 3, 4, 5, 6, 8], tag := .none },
  { opc := 0x0701, len := .fixed 4, legal := [1, 2, 3, 4, 5, 6], tag := .remote },
  { opc := 0x0702, len := .fixed 8, legal := [1, 2, 3, 4, 5, 6, 8], tag := .remote },
  { opc := 0x0703, len := .counted 4, legal := [1, 2, 3, 4, 5, 6], tag := .remote },
  { opc := 0x0800, legal := [1, 2, 3, 4, 5, 6, 8], tag := .none },
  { opc := 0x0801, len := .fixed 24, legal := [3, 4, 5, 6], tag := .remote },
  { opc := 0x0802, legal := [3, 4, 5, 6], tag := .remote },
  { opc := 0x0803, len := .fixed 4, legal := [1, 2, 3, 4, 5, 6], tag := .remote }]

/-- The row of an opcode. -/
def opRow (opc : Nat) : Option OpRow := opRows.find? (fun r => r.opc == opc)

/-- A unit number is one the opcode accepts (R88, R430, R449, R450). -/
def unitOk (k : PlvUnits) (u : Nat) : Bool :=
  match k with
  | .none => u == 0
  | .port => decide (0x0200 ≤ u ∧ u < 0x0240)
  | .lane => decide (u < 320)
  | .engine => decide (0x0300 ≤ u ∧ u < 0x0380 ∧ u % 0x20 ≤ 16)
  | .wbDma => decide ((0x0400 ≤ u ∧ u < 0x0408) ∨ (0x0580 ≤ u ∧ u < 0x0590))
  | .tested => decide ((0x0200 ≤ u ∧ u < 0x0240) ∨ (0x0280 ≤ u ∧ u < 0x0284) ∨ (0x0300 ≤ u ∧ u < 0x0380 ∧ u % 0x20 ≤ 16) ∨
      (0x0400 ≤ u ∧ u < 0x0408) ∨ (0x0580 ≤ u ∧ u < 0x0590) ∨ u = 0x0700 ∨ u = 0x0800 ∨ u = 0x0880 ∨ u = 0x0900)

/-- Check 1 of R427 fails: version, REPLY, opcode, or a zero bit of the header. -/
def unknownOpcode (r : List Nat) : Bool :=
  plvF r 0 8 != 1 || plvF r 9 1 == 1 || (opRow (plvOpc r)).isNone || plvF r 10 6 != 0 || plvF r 80 48 != 0 || plvF r 192 64 != 0

/-- Check 2 of R427. -/
def lengthOk (k : PlvLen) (r : List Nat) : Bool :=
  let l := plvLen r
  l % 4 == 0 && decide (l ≤ 480) && decide (plvSize r ≤ r.length) &&
    (match k with
     | .fixed n => l == n
     | .counted off => decide (8 ≤ l) && l == 8 + 4 * payNum (plvPay r) off 2)

/-- The tag of a packet is right under the key in force. -/
def tagRight (r : List Nat) (s : State) : Bool :=
  match s.prot.key with
  | some k => (hmacSha256 k (r.take (32 + plvLen r))).take 16 == (r.drop (32 + plvLen r)).take 16
  | none => false

/-- PRO_FM_NONCE. -/
def fmNonce (s : State) : Nat := getF s (proFmNonce 0) 0 32 + 2 ^ 32 * getF s (proFmNonce 1) 0 32
def setFmNonce (n : Nat) (s : State) : State := setF (proFmNonce 0) 0 32 n (setF (proFmNonce 1) 0 32 (n / 2 ^ 32) s)

/-! ### Replies (R426, R432, R433, R436) -/

/-- A reply's header: OPC, SEQ, UNIT and NONCE as in the request. -/
def replyHdr (r : List Nat) (status len : Nat) (s : State) : List Nat :=
  leBytes 32 (pack [(0, 8, 1), (8, 1, bit (plvTag r)), (9, 1, 1), (16, 16, plvOpc r), (32, 16, plvF r 32 16), (48, 16, len), (64, 16, plvUnit r),
    (80, 16, status), (96, 8, s.bnd.adp.code), (128, 64, plvNonce r)])

/-- The reply to a request, with a tag where the request carried one; what the tag is where there is no key is open. -/
def buildReply (r : List Nat) (status : Nat) (pay : List Nat) (s : State) : List Nat × State :=
  let b := replyHdr r status pay.length s ++ pay
  if !plvTag r then (b, s)
  else match s.prot.key with
    | some k => (b ++ (hmacSha256 k b).take 16, s)
    | none => let (f, t) := freeBytes 16 s; (b ++ nats f, t)

/-- Fragment `i` of a packet (R434). -/
def fragment (bs : List Nat) (src dst pktid i : Nat) : Slot :=
  let n := (bs.length + 7) / 8
  slotOf [(0, 8, 0x40), (8, 7, i), (15, 1, bit (i + 1 == n)), (16, 8, pktid), (24, 18, dst), (42, 18, src), (64, 64, leNum ((bs.drop (8 * i)).take 8))]

/-- The stamps of the fragments that wait in port `p`'s queue, in its order: the last of those that came there. -/
def stamps (p : Nat) (s : State) : List (Nat × Slot × Nat) :=
  let mine := s.plv.sent.filter (fun e => e.1 == p)
  mine.drop (mine.length - (s.port p).tx.hatPlv.length)

/-- Fragments join the queue of port `p` (R175, R435). -/
def queueFragments (p : Nat) (fs : List Slot) (s : State) : State :=
  let kept := stamps p s ++ fs.map (fun f => (p, f, s.tick))
  updTx p (fun x => { x with hatPlv := x.hatPlv ++ fs }) (updPlv (fun x => { x with sent := x.sent.filter (fun e => e.1 != p) ++ kept }) s)

/-- A packet leaves for another die as fragments, on the route to it; without a route it is lost (R203, R434, R436). -/
def sendPacket (dst pktid : Nat) (bs : List Nat) (s : State) : State :=
  match route dst s with
  | .port p _ => queueFragments p ((List.range ((bs.length + 7) / 8)).map (fragment bs s.die dst pktid)) s
  | _ => s

/-- A reply reaches its requester: MGT_MBX_RSP, the test port, or fragments. -/
def deliver (r : PlvReq) (status : Nat) (bs : List Nat) (s : State) : State :=
  match r.path with
  | .tap => updPlv (fun x => { x with tapReq := none, tapRsp := bs }) s
  | .mailbox =>
    let words := (List.range ((bs.length + 3) / 4)).foldl (fun t k => putReg (mgtMbxRsp k) (BitVec.ofNat 32 (wordAt bs k)) t) s
    raise evMgt 0 (setF mgtMbxSts 0 2 3 (setF mgtMbxSts 16 16 status words))
  | .remote src pktid =>
    let k : PlvKept := { src := src, opc := plvOpc r.bytes, seq := plvF r.bytes 32 16, nonce := plvNonce r.bytes, reply := bs }
    sendPacket src pktid bs (updPlv (fun x => { x with kept := (k :: x.kept.filter (fun e => e.src != src)).take 16 }) s)

/-- Statuses that a check of R427 gives. -/
def rejectStatus (st : Nat) : Bool := [2, 3, 4, 5, 6, 0xB, 0xC].contains st

/-- A request is answered and counted (R443). -/
def answerPlv (r : PlvReq) (status : Nat) (pay : List Nat) (s : State) : State :=
  let (bs, t) := buildReply r.bytes status pay (bump (mgtPlvCnt 0) (if rejectStatus status then 16 else 0) 16 s)
  deliver r status bs t

/-! ### Taking up a request (R427, R429) -/

/-- The request in the mailbox. -/
def mailbox (s : State) : List Nat := (List.range 132).flatMap (fun k => leBytes 4 (getReg s (mgtMbxReq k)).toNat)

/-- The Lectern can take up a request: it runs, and none is under execution. -/
def lecternFree (s : State) : Bool := s.alive && !s.lect.dead && s.lect.restart.isNone && s.plv.armed.isNone

/-- The request it takes up next; in FAULT none from another die (R429, R430). -/
def nextReq (s : State) : Option PlvReq :=
  if !lecternFree s then none
  else match s.plv.tapReq with
    | some b => some ⟨.tap, b⟩
    | none =>
      if getF s mgtMbxSts 0 2 = 1 then some ⟨.mailbox, mailbox s⟩
      else if s.acts then s.plv.queue.head? else none

/-- The request leaves the place where it waited: the mailbox shows it EXECUTING. -/
def takeUp (r : PlvReq) (s : State) : State :=
  match r.path with
  | .tap => updPlv (fun x => { x with tapReq := none }) s
  | .mailbox => setF mgtMbxSts 0 2 2 s
  | .remote _ _ => updPlv (fun x => { x with queue := x.queue.drop 1 }) s

/-- A tag, or its absence, fails R409: AUTH_REJECT. -/
def authFailed (s : State) : State := raise evPro 5 (bump proCnt 0 16 s)

/-- Checks 2 to 5 of R427 and then the opcode's own work `f`, which gives a status, a payload and the state. -/
def checked (o : OpRow) (r : PlvReq) (f : List Nat → List Nat → State → Nat × List Nat × State) (s : State) : Nat × List Nat × State :=
  let b := r.bytes
  let remote := match r.path with | .remote _ _ => true | _ => false
  if !lengthOk o.len b then (stLength, [], s)
  else if plvTag b && !(tagRight b s && decide (fmNonce s < plvNonce b)) then (stAuth, [], authFailed s)
  else if !plvTag b && (o.tag == .always || (o.tag == .remote && remote)) then (stAuth, [], authFailed s)
  else
    let t := if plvTag b then setFmNonce (plvNonce b) s else s
    if !o.legal.contains t.bnd.adp.code then (stState, [], t)
    else if !unitOk o.units (plvUnit b) then (stRange, [], t)
    else f b (plvPay b) t

/-- The Lectern executes the request it takes up next where that has opcode `opc`. -/
def plvRun (opc : Nat) (f : List Nat → List Nat → State → Nat × List Nat × State) (s : State) : State :=
  match nextReq s, opRow opc with
  | some r, some o =>
    if unknownOpcode r.bytes ∨ plvOpc r.bytes ≠ opc then s
    else
      let (st, pay, t) := checked o r f (takeUp r s)
      answerPlv r st pay t
  | _, _ => s

/-- UNKNOWN_OPCODE_REQUEST (R427, check 1). -/
def execUnknownOpcodeRequest (s : State) : Outcome State Fault Refusal :=
  match nextReq s with
  | some r => if unknownOpcode r.bytes then .next (answerPlv r stUnknown [] (takeUp r s)) else .next s
  | none => .next s

/-! ### The test port (R433) -/

/-- The request the test port's data register holds: 528 bytes, zero beyond what was shifted in (R433). -/
def tapRequest (bytes : List Byte) : List Nat := nats ((bytes ++ List.replicate 528 0).take 528)

/-- PLV_REQ_UPDATE: the request is submitted, or discarded while one is unanswered. In FROZEN none reaches the adapter (R460). -/
def execPlvReqUpdate (bytes : List Byte) (s : State) : Outcome State Fault Refusal :=
  let open_ := s.plv.tapReq.isSome || (match s.plv.armed with | some r => r.path == .tap | none => false)
  if s.alive && !open_ then .next (updPlv (fun x => { x with tapReq := some (tapRequest bytes) }) s) else .next s

/-- PLV_RSP_CAPTURE: the last reply stands in the data register, zero beyond it. -/
def execPlvRspCapture (s : State) : Outcome State Fault Refusal := .next (setDr (leNum s.plv.tapRsp) s)

/-! ### Fragments (R435) -/

/-- A fragment or context is discarded: counted, with FRAG_DROP. -/
def fragDrop (s : State) : State := raise evMgt 5 (bump (mgtPlvCnt 1) 16 16 s)

/-- The context of a sender's packet. -/
def plvCtx (src pktid : Nat) (s : State) : Option PlvCtx := s.plv.ctxs.find? (fun c => c.src == src && c.pktid == pktid)
def dropCtx (src pktid : Nat) (s : State) : State := updPlv (fun x => { x with ctxs := x.ctxs.filter (fun c => !(c.src == src && c.pktid == pktid)) }) s

/-- A complete request: a kept reply is sent again, or the request joins the queue (R436). -/
def plvComplete (src pktid : Nat) (b : List Nat) (s : State) : State :=
  match s.plv.kept.find? (fun k => k.src == src && k.opc == plvOpc b && k.seq == plvF b 32 16 && k.nonce == plvNonce b) with
  | some k =>
    if !plvTag b || tagRight b s then
      sendPacket src pktid k.reply (bump (mgtPlvCnt 2) 0 16 (updPlv (fun x => { x with kept := k :: x.kept.filter (fun e => e.src != src) }) s))
    else updPlv (fun x => { x with queue := x.queue ++ [⟨.remote src pktid, b⟩] }) s
  | none => updPlv (fun x => { x with queue := x.queue ++ [⟨.remote src pktid, b⟩] }) s

/-- The BUSY reply where no context is free: from the fragment's 8 bytes, UNIT zero; its NONCE is open. -/
def busyReply (src pktid : Nat) (data : List Nat) (s : State) : State :=
  let (n, s1) := freeBytes 8 s
  let hdr := data ++ List.replicate 8 0 ++ nats n ++ List.replicate 8 0
  let (bs, s2) := buildReply hdr stBusy [] s1
  sendPacket src pktid bs s2

/-- A fragment for this die (R435). -/
def reassemble (x : Slot) (s : State) : State :=
  let i := sf x 8 7
  let src := sf x 42 18
  let id := sf x 16 8
  let data := leBytes 8 (sf x 64 64)
  let last := sf x 15 1 == 1
  let whole (b : List Nat) : Bool := (plvSize b + 7) / 8 == i + 1
  let put (c : PlvCtx) (t : State) : State :=
    if last != whole c.bytes then fragDrop (dropCtx src id t)
    else if last then plvComplete src id (c.bytes.take (plvSize c.bytes)) (dropCtx src id t)
    else updPlv (fun y => { y with ctxs := y.ctxs.filter (fun k => !(k.src == src && k.pktid == id)) ++ [c] }) t
  match plvCtx src id s with
  | some c =>
    if c.next = i then put { c with next := i + 1, bytes := c.bytes ++ data, tick := s.tick } s
    else fragDrop (fragDrop (dropCtx src id s))
  | none =>
    if i ≠ 0 then fragDrop s
    else if 8 ≤ s.plv.ctxs.length then busyReply src id data (fragDrop s)
    else put { src := src, pktid := id, next := 1, bytes := data, tick := s.tick } s

/-- A fragment that arrived on port `p`, consumed: forwarded, discarded, or reassembled. -/
def takeFragment (p : Nat) (x : Slot) (s : State) : State :=
  let dst := sf x 24 18
  if 2 ≤ sf x 60 2 ∨ 65 < sf x 8 7 then fragDrop s
  else if dst = s.die then reassemble x s
  else match forwardPort p { PktHdr.ofSlot 0 with src := sf x 42 18, dst := dst } s with
    | some k =>
      if portLost k s then fragDrop s
      else queueFragments k [x + BitVec.ofNat 128 (2 ^ 60)] (bump (mgtPlvCnt 1) 0 16 s)
    | none => fragDrop s

/-- FRAGMENT_RX (R435): the Lectern's front end consumes the first fragment in the port's Hatstand buffer; `bad` says
that its word is uncorrectable. -/
def execFragmentRx (p : PortId) (bad : Bool) (s : State) : Outcome State Fault Refusal :=
  if !s.acts ∨ s.lect.dead ∨ s.lect.restart.isSome then .next s
  else if bad then .next (hatUncorr p false s)
  else match (s.port p).rx.hat.find? isFragment with
    | some x =>
      .next (takeFragment p x (updPort p (fun q => { q with
        rx := { q.rx with hat := q.rx.hat.erase x }
        cr := { q.cr with hfreePlv := (q.cr.hfreePlv + 1) % 65536 } }) s))
    | none => .next s

/-- REASSEMBLY_TIMEOUT (R435): 256 ticks without a fragment. -/
def execReassemblyTimeout (src : BitVec 18) (pktid : BitVec 8) (s : State) : Outcome State Fault Refusal :=
  match plvCtx src.toNat pktid.toNat s with
  | some c => if s.acts && decide (c.tick + 256 ≤ s.tick) then .next (fragDrop (dropCtx src.toNat pktid.toNat s)) else .next s
  | none => .next s

/-- FRAGMENT_CREDIT_TIMEOUT (R435): the first fragment in the port's queue has waited 64 ticks for a credit. -/
def execFragmentCreditTimeout (p : PortId) (s : State) : Outcome State Fault Refusal :=
  match stamps p s with
  | (_, f, t) :: _ =>
    let mine := (s.port p).tx.hatPlv
    if s.acts && decide (t + 64 ≤ s.tick) && mine.head? == some f && plvRoom (s.port p).cr == 0 then
      .next (fragDrop (updTx p (fun x => { x with hatPlv := x.hatPlv.drop 1 }) s))
    else .next s
  | [] => .next s

end Sys2Proof.Machine
end

