-- ==== Sys2Proof/Machine/Registers.lean ====
section
/-!
DEFINITION. Software writes: the checks of R490, what each register's write does, the event blocks (R9 to R12), and the
management port's accesses (R38, R39, R485).
-/
namespace Sys2Proof.Machine
open Host

/-! ### Checks (R490) -/

/-- The registers R408 governs. -/
def governed (a : Nat) : Bool :=
  a == proLock || a == proCmd || (decide (proArgDig 0 ≤ a) && decide (a ≤ proArgNonce 1)) || a == proStgData ||
    (decide (proKeyStg 0 ≤ a) && decide (a ≤ proKeyStg 7)) || (decide (tstBurnRec 0 ≤ a) && decide (a ≤ tstBurnCmd))

/-- The register has a locked RWL field or an RW2 field (R5). -/
def lockedReg (fs : List Field) (s : State) : Bool := fs.any (fun f => f.acc == .rw2 || (f.acc == .rwl && s.bnd.rwlLocked))

/-- A field would leave its range (R7). -/
def fieldRange (fs : List Field) (v : Word) : Bool :=
  fs.any (fun f => match f.lim with | some (a, b) => decide (fld v f.lo f.w < a) || decide (b < fld v f.lo f.w) | none => false)

/-- The product that R213 and R235 keep at or below RETAIN. -/
def retryTicks (v : Word) : Nat := fld v 0 11 * (fld v 11 4 + 1)

/-- A restricted field of a channel's configuration would change while the channel is neither IDLE nor STOPPED (R335). -/
def chanRestricted (c o : Nat) (v : Word) (s : State) : Bool :=
  let st := (s.chan c).st
  let old := getReg s (dmaChBase c + o)
  let differ (lo w : Nat) : Bool := fld v lo w != fld old lo w
  decide (st ≠ .idle ∧ st ≠ .stopped) &&
    (if o = 0x00 then differ 0 1 || differ 3 14 else if o = 0x10 then differ 6 26 else if o = 0x14 then differ 0 16 else differ 0 9 || differ 16 16)

/-- Streams in FETCH, WAIT or RUN (COL_STS.OPEN). -/
def colOpen (s : State) : Nat := (s.col.filter (fun e => decide (e.2.st = .fetch ∨ e.2.st = .wait ∨ e.2.st = .run))).length

/-- What a register's own rule puts out of range, beyond its fields' ranges. -/
def specialRange (a : Nat) (v : Word) (s : State) : Bool :=
  if a = tbCfgStg then fld v 0 2 == 0 && fld v 8 6 == s.site
  else if a = glbTxCtl then decide (fld v 16 16 < retryTicks v) || decide (effF s atmCtl 0 16 < retryTicks v)
  else if a = atmCtl then decide (fld v 0 16 < retryTicks (tget regReset s.inForce glbTxCtl))
  else if a = dmaDress then fld v 0 6 != getF s dmaDress 0 6 && colOpen s != 0
  else if a = schFlowStg then !flowOk v
  else if a = colGrpStg then !grpOk v
  else if a = colCmd then fld v 10 2 == 3
  else if a = proCmd then 1 < fld v 0 1 + fld v 1 1 + fld v 2 1
  else if a = tstBurnCmd then fld v 0 2 == 3
  else if 0x60000 ≤ a ∧ a < 0x70000 then !calOk ((a - 0x60000) % 0x400 / 4) v
  else if 0x08000 ≤ a ∧ a < 0x0C000 ∧ a % 0x1000 < 0x180 ∧ a % 0x20 = 0x10 then
    fld v 18 1 == 1 && (getFence s (4 * ((a - 0x08000) / 0x1000) + (a % 0x1000 - 0x100) / 0x20)).busy
  else if 0x31000 ≤ a ∧ a < 0x39000 then
    let c := (a - 0x31000) / 0x100
    let o := (a - 0x31000) % 0x100
    if o = 0x00 ∨ o = 0x10 ∨ o = 0x14 then chanRestricted c o v s
    else if o = 0x18 then chanRestricted c o v s || decide (2 ^ fld v 0 5 ≤ fld v 16 16)
    else false
  else false

/-! ### Effects -/

/-- The stored fields after a write: RW and RWL take the value, W1C bits written 1 are cleared (R5). -/
def storeFields (fs : List Field) (old v : Word) : Word :=
  fs.foldl (fun w f =>
    match f.acc with
    | .rw => setFld w f.lo f.w (fld v f.lo f.w)
    | .rwl => setFld w f.lo f.w (fld v f.lo f.w)
    | .w1c => setFld w f.lo f.w (fld (w &&& ~~~v) f.lo f.w)
    | _ => w) old

/-- What hardware did to the register in the same cycle (R484). -/
def mergeBumps (a : Nat) (bs : List Bump) (v : Word) : Word :=
  bs.foldl (fun w b =>
    if b.addr ≠ a then w
    else match b.kind with
      | .sat => setFld w b.lo b.w (min (fld w b.lo b.w + b.n) (2 ^ b.w - 1))
      | .wrap => setFld w b.lo b.w (fld w b.lo b.w + b.n)
      | .peak => setFld w b.lo b.w (max (fld w b.lo b.w) (min b.n (2 ^ b.w - 1)))) v

/-- What a PEAK field of the register observes now (R241, R297, R348, R484). -/
def observed (a : Nat) (s : State) : List Bump :=
  if a = atmSts then [⟨.peak, a, 16, 16, s.tx.chest.length⟩]
  else if atmHot 0 ≤ a ∧ a < atmHot 4 then [⟨.peak, a, 8, 7, (s.alane ((a - atmHot 0) / 4)).words.length⟩]
  else if atmRre 0 ≤ a ∧ a < atmRre 16 then [⟨.peak, a, 10, 10, rreOut ((a - atmRre 0) / 4) s⟩]
  else if dmaEngOut 0 ≤ a ∧ a < dmaEngOut 16 then [⟨.peak, a, 16, 10, engOut ((a - dmaEngOut 0) / 4) s⟩]
  else if wbOcc 0 ≤ a ∧ a < wbOcc 8 ∧ (a - wbOcc 0) % 0x20 = 0 then [⟨.peak, a, 24, 7, wbHeld (s.wbUnit ((a - wbOcc 0) / 0x20))⟩]
  else []

/-- The fields are stored. -/
def store (a : Nat) (fs : List Field) (v : Word) (s : State) : State :=
  putReg a (mergeBumps a (s.bumps ++ observed a s) (storeFields fs (getReg s a) v)) s

/-- A write of a staging entry, ignored with STAGE_LOCKED while an activation is pending (R255). -/
def stageWrite (k : StgTab) (e : Nat) (v : Word) (s : State) : State :=
  if s.banks.pend.isSome then stageLocked s else stageEntry k e v s

/-- The mailbox holds a request the Lectern has not answered. -/
def mailboxBusy (s : State) : Bool := getF s mgtMbxSts 0 2 == 1 || getF s mgtMbxSts 0 2 == 2

/-- A write of GO to MGT_MBX_CMD (R432). -/
def mbxGo (s : State) : State := if mailboxBusy s then raise evMgt 1 s else setF mgtMbxSts 0 2 1 (setF mgtMbxSts 2 1 0 s)

/-- The fabric manager's PROT_ARM under execution is answered (R410, R413). -/
def answerArm (st : Nat) (s : State) : State :=
  match s.plv.armed with
  | some r => answerPlv r st [] (updPlv (fun x => { x with armed := none }) s)
  | none => s

/-- A change is discarded while its ARM is checked: the request that armed it is answered. With which status, the rules leave
open where the fabric manager sent it; the host's RESULT is that of the ABORT. -/
def cutArm (s0 s : State) : State :=
  if pstate s0 = 1 ∧ pstate s ≠ 1 ∧ s.plv.armed.isSome then
    let (n, t) := takeFree s
    answerArm (n % 13) t
  else s

/-- ABORT in PRO_CMD (R413, R414). -/
def cmdAbort (s : State) : State := cutArm s (agentRequest protAbort s)

/-- A write of PRO_LOCK that R408 admits; of both bits REL acts last. -/
def lockWrite (v : Word) (s : State) : State := if fld v 1 1 = 1 then setF proSts 5 1 0 s else if fld v 0 1 = 1 then setF proSts 5 1 1 s else s

/-- The command bits of PRO_CMD. -/
def proCommand (v : Word) (s : State) : State :=
  if fld v 0 1 = 1 then cmdArm s else if fld v 1 1 = 1 then cmdCommit s else if fld v 2 1 = 1 then cmdAbort s else s

/-- The command bits of a channel: one at most (R335). -/
def chanCommand (c : Nat) (v : Word) (s : State) : State :=
  match fld v 0 8 with
  | 0 => s
  | 1 => dmaStart c s
  | 2 => dmaLoad c s
  | 4 => dmaDoorbell c s
  | 8 => dmaStop c s
  | 16 => dmaResume c s
  | 32 => dmaSkip c s
  | 64 => dmaReset c s
  | 128 => countEdge c s
  | _ => outOfRange s

/-- The write names a command that a rule refuses in the present state as under R7 (R302, R335, R490). -/
def commandRefused (a : Nat) (v : Word) (s : State) : Bool :=
  if a = colCmd then fld v 10 1 == 1 && goRefused (fld v 0 10) s
  else if 0x31000 ≤ a ∧ a < 0x39000 ∧ a % 0x100 = 0x04 then chanRefuses (fld v 0 8) ((a - 0x31000) / 0x100) s
  else false

/-- What a write does beside storing fields, by the register. -/
def writeEffect (a : Nat) (fs : List Field) (v : Word) (s : State) : State :=
  let t := store a fs v s
  if a = glbDieid then noteDigest (activeDigest t) t
  else if a = fltCtl then (if fld v 1 1 = 1 then clearLog t else t)
  else if a = mgtMbxCmd then (if fld v 0 1 = 1 then mbxGo s else s)
  else if mgtMbxReq 0 ≤ a ∧ a ≤ mgtMbxReq 131 then (if mailboxBusy s then raise evMgt 1 s else t)
  else if a = proLock then lockWrite v s
  else if a = proCmd then proCommand v s
  else if a = proStgData then stageWord v s
  else if proKeyStg 0 ≤ a ∧ a ≤ proKeyStg 7 then stageKey ((a - proKeyStg 0) / 4) v s
  else if a = schFlowStg then stageWrite .flow (getF s schFlowIdx 0 12) v s
  else if a = colGrpStg then stageWrite .grp (getF s colGrpIdx 0 8) v s
  else if a = colMemStg then stageWrite .mem (getF s colMemIdx 0 14) v s
  else if 0x60000 ≤ a ∧ a < 0x70000 then stageWrite (.cal ((a - 0x60000) / 0x400)) ((a - 0x60000) % 0x400 / 4) v s
  else if a = colCmd then
    (if fld v 10 1 = 1 then colGo (fld v 0 10) s else if fld v 11 1 = 1 then failStream (fld v 0 10) 9 s else s)
  else if a = tstBurnCmd then (if fld v 0 1 = 1 then burnGo s else if fld v 1 1 = 1 then hostBurn burnCancel s else s)
  else if 0x08000 ≤ a ∧ a < 0x0C000 ∧ a % 0x1000 < 0x180 ∧ a % 0x20 = 0x10 then
    (if fld v 18 1 = 1 then startFence (4 * ((a - 0x08000) / 0x1000) + (a % 0x1000 - 0x100) / 0x20) (fld v 0 18) t else t)
  else if 0x10000 ≤ a ∧ a < 0x20000 then
    let p := (a - 0x10000) / 0x400
    if a = prtPwrCtl p then (if fld v 7 1 = 1 then forceWake p t else t)
    else if a = prtLctl p then
      let t1 := if fld v 3 1 = 1 then resetDue p 2 t else t
      if fld v 4 1 = 1 then coldDue p false t1 else t1
    else t
  else if 0x20000 ≤ a ∧ a < 0x2A000 then
    let l := (a - 0x20000) / 0x80
    if a = lnCtl l then
      let t1 := if fld v 0 1 = 1 then requestDcal l t else t
      if fld v 1 1 = 1 then clearLaneCounters l t1 else t1
    else t
  else if 0x31000 ≤ a ∧ a < 0x39000 ∧ a % 0x100 = 0x04 then chanCommand ((a - 0x31000) / 0x100) v s
  else t

/-! ### Event blocks (R9 to R12, R488) -/

/-- EVT_CLR: a bit hardware raises in the same cycle stays 1. -/
def evtClr (b : Nat) (v : Word) (s : State) : State :=
  { s with evts := tmod evt0 s.evts b (fun k => { k with raw := k.raw &&& (~~~v ||| k.hw) }) }

/-- EVT_SET: as if the events had occurred. -/
def evtSet (b : Nat) (v : Word) (s : State) : State :=
  { s with evts := tmod evt0 s.evts b (fun k =>
      (List.range (evtCount b)).foldl (fun k e => if evtDefined b e && v.getLsbD e then k.occur e else k) k) }

/-- EVT_EN. -/
def evtEn (b : Nat) (v : Word) (s : State) : State := { s with evts := tmod evt0 s.evts b (fun k => { k with en := v &&& evtMask b }) }

/-- EVT_CNT[k]: the counters take the written values, plus one for an event of the same cycle. -/
def evtCnt (b k : Nat) (v : Word) (s : State) : State :=
  { s with evts := tmod evt0 s.evts b (fun x =>
      (List.range 4).foldl (fun x j =>
        let e := 4 * k + j
        if evtDefined b e then x.setCount e (min 255 (fld v (8 * j) 8 + bit (x.hw.getLsbD e))) else x) x) }

/-- A write to a register of the event block at base `b`. -/
def writeEvt (b o : Nat) (v : Word) (s : State) : State :=
  if o = 0x04 then evtEn b v s
  else if o = 0x0C then evtClr b v s
  else if o = 0x10 then evtSet b v s
  else if 0x20 ≤ o ∧ o < 0x40 then evtCnt b ((o - 0x20) / 4) v s
  else s

/-! ### A write (R485, R490) -/

/-- What became of a write: as `rejected` where R5 or R7 reject it. -/
inductive Written where
  | done | rejected | barred
  deriving DecidableEq, Repr

/-- A write of the register at `a`, the checks of R490 in their order. Neither REG_WRITE nor TST_ACC is a MAGENT access (R486). -/
def writeReg (agent : Bool) (a : Nat) (v : Word) (s : State) : Written × State :=
  match evtAt a with
  | some b => (.done, writeEvt b (a - b) v s)
  | none =>
    match regFields a with
    | none => (.done, s)
    | some fs =>
      let admitted := agent && (lockHeld s || (a == proLock && fld v 0 1 == 1))
      if governed a && !admitted then (.barred, agentReject s)
      else if lockedReg fs s then (.rejected, raise evGlb 1 s)
      else if fieldRange fs v || specialRange a v s || commandRefused a v s then (.rejected, outOfRange s)
      else (.done, writeEffect a fs v s)

/-- The registers that can be written in FAULT (R485). -/
def faultWritable (a : Nat) : Bool := a == mgtMbxCmd || a == fltIdx || (decide (mgtMbxReq 0 ≤ a) && decide (a ≤ mgtMbxReq 131))

/-- A write in the present adapter state: in FAULT any other changes nothing (R485). -/
def softWrite (agent : Bool) (a : Nat) (v : Word) (s : State) : Written × State :=
  if s.acts || faultWritable a then writeReg agent a v s else (.barred, s)

/-! ### The management port (R38, R39) -/

/-- An address of the MGT block. -/
def inMgt (a : Nat) : Bool := decide (0x02000 ≤ a) && decide (a < 0x03000)
/-- An address of the PRO block (R479). -/
def inPro (a : Nat) : Bool := decide (0x03000 ≤ a ∧ a < 0x03400) || decide (0x03C00 ≤ a ∧ a < 0x04000)

/-- The access is carried out and finishes. -/
def finishWrite (agent : Bool) (a : Nat) (v : Word) (s : State) : State :=
  let (_, t) := softWrite agent a v (if agent && inPro a then touchLock true s else s)
  finishAccess (!(s.acts || faultWritable a)) t

/-- A write accepted at the management port; to the MGT block during a Lectern restart it waits (R443). -/
def portWrite (agent : Bool) (a : Nat) (v : Word) (s : State) : State :=
  if !s.mready then s
  else if s.acts && inMgt a && s.lect.restart.isSome then
    { s with bnd := { s.bnd with mready := false, access := some { write := true, agent := agent, addr := a, data := v, since := s.cts } } }
  else finishWrite agent a v s

/-- REGISTER_WRITE (R490): MADDR is a word address (R38). -/
def execRegisterWrite (agent : Bool) (addr : BitVec 17) (value : Word) (s : State) : Outcome State Fault Refusal :=
  .next (portWrite agent (4 * addr.toNat) value s)

/-- EVT_CLR_WRITE (R11). -/
def execEvtClrWrite (u : EvtUnit) (value : Word) (s : State) : Outcome State Fault Refusal := .next (portWrite false (evtBase u + 0x0C) value s)
/-- EVT_SET_WRITE (R10). -/
def execEvtSetWrite (u : EvtUnit) (value : Word) (s : State) : Outcome State Fault Refusal := .next (portWrite false (evtBase u + 0x10) value s)
/-- EVT_CNT_WRITE (R11). -/
def execEvtCntWrite (u : EvtUnit) (k : Fin 8) (value : Word) (s : State) : Outcome State Fault Refusal :=
  .next (portWrite false (evtBase u + 0x20 + 4 * k) value s)
/-- MBX_GO (R432): a write of GO. -/
def execMbxGo (s : State) : Outcome State Fault Refusal := .next (portWrite false mgtMbxCmd 1 s)

/-- MGT_TIMEOUT (R39): no answer within 1,024 cc of acceptance. -/
def execMgtTimeout (s : State) : Outcome State Fault Refusal :=
  match s.bnd.access with
  | some x =>
    if s.alive && decide (x.since + 1024 ≤ s.cts) then
      .next (raise evGlb 6 (finishAccess true { s with bnd := { s.bnd with access := none, mready := true, mrdata := 0 } }))
    else .next s
  | none => .next s

/-- LECTERN_RESTART_DONE (R384, R385, R238): the firmware runs again, in recovery; an access that waits is carried out. -/
def execLecternRestartDone (s : State) : Outcome State Fault Refusal :=
  if s.lect.restart.isSome && s.acts then
    let t := lecternRestarted s
    match t.bnd.access with
    | some x => .next (finishWrite x.agent x.addr x.data { t with bnd := { t.bnd with access := none, mready := true } })
    | none => .next t
  else .next s

/-- PRO_CMD_ABORT (R413). -/
def execProCmdAbort (agent : Bool) (s : State) : Outcome State Fault Refusal := agentWrite agent cmdAbort s

/-- ARM_CHECK_DONE (R410, R415): `bad` where the staging image holds an uncorrectable word. Whoever armed the change is answered. -/
def execArmCheckDone (bad : Bool) (s : State) : Outcome State Fault Refusal :=
  match s.prot.change with
  | some c =>
    if s.acts && pstate s == 1 then
      let (st, t) := armChecked bad c s
      .next (if c.fm then answerArm st t else setF proSts 8 4 st t)
    else .next s
  | none => .next s

/-- TAP_TST_ACC (R460, R482, R485, R486): the test port reads or writes a register of the TST block; bits [48:17] of the data
register hold the data. -/
def execTapTstAcc (off : BitVec 16) (write : Bool) (data : Word) (s : State) : Outcome State Fault Refusal :=
  let a := 0x50000 + off.toNat / 4 * 4
  let dr (d : Word) : Nat := off.toNat + 2 ^ 16 * bit write + 2 ^ 17 * d.toNat
  if !s.alive then .next (setDr 0 s)
  else if write then .next (setDr (dr data) (softWrite false a data s).2)
  else .next (setDr (dr (readReg a s)) s)

end Sys2Proof.Machine
end

