-- ==== Sys2Proof/Machine/Lectern.lean ====
section
/-!
DEFINITION. The Plovirko opcodes: what the Lectern does with a request it has taken up (R430, R431).
-/
namespace Sys2Proof.Machine
open Host

/-- What an opcode answers: a status, a payload, and the state. -/
abbrev Reply := Nat × List Nat × State

def ok (pay : List Nat) (s : State) : Reply := (stDone, pay, s)
def refuse (st : Nat) (s : State) : Reply := (st, [], s)

/-- Zero bytes of a payload that are not zero. -/
def notZero (p : List Nat) (off n : Nat) : Bool := payNum p off n != 0

/-- A repair decision, executed, makes a record (R431); while it is executed, which no rule gives more than its cycle, the Lectern runs
eight threads (R238). -/
def decided (opc unit : Nat) (act : FaultAct) (s : State) : State :=
  handOver unitLectern unit .management 0x0601 act opc { s with lect := { s.lect with decided := some s.cts } }

/-- A reply of a repair decision: the record where it was executed. -/
def repairReply (opc unit : Nat) (act : FaultAct) (st : Nat) (s : State) : Reply := (st, [], if rejectStatus st then s else decided opc unit act s)

/-- The words of registers, as bytes. -/
def regBytes (as : List Nat) (s : State) : List Nat := as.flatMap (fun a => leBytes 4 (readReg a s).toNat)

/-! ### Group 0x01 (R423, R430, R437) -/

/-- PATCH_DIG (R437). -/
def patchDigest (s : State) : Nat := crc64 ((List.range 64).flatMap (fun i => leBytes 16 (tget (fun _ => (0 : BitVec 128)) s.efuse.patches i).toNat))

def opIdent (_ _ : List Nat) (s : State) : Reply :=
  ok (regBytes [0x2010, 0x2014] s ++ leBytes 8 (patchDigest s) ++ regBytes [glbDieid, mgtPatch] s) s

/-- IDENT. -/
def execIdent (s : State) : Outcome State Fault Refusal := .next (plvRun 0x0100 opIdent s)

def opStateGet (_ _ : List Nat) (s : State) : Reply :=
  ok ([s.bnd.adp.code, s.bnd.prev.code, s.tb.state.code, 0, 0, 0, 0, 0] ++ leBytes 8 s.cts) s

/-- STATE_GET. -/
def execStateGet (s : State) : Outcome State Fault Refusal := .next (plvRun 0x0101 opStateGet s)

/-- The state of an encoding. -/
def AdpState.ofCode : Nat → Option AdpState
  | 0 => some .off | 1 => some .boot | 2 => some .train | 3 => some .ready | 4 => some .run
  | 5 => some .quiesce | 6 => some .test | 7 => some .frozen | 8 => some .fault | _ => none

/-- A state that STATE_SET can order from the present one (R423). -/
def reachable (a prev t : AdpState) : Bool :=
  match a, t with
  | .boot, .train => true
  | .ready, .run => true
  | .run, .quiesce => true
  | .quiesce, .run => true
  | .boot, .test => true
  | .ready, .test => true
  | .test, x => x == prev
  | _, _ => false

def opStateSet (_ p : List Nat) (s : State) : Reply :=
  match AdpState.ofCode (payNum p 0 1) with
  | none => refuse stRange s
  | some t =>
    if notZero p 1 3 then refuse stRange s
    else if t = s.bnd.adp then ok [] s
    else if !reachable s.bnd.adp s.bnd.prev t then refuse stState s
    else if s.bnd.adp = .test ∧ s.tst.run.isSome then refuse stBusy s
    else ok [] { s with bnd := { s.bnd with nextState := some t } }

/-- STATE_SET (R423): the change takes effect at cycle 0 of the next tick. -/
def execStateSet (s : State) : Outcome State Fault Refusal := .next (plvRun 0x0102 opStateSet s)

/-- A write of a register by the Lectern, refused where R5 or R7 reject it. -/
def lecternWrite (a : Nat) (v : Word) (s : State) : Nat × State :=
  match writeReg false a v s with
  | (.rejected, t) => (stRange, t)
  | (_, t) => (stDone, t)

def opDieidSet (_ p : List Nat) (s : State) : Reply :=
  let (st, t) := lecternWrite glbDieid (BitVec.ofNat 32 (payNum p 0 4)) s
  (st, [], t)

/-- DIEID_SET. -/
def execDieidSet (s : State) : Outcome State Fault Refusal := .next (plvRun 0x0103 opDieidSet s)

def opPortMaskSet (_ p : List Nat) (s : State) : Reply :=
  let (a, t) := lecternWrite (mgtPortMask 0) (BitVec.ofNat 32 (payNum p 0 4)) s
  if a ≠ stDone then (a, [], t)
  else
    let (b, u) := lecternWrite (mgtPortMask 1) (BitVec.ofNat 32 (payNum p 4 4)) t
    (b, [], u)

/-- PORT_MASK_SET. -/
def execPortMaskSet (s : State) : Outcome State Fault Refusal := .next (plvRun 0x0104 opPortMaskSet s)

/-! ### Group 0x02 -/

def opPortStatus (r _ : List Nat) (s : State) : Reply :=
  let p := plvUnit r - 0x0200
  ok (regBytes [prtLmap p, prtLinkSts p, prtRoute p, prtEng p, prtPwrSts p, prtLtrn p, prtSchedSts p] s) s

/-- PORT_STATUS. -/
def execPortStatus (s : State) : Outcome State Fault Refusal := .next (plvRun 0x0200 opPortStatus s)

/-- The port can be trained: it has a waveguide path and an engine. -/
def canTrain (p : Nat) (s : State) : Bool := !absent p s && engOf p s != 31

def opPortTrain (r pay : List Nat) (s : State) : Reply :=
  let p := plvUnit r - 0x0200
  let cold := payNum pay 0 1 == 1
  if 1 < payNum pay 0 1 ∨ notZero pay 1 3 then refuse stRange s
  else if !canTrain p s ∨ (!cold ∧ (s.port p).ln.lstate ≠ .up) then refuse stFail s
  else (stAccepted, [], if cold then coldDue p false s else resetDue p 3 s)

/-- PORT_TRAIN. -/
def execPortTrain (s : State) : Outcome State Fault Refusal := .next (plvRun 0x0201 opPortTrain s)

def opPortWidth (r pay : List Nat) (s : State) : Reply :=
  let p := plvUnit r - 0x0200
  let w := payNum pay 0 1
  if w < 1 ∨ 4 < w ∨ notZero pay 1 3 then refuse stRange s
  else
    let t := setF (prtLctl p) 0 3 w s
    repairReply 0x0202 (plvUnit r) .none stDone (if (s.port p).ln.lstate = .up then resetDue p 3 t else t)

/-- PORT_WIDTH. -/
def execPortWidth (s : State) : Outcome State Fault Refusal := .next (plvRun 0x0202 opPortWidth s)

def opPortLose (r _ : List Nat) (s : State) : Reply :=
  let p := plvUnit r - 0x0200
  if (s.port p).rt.lost ∨ absent p s then repairReply 0x0203 (plvUnit r) .none stFail s
  else repairReply 0x0203 (plvUnit r) .none stDone
    (updPort p (fun x => { x with rt := { x.rt with lossDue := some (x.rt.lossDue.getD .order), lossTick := if x.rt.lossDue.isSome then x.rt.lossTick else s.tick + 1 } }) s)

/-- PORT_LOSE (R205). -/
def execPortLose (s : State) : Outcome State Fault Refusal := .next (plvRun 0x0203 opPortLose s)

/-- A unit returns at cycle 0 of the next tick. -/
def returnNext (unit : Nat) (s : State) : State := { s with returning := s.returning.filter (fun e => e.1 != unit) ++ [(unit, s.tick + 1)] }

def opPortReturn (r _ : List Nat) (s : State) : Reply :=
  let x := s.port (plvUnit r - 0x0200)
  if x.ln.lstate ≠ .up ∨ x.rt.rstate = .direct then repairReply 0x0204 (plvUnit r) .returned stFail s
  else repairReply 0x0204 (plvUnit r) .returned stDone (returnNext (plvUnit r) s)

/-- PORT_RETURN (R209). -/
def execPortReturn (s : State) : Outcome State Fault Refusal := .next (plvRun 0x0204 opPortReturn s)

def opLaneStatus (r _ : List Nat) (s : State) : Reply :=
  let l := plvUnit r
  ok (regBytes [lnSts l, lnErrcnt l, lnPiloterr l, lnTune l, lnEye l] s) s

/-- LANE_STATUS. -/
def execLaneStatus (s : State) : Outcome State Fault Refusal := .next (plvRun 0x0205 opLaneStatus s)

def opLaneReturn (r _ : List Nat) (s : State) : Reply :=
  if (s.lane (plvUnit r)).role ≠ .failed then repairReply 0x0206 (plvUnit r) .returned stFail s
  else repairReply 0x0206 (plvUnit r) .returned stDone (returnNext (unitLane (plvUnit r)) s)

/-- LANE_RETURN (R100). -/
def execLaneReturn (s : State) : Outcome State Fault Refusal := .next (plvRun 0x0206 opLaneReturn s)

/-- A port engine, Workbench unit or DMA engine is in service. -/
def unitInService (u : Nat) (s : State) : Bool :=
  if isEngine u then engIn ((u - 0x0300) / 0x20) (u % 0x20) s
  else if u < 0x0500 then wbInSvc s (u - 0x0400)
  else engInSvc (u - 0x0580) s

/-- ENGINE_RETURN and UNIT_RETURN: a slice that returns the unit on PASS. -/
def opReturn (opc : Nat) (r pay : List Nat) (s : State) : Reply :=
  let b := payNum pay 0 2
  let u := plvUnit r
  if b < 1 ∨ 1024 < b ∨ notZero pay 2 2 then refuse stRange s
  else if testBusy s then refuse stBusy s
  else if unitInService u s ∨ s.tst.broken then repairReply opc u .returned stFail s
  else repairReply opc u .returned stAccepted (updTst (fun x => { x with request := some { why := .giveBack, unit := u, budget := b } }) s)

/-- ENGINE_RETURN (R381). -/
def execEngineReturn (s : State) : Outcome State Fault Refusal := .next (plvRun 0x0207 (opReturn 0x0207) s)
/-- UNIT_RETURN. -/
def execUnitReturn (s : State) : Outcome State Fault Refusal := .next (plvRun 0x0208 (opReturn 0x0208) s)

/-! ### Group 0x03: the staging banks (R431) -/

/-- The table an opcode of group 0x03 names. -/
def stgOf (k : Nat) (r : List Nat) : StgTab := match k with | 0 => .cal (plvUnit r - 0x0200) | 1 => .flow | 2 => .grp | _ => .mem

/-- The entry words of a payload from byte 8 on. -/
def payWords (p : List Nat) (n : Nat) : List Word := (List.range n).map (fun i => BitVec.ofNat 32 (payNum p (8 + 4 * i) 4))

/-- A span of entries: first, how many, within a table of so many. -/
def spanOk (first n most size : Nat) : Bool := decide (1 ≤ n) && decide (n ≤ most) && decide (first + n ≤ size)

def opStage (k : Nat) (r p : List Nat) (s : State) : Reply :=
  let t := stgOf k r
  let first := payNum p 0 2
  let n := payNum p 2 2
  let ws := payWords p n
  if !spanOk first n 112 t.size ∨ notZero p 4 4 ∨ !(ws.mapIdx (fun i w => t.ok (first + i) w)).all id then refuse stRange s
  else if s.banks.pend.isSome then (stLocked, [], stageLocked s)
  else ok [] ((ws.mapIdx (fun i w => (first + i, w))).foldl (fun u e => stageEntry t e.1 e.2 u) s)

def opTabRead (k : Nat) (r p : List Nat) (s : State) : Reply :=
  let t := stgOf k r
  let first := payNum p 0 2
  let n := payNum p 2 2
  if !spanOk first n 112 t.size ∨ 1 < payNum p 4 1 ∨ notZero p 5 3 then refuse stRange s
  else ok ((List.range n).flatMap (fun i => leBytes 4 (entryOf t (payNum p 4 1 == 1) (first + i) s).toNat)) s

/-- CAL_WRITE. -/
def execCalWrite (s : State) : Outcome State Fault Refusal := .next (plvRun 0x0300 (opStage 0) s)
/-- CAL_READ. -/
def execCalRead (s : State) : Outcome State Fault Refusal := .next (plvRun 0x0301 (opTabRead 0) s)
/-- FLOW_WRITE. -/
def execFlowWrite (s : State) : Outcome State Fault Refusal := .next (plvRun 0x0302 (opStage 1) s)
/-- FLOW_READ. -/
def execFlowRead (s : State) : Outcome State Fault Refusal := .next (plvRun 0x0303 (opTabRead 1) s)
/-- GROUP_WRITE. -/
def execGroupWrite (s : State) : Outcome State Fault Refusal := .next (plvRun 0x0304 (opStage 2) s)
/-- GROUP_READ. -/
def execGroupRead (s : State) : Outcome State Fault Refusal := .next (plvRun 0x0305 (opTabRead 2) s)
/-- MEMBER_WRITE. -/
def execMemberWrite (s : State) : Outcome State Fault Refusal := .next (plvRun 0x0306 (opStage 3) s)
/-- MEMBER_READ. -/
def execMemberRead (s : State) : Outcome State Fault Refusal := .next (plvRun 0x0307 (opTabRead 3) s)

/-! ### Group 0x04: protection (R409 to R413) -/

def opProtStage (_ p : List Nat) (s : State) : Reply :=
  let first := payNum p 0 2
  let n := payNum p 2 2
  if !spanOk first n 112 1100 ∨ notZero p 4 4 then refuse stRange s
  else if lockHeld s ∨ pstate s ≠ 0 then refuse stLocked s
  else ok [] (((payWords p n).mapIdx (fun i w => (first + i, w))).foldl (fun u e => stageImage e.1 e.2 u) s)

/-- PROT_STAGE. -/
def execProtStage (s : State) : Outcome State Fault Refusal := .next (plvRun 0x0400 opProtStage s)

def opProtArm (_ p : List Nat) (s : State) : Reply :=
  let (st, t) := protArm true (payNum p 0 8) (payNum p 8 8) s
  (st, [], t)

/-- A PROT_ARM that is accepted is answered when its check ends (R410). -/
def runArm (s : State) : State :=
  match nextReq s, opRow 0x0401 with
  | some r, some o =>
    if unknownOpcode r.bytes ∨ plvOpc r.bytes ≠ 0x0401 then s
    else
      let (st, pay, t) := checked o r opProtArm (takeUp r s)
      if st = stAccepted then updPlv (fun x => { x with armed := some r }) t else answerPlv r st pay t
  | _, _ => s

/-- PROT_ARM. -/
def execProtArm (s : State) : Outcome State Fault Refusal := .next (runArm s)

def opProtCommit (_ p : List Nat) (s : State) : Reply :=
  let (st, t) := protCommit true (payNum p 0 8) (payNum p 8 8) s
  (st, [], t)

/-- PROT_COMMIT. -/
def execProtCommit (s : State) : Outcome State Fault Refusal := .next (plvRun 0x0402 opProtCommit s)

/-- An ABORT by the fabric manager; of the agent's ARM whose check it cuts, RESULT is open. -/
def opProtAbort (_ _ : List Nat) (s : State) : Reply :=
  let (st, t) := protAbort s
  if pstate s = 1 ∧ pstate t ≠ 1 then
    let (n, u) := takeFree t
    (st, [], setF proSts 8 4 (n % 13) u)
  else (st, [], t)

/-- PROT_ABORT. -/
def execProtAbort (s : State) : Outcome State Fault Refusal := .next (plvRun 0x0403 opProtAbort s)

def opProtStatus (_ _ : List Nat) (s : State) : Reply :=
  ok (regBytes [proSts, proCurDig 0, proCurDig 1, proStgDig 0, proStgDig 1, proArmDig 0, proArmDig 1, proArmTick] s) s

/-- PROT_STATUS. -/
def execProtStatus (s : State) : Outcome State Fault Refusal := .next (plvRun 0x0404 opProtStatus s)

/-! ### Group 0x05: test and repair (R447 to R457) -/

/-- A unit that BIST_RUN can name for a logic slice, and for a memory slice (R449, R450). -/
def logicUnit (u : Nat) : Bool :=
  isEngine u || decide (0x0280 ≤ u ∧ u < 0x0284) || decide (0x0400 ≤ u ∧ u < 0x0408) || decide (0x0580 ≤ u ∧ u < 0x0590) || u == 0x0700 || u == 0x0880
def memoryUnit (u : Nat) : Bool := !(unitMacros u).isEmpty

/-- The states in which the object may be tested include the present one (R449). -/
def testState (mem : Bool) (u : Nat) (s : State) : Bool :=
  mem || s.bnd.adp == .test ||
    (isEngine u && (!unitInService u s || s.tst.rot.contains ((u - 0x0300) / 0x20, u % 0x20) || seng ((u - 0x0300) / 0x20) s == u % 0x20)) ||
    ((decide (0x0400 ≤ u ∧ u < 0x0408) || decide (0x0580 ≤ u ∧ u < 0x0590)) && !unitInService u s)

def opBistRun (r p : List Nat) (s : State) : Reply :=
  let b := payNum p 0 2
  let u := plvUnit r
  let mem := payNum p 2 1 == 1
  if 1 < payNum p 2 1 ∨ !(if mem then memoryUnit u else logicUnit u) then refuse stRange s
  else if !testState mem u s then refuse stState s
  else if b < 1 ∨ 1024 < b ∨ notZero p 3 1 then refuse stRange s
  else if testBusy s then refuse stBusy s
  else if s.tst.broken then refuse stFail s
  else (stAccepted, [], updTst (fun x => { x with
    request := some { why := .run, unit := u, mem := if mem then nextMacro u s else none, budget := b } }) s)

/-- BIST_RUN (R449). -/
def execBistRun (s : State) : Outcome State Fault Refusal := .next (plvRun 0x0500 opBistRun s)

def opBistStatus (_ _ : List Nat) (s : State) : Reply :=
  ok ([getF s tstSts 0 3, 0] ++ leBytes 2 (getF s tstSts 22 10) ++ leBytes 2 (getF s tstSts 8 14) ++ [0, 0]) s

/-- BIST_STATUS. -/
def execBistStatus (s : State) : Outcome State Fault Refusal := .next (plvRun 0x0501 opBistStatus s)

def opBistAbort (_ _ : List Nat) (s : State) : Reply :=
  match s.tst.run with
  | some x => if x.stepsDone then refuse stNotArmed s else ok [] (cutSlice x 1 s)
  | none => refuse stNotArmed s

/-- BIST_ABORT (R446); it comes too late for a slice whose last step is complete (R459). -/
def execBistAbort (s : State) : Outcome State Fault Refusal := .next (plvRun 0x0502 opBistAbort s)

def opRepairSoft (r p : List Nat) (s : State) : Reply :=
  let (st, t) := softRepair (BitVec.ofNat 128 (payNum p 0 16)) s
  repairReply 0x0503 (plvUnit r) .none st t

/-- REPAIR_SOFT (R455). -/
def execRepairSoft (s : State) : Outcome State Fault Refusal := .next (plvRun 0x0503 opRepairSoft s)

/-- The fabric manager's part of a burn: only a tagged packet counts (R457). -/
def opRepairBurn (r p : List Nat) (s : State) : Reply :=
  let rec_ : BitVec 128 := BitVec.ofNat 128 (payNum p 0 16)
  let (st, t) := if !plvTag r then (stFail, s) else if rec_ = 0 then burnCancel s else burnPart true rec_ s
  repairReply 0x0504 (plvUnit r) .none st t

/-- REPAIR_BURN (R457). -/
def execRepairBurn (s : State) : Outcome State Fault Refusal := .next (plvRun 0x0504 opRepairBurn s)

/-- Record `i` of REPAIR_READ: the eFuse slots, then the soft-repair registers (R455, R456). -/
def repairRecord (i : Nat) (s : State) : BitVec 128 :=
  if i < 512 then tget (fun _ => (0 : BitVec 128)) s.efuse.slots i else (s.tst.soft[i - 512]?).getD 0

def opRepairRead (_ p : List Nat) (s : State) : Reply :=
  let first := payNum p 0 2
  let n := payNum p 2 2
  if !spanOk first n 29 640 ∨ notZero p 4 4 then refuse stRange s
  else ok ((List.range n).flatMap (fun i => leBytes 16 (repairRecord (first + i) s).toNat)) s

/-- REPAIR_READ. -/
def execRepairRead (s : State) : Outcome State Fault Refusal := .next (plvRun 0x0505 opRepairRead s)

/-! ### Groups 0x06 and 0x07 -/

def opDcalReq (r _ : List Nat) (s : State) : Reply := ok [] (requestDcal (plvUnit r) s)

/-- DCAL_REQ (R119). -/
def execDcalReq (s : State) : Outcome State Fault Refusal := .next (plvRun 0x0600 opDcalReq s)

def opCalCfgSet (_ p : List Nat) (s : State) : Reply :=
  let c : Word := BitVec.ofNat 32 (payNum p 0 4)
  let t : Word := BitVec.ofNat 32 (payNum p 4 4)
  match regFields calCfg, regFields calThr with
  | some fc, some ft => if fieldRange fc c ∨ fieldRange ft t then refuse stRange s else ok [] (store calThr ft t (store calCfg fc c s))
  | _, _ => refuse stRange s

/-- CAL_CFG_SET. -/
def execCalCfgSet (s : State) : Outcome State Fault Refusal := .next (plvRun 0x0601 opCalCfgSet s)

def opCalStatus (r _ : List Nat) (s : State) : Reply :=
  let l := plvUnit r
  ok (regBytes [lnGcalCnt l, lnDcalCnt l] s ++ leBytes 8 (s.lane l).gcts ++ leBytes 8 (s.lane l).dcts ++ regBytes [lnSts l] s) s

/-- CAL_STATUS. -/
def execCalStatus (s : State) : Outcome State Fault Refusal := .next (plvRun 0x0602 opCalStatus s)

/-- An entry of the log is found uncorrectable: it reads with POISON, and a record is made (R388). -/
def poisonEntry (i : Nat) (s : State) : State :=
  let t := { s with flt := { s.flt with poison := i :: s.flt.poison.filter (fun k => k != i) } }
  wantMacro 9 (i / 512) (handOver unitLectern unitLectern .adapter 0x0501 .poisoned (9 + i / 512 * 2 ^ 26 + 2 * (i % 512) * 2 ^ 16) t)

/-- LOG_READ, `bad` naming an entry that the read finds uncorrectable: where it is one of those asked for, the answer is FAIL. -/
def opLogRead (bad : Option Nat) (_ p : List Nat) (s : State) : Reply :=
  let first := payNum p 0 2
  let n := payNum p 2 1
  let ix := (List.range n).map (fun i => (first + i) % 1024)
  if 1023 < first ∨ n < 1 ∨ 14 < n ∨ notZero p 3 1 then refuse stRange s
  else match bad with
    | some i => if ix.contains i then refuse stFail (poisonEntry i s) else ok (regBytes [fltSts, fltRecno] s ++ ix.flatMap (fun k => logEntry k s)) s
    | none => ok (regBytes [fltSts, fltRecno] s ++ ix.flatMap (fun k => logEntry k s)) s

/-- LOG_READ. -/
def execLogRead (bad : Option (Fin 1024)) (s : State) : Outcome State Fault Refusal := .next (plvRun 0x0700 (opLogRead (bad.map (·.val))) s)

def opLogCtl (_ p : List Nat) (s : State) : Reply :=
  if 1 < payNum p 0 1 ∨ 1 < payNum p 1 1 ∨ notZero p 2 2 then refuse stRange s
  else
    let t := setF fltCtl 0 1 (payNum p 0 1) s
    ok [] (if payNum p 1 1 = 1 then clearLog t else t)

/-- LOG_CTL (R397). -/
def execLogCtl (s : State) : Outcome State Fault Refusal := .next (plvRun 0x0701 opLogCtl s)

/-- A span of register addresses: words of the 512 KiB space. -/
def addrOk (a n : Nat) (p : List Nat) : Bool := a % 4 == 0 && spanOk a n 112 0x80000 && decide (a + 4 * n ≤ 0x80000) && !notZero p 6 2

/-- Words read in order, each with the effect a host's read has (R431). -/
def readWords : Nat → Nat → State → List Nat × State
  | 0, _, s => ([], s)
  | n + 1, a, s =>
    if inMgt a then let (ws, t) := readWords n (a + 4) s; (leBytes 4 0 ++ ws, t)
    else let (ws, t) := readWords n (a + 4) (latchRead a s); (leBytes 4 (readReg a s).toNat ++ ws, t)

def opRegRead (_ p : List Nat) (s : State) : Reply :=
  let a := payNum p 0 4
  let n := payNum p 4 2
  if !addrOk a n p then refuse stRange s
  else
    let (ws, t) := readWords n a s
    ok ws t

/-- REG_READ. -/
def execRegRead (s : State) : Outcome State Fault Refusal := .next (plvRun 0x0702 opRegRead s)

/-- Words written in order up to the first that is rejected, whose index is answered (R431). -/
def writeWords : List Word → Nat → Nat → State → Reply
  | [], _, _, s => ok [] s
  | w :: ws, i, a, s =>
    match softWrite false a w s with
    | (.rejected, t) => (stRange, leBytes 2 i ++ [0, 0], t)
    | (_, t) => writeWords ws (i + 1) (a + 4) t

def opRegWrite (_ p : List Nat) (s : State) : Reply :=
  let a := payNum p 0 4
  let n := payNum p 4 2
  if !addrOk a n p ∨ (a < 0x3000 ∧ 0x2000 < a + 4 * n) then refuse stRange s
  else writeWords (payWords p n) 0 a s

/-- REG_WRITE. -/
def execRegWrite (s : State) : Outcome State Fault Refusal := .next (plvRun 0x0703 opRegWrite s)

/-! ### Group 0x08: epochs and time (R425, R440) -/

def opEpochStatus (_ _ : List Nat) (s : State) : Reply :=
  let a := s.banks.pend.getD ⟨0, 0, 0⟩
  ok (leBytes 4 (epochNow s) ++ leBytes 4 a.epoch ++ leBytes 8 (digestNow s) ++ leBytes 8 (stagedDigest s) ++ leBytes 8 a.tick ++
    leBytes 4 (portMask 0 (skewed s)) ++ leBytes 4 (portMask 32 (skewed s)) ++ [bit s.banks.pend.isSome, 0, 0, 0]) s

/-- EPOCH_STATUS. -/
def execEpochStatus (s : State) : Outcome State Fault Refusal := .next (plvRun 0x0800 opEpochStatus s)

/-- EPOCH_SET; `bad` where the digest finds an uncorrectable word in a staging bank (R442). -/
def opEpochSet (bad : Bool) (_ p : List Nat) (s : State) : Reply :=
  let ep := payNum p 0 4
  let e := payNum p 8 8
  let d := payNum p 16 8
  let diff := (ep + 2 ^ 32 - epochNow s) % 2 ^ 32
  let sd := leBytes 8 (stagedDigest s)
  if bad then refuse stFail (sramUncorr unitLectern unitTest .adapter 7 .poisoned s)
  else if notZero p 4 4 ∨ diff = 0 ∨ 2 ^ 31 ≤ diff ∨ stagedDigest s ≠ d ∨ e < s.tick + 2 ∨ 2 ^ 54 ≤ e then (stRange, sd, s)
  else if s.banks.pend.isSome ∨ pstate s ≠ 0 then refuse stBusy s
  else ok sd { s with banks := { s.banks with pend := some { tick := e, epoch := ep, digest := d } } }

/-- EPOCH_SET (R440). -/
def execEpochSet (bad : Bool) (s : State) : Outcome State Fault Refusal := .next (plvRun 0x0801 (opEpochSet bad) s)

def opEpochCancel (_ _ : List Nat) (s : State) : Reply :=
  match s.banks.pend with
  | none => refuse stNotArmed s
  | some a => if a.tick ≤ s.tick + 1 then refuse stFail s else ok [] { s with banks := { s.banks with pend := none } }

/-- EPOCH_CANCEL (R440). -/
def execEpochCancel (s : State) : Outcome State Fault Refusal := .next (plvRun 0x0802 opEpochCancel s)

def opTimeStage (_ p : List Nat) (s : State) : Reply :=
  let v : Word := BitVec.ofNat 32 (payNum p 0 4)
  match regFields tbCfgStg with
  | some fs => if fieldRange fs v || specialRange tbCfgStg v s then refuse stRange s else ok [] (store tbCfgStg fs v s)
  | none => refuse stRange s

/-- TIME_STAGE (R425). -/
def execTimeStage (s : State) : Outcome State Fault Refusal := .next (plvRun 0x0803 opTimeStage s)

end Sys2Proof.Machine
end

