-- ==== Sys2Proof/Machine/Bringup.lean ====
section
/-!
DEFINITION. Adapter states, bring-up and quiescing (R81, R422 to R424, R467 to R471).
-/
namespace Sys2Proof.Machine
open Host

def updBring (f : Bringup → Bringup) (s : State) : State := { s with bring := f s.bring }

/-- A port of MGT_PORT_MASK. -/
def masked (s : State) (p : Nat) : Bool := getF s (mgtPortMask (p / 32)) (p % 32) 1 == 1

/-- A cold training of port `p` begins in the present tick, if the port has an engine; else its training has ended. -/
def coldNow (p : Nat) (s : State) : State :=
  updLn p (fun x => if engOf p s = 31 then { x with ended := true, attempts := 0 }
    else { x with ended := false, attempts := 0, coldDue := some false, dueTick := s.tick }) s

/-- The ports of the mask, beside the upstream port, whose cold training is still to begin (R81, R470). -/
def otherPorts (s : State) : List Nat := (List.range 64).filter (fun p => masked s p && decide (s.upstream ≠ some p))

/-- They may begin: the adapter has no upstream, or CTS has been stepped (R81). -/
def othersMay (s : State) : Bool := s.upstream.isNone || s.tb.stepped || decide (s.tb.state ≠ .free ∧ s.tb.state ≠ .acquiring)

/-- In TRAIN the other ports begin once they may. -/
def beginOthers (s : State) : State :=
  if s.bnd.adp = .train ∧ !s.bring.others ∧ othersMay s then
    updBring (fun x => { x with others := true }) ((otherPorts s).foldl (fun t p => coldNow p t) s)
  else s

/-- Entry to TRAIN (R423): RWL fields lock, and cold training begins in the order of R81; a port
that repair records left without an engine is lost (R456). -/
def enterTrain (s : State) : State :=
  let s1 := updBring (fun x => { x with trainFrom := s.tick, trainSaid := false, others := false }) { s with bnd := { s.bnd with rwlLocked := true } }
  let s2 := (otherPorts s1).foldl (fun t p => updLn p (fun x => { x with ended := false, attempts := 0 }) t) s1
  let s3 := beginOthers (match s.upstream with | some u => if masked s u then coldNow u s2 else s2 | none => s2)
  ((List.range 64).filter (fun p => masked s p && engOf p s == 31 && !(s.port p).rt.lost)).foldl (fun t p => losePort p t) s3

/-- The adapter state changes at cycle 0 of a tick (R422). -/
def toState (t : AdpState) (s : State) : State :=
  let s1 := raise evMgt 2 { s with bnd := { s.bnd with adp := t, nextState := none, prev := if t = .test then s.bnd.adp else s.bnd.prev } }
  match t with
  | .train => enterTrain s1
  | .quiesce => updBring (fun x => { x with quietFrom := s.tick, quietSaid := false }) s1
  | _ => s1

/-- Every port of the mask has ended its cold training, and time is acquired (R423). -/
def trained (s : State) : Bool :=
  (List.range 64).all (fun p => !masked s p || (s.port p).ln.ended || engOf p s == 31) &&
    (s.upstream.isNone || decide (s.tb.state ≠ .free ∧ s.tb.state ≠ .acquiring))

/-- The adapter is drained (R423). -/
def drained (s : State) : Bool :=
  s.tx.spairs.all (fun e => match e.2 with | some k => k.reqs.isEmpty | none => true) &&
    s.dma.all (fun e => decide (e.2.st = .idle ∨ e.2.st = .stopped ∨ e.2.st = .halted)) &&
    s.col.all (fun e => decide (e.2.st = .idle ∨ e.2.st = .done ∨ e.2.st = .failed))

/-- All holds that TRAIN, or QUIESCE, is left on (R423). -/
def mayLeave (s : State) : Bool :=
  match s.bnd.adp with
  | .train => s.bring.others && trained s
  | .quiesce => drained s
  | _ => false

/-- Ports of the mask that are not UP become lost at entry to READY (R471). -/
def loseUntrained (s : State) : State :=
  (List.range 64).foldl (fun t p =>
    if masked t p && !(t.port p).rt.lost && decide ((t.port p).ln.lstate ≠ .up) then
      losePort p (updLn p (fun x => { x with coldDue := none }) t)
    else t) s

/-- TRAIN_TO_READY (R423, R471): at cycle 0 of the tick after the conditions hold. -/
def execTrainToReady (s : State) : Outcome State Fault Refusal :=
  if s.bnd.adp = .train ∧ s.cyc = 0 ∧ s.bring.leaves ∧ mayLeave s then .next (settle (loseUntrained (toState .ready s))) else .next s

/-- TRAIN_STALL (R424): once, 16,000 ticks after entry to TRAIN. -/
def execTrainStall (s : State) : Outcome State Fault Refusal :=
  if s.bnd.adp = .train ∧ s.bring.trainFrom + 16000 ≤ s.tick ∧ !s.bring.trainSaid then
    .next (raise evMgt 6 (updBring (fun x => { x with trainSaid := true }) s))
  else .next s

/-- QUIESCE_DRAINED (R423): at cycle 0 of the tick after the adapter is drained. -/
def execQuiesceDrained (s : State) : Outcome State Fault Refusal :=
  if s.bnd.adp = .quiesce ∧ s.cyc = 0 ∧ s.bring.leaves ∧ mayLeave s then .next (toState .ready s) else .next s

/-- QUIESCE_STALL (R424): once, RSP_TIMEOUT × (RETRY_LIM + 1) ticks after entry to QUIESCE. -/
def execQuiesceStall (s : State) : Outcome State Fault Refusal :=
  if s.bnd.adp = .quiesce ∧ s.bring.quietFrom + rspTimeout s * (retryLim s + 1) ≤ s.tick ∧ !s.bring.quietSaid ∧ !drained s then
    .next (raise evMgt 7 (updBring (fun x => { x with quietSaid := true }) s))
  else .next s

end Sys2Proof.Machine
end

