-- ==== Sys2Proof/Machine/Boundary.lean ====
section
/-!
DEFINITION. The boundary: resets and the way to BOOT, supplies, reference clock, freeze, and the pacing levels
(02_host_boundary.md R40 to R53).
-/
namespace Sys2Proof.Machine
open Host

/-! ### Resets (R49 to R51) -/

def updBnd (f : Boundary → Boundary) (s : State) : State := { s with bnd := f s.bnd }

/-- GLB_RSTCAUSE after a reset with cause bit `cause`: that bit is set, FROZEN too where the reset ended a
freeze, and the others are kept (R61). -/
def rstCause (cause : Nat) (s : State) : Nat :=
  getF s glbRstcause 0 4 ||| 2 ^ cause ||| (if s.bnd.adp = .frozen then 8 else 0)

/-- A power-on or VDD_C low reset (R46, R50): everything is at its reset value but the eFuse, the reset cause and
the commands that wait. -/
def coldReset (cause : Nat) (s : State) : State :=
  let t := cutBurn s
  setF glbRstcause 0 4 (rstCause cause s) { State.reset with pending := t.pending, free := t.free, efuse := t.efuse }

/-- PORST_ASSERT (R50). -/
def execPorstAssert (s : State) : Outcome State Fault Refusal := .next (coldReset 0 s)

/-- VDDC_LOW_RESET (R46): as for PORST_N, and GLB_RSTCAUSE records VDDC_LOW. -/
def execVddcLowReset (s : State) : Outcome State Fault Refusal := .next (coldReset 1 s)

/-- Where an adapter reset resumes on release: past the steps only PORST_N repeats (R52), unless one of those steps was
under way. -/
def warmHold : ResetStep → ResetStep
  | .heldPll => .heldPll
  | .pllLock => .heldPll
  | .heldEFuse => .heldEFuse
  | .eFuse => .heldEFuse
  | _ => .heldSram

/-- The engine of the record is out of service from reset: the quad's shadow serves its port, or, where there is none, nothing
does (R456). -/
def engineOut (q e : Nat) (s : State) : State :=
  let t := retireEng q e s
  if seng q s = e then setF (qdShdSts q) 0 5 31 t
  else match servedBy q e s with
    | some p =>
      let u := setF (qdShdSts q) 0 5 31 (setF (prtEng p) 0 5 (seng q s) t)
      if seng q s = 31 then stopPort p u else u
    | none => t

/-- A repair record that keeps a lane or an engine out, as it stands after a reset (R455, R456). -/
def applyOut (s : State) (r : BitVec 128) : State :=
  if recKind r = 3 then setRole (sf r 4 9) .failed s
  else if recKind r = 4 then engineOut (recEngine r).1 (recEngine r).2 s
  else s

/-- Registers an adapter reset keeps, beside the fault log (R50, R61): the log's policy and count of lost records, and what the
last eFuse load left in MGT_PATCH and TST_EFUSE. -/
def warmKept : List Nat := [glbRstcause, fltCtl, fltLost, mgtPatch, tstEfuse]

/-- Heater set-points are kept as starting values for cold training (R50). -/
def keptLanes (s : State) : Tab Lane :=
  s.lanes.foldl (fun t e => tset lane0 t e.1 { heater := e.2.heater }) []

/-- An adapter reset (R50, R51): the records held are entered first (R396); the PLL, the fault log, the soft repairs and the heater
set-points are kept, and everything else is at its reset value. -/
def warmReset (s : State) : State :=
  let t := cutBurn (enterAllHeld s.flt.held.length s)
  let u : State := { State.reset with
    pending := t.pending, free := t.free, efuse := t.efuse, flt := t.flt, lanes := keptLanes t
    bnd := { pllLock := t.bnd.pllLock, clkOut := t.bnd.clkOut, step := warmHold t.bnd.step }
    tst := { soft := t.tst.soft, loaded := t.tst.loaded, wrapper := t.tst.wrapper, dr := t.tst.dr } }
  let v := warmKept.foldl (fun x a => putReg a (getReg t a) x) u
  (t.tst.loaded ++ t.tst.soft).foldl applyOut (setF glbRstcause 0 4 (rstCause 2 s) v)

/-- WARM_RESET (R49, R50): a power-on reset that is asserted overrides it. -/
def execWarmReset (s : State) : Outcome State Fault Refusal :=
  .next (if s.bnd.step = .heldPll then s else warmReset s)

/-! ### The way to BOOT (R52, R456) -/

def setStep (x : ResetStep) (s : State) : State := updBnd (fun b => { b with step := x }) s

/-- RESET_RELEASE (R52): the sequence goes on where the reset left it. -/
def execResetRelease (s : State) : Outcome State Fault Refusal :=
  match s.bnd.step with
  | .heldPll => .next (setStep .pllLock s)
  | .heldEFuse => .next (setStep .eFuse s)
  | .heldSram => .next (setStep .sram s)
  | _ => .next s

/-- PLL_LOCK (R43, R52). -/
def execPllLock (s : State) : Outcome State Fault Refusal :=
  if s.bnd.step = .pllLock then .next (updBnd (fun b => { b with pllLock := true, clkOut := true, step := .eFuse }) s) else .next s

/-- Slots that hold something and whose CHK is wrong. -/
def badSlots (f : EFuse) : Nat := (f.slots.filter (fun e => !chkOk e.2)).length

/-- Each slot with a wrong CHK is counted and reported (R456). -/
def noteBad : Nat → State → State
  | 0, s => s
  | n + 1, s => noteBad n (raise evTst 8 (bump tstEfuse 10 8 s))

/-- EFUSE_LOAD (R52, R456): records with a correct CHK are applied, and the patch table is loaded. -/
def execEfuseLoad (s : State) : Outcome State Fault Refusal :=
  if s.bnd.step = .eFuse then
    let t := noteBad (badSlots s.efuse) (showEfuse (setF mgtPatch 0 7 (patchesUsed s.efuse) s))
    .next (setStep .sram ((burned s).foldl applyOut (updTst (fun x => { x with loaded := burned s }) t)))
  else .next s

/-- SRAM_INIT_DONE (R52). -/
def execSramInitDone (s : State) : Outcome State Fault Refusal :=
  if s.bnd.step = .sram then .next (setStep .lectern s) else .next s

/-- Entry to BOOT (R52, R422): the MGT event block starts from its reset state, so that no STATE_CHANGE is seen. -/
def enterBoot (s : State) : State :=
  let t : State := { s with
    bnd := { s.bnd with step := .done, adp := .boot, mready := true, portsLow := false, cellsDark := false, blsbCk := true }
    blsb := { s.blsb with laserTick := s.tick }
    evts := tdrop s.evts evMgt }
  noteDigest (activeDigest t) t

/-- LECTERN_START (R52): the last step ends, and the adapter is in BOOT. -/
def execLecternStart (s : State) : Outcome State Fault Refusal :=
  .next (if s.bnd.step = .lectern then enterBoot s else s)

/-- RESET_STEP_OVERRUN (R52, R386): the adapter enters FAULT, with a record whose code the specification does not state. -/
def execResetStepOverrun (s : State) : Outcome State Fault Refusal :=
  match s.bnd.step with
  | .pllLock | .eFuse | .sram | .lectern =>
    let (n, t) := takeFree s
    .next (enterFault (handOver unitTb unitTb .adapter (n % 2 ^ 16) .adapterFault 0
      (updBnd (fun b => { b with step := .done, mready := decide (s.bnd.step ≠ .pllLock) }) t)))
  | _ => .next s

/-! ### Freeze (R53) -/

/-- FREEZE (R53, R423): not in OFF. A burn under way is cut short (R458). -/
def execFreeze (s : State) : Outcome State Fault Refusal :=
  if s.bnd.adp = .off ∨ s.bnd.adp = .frozen then .next s
  else .next (updTst (fun x => { x with zeroed := false }) (updBnd (fun b => { b with
    adp := .frozen, cellsDark := true, portsLow := true, mready := false, access := none, mrvalid := none, blsbCk := false, nextState := none }) (cutBurn (endTrainings s))))

/-! ### Supplies and the reference clock (R43, R46) -/

/-- The clocks run: not under a reset, before PLL lock, or frozen (R52, R53). -/
def State.clocked (s : State) : Bool := s.alive || (s.bnd.adp == .off && s.bnd.pllLock && s.bnd.step != .heldPll && s.bnd.step != .heldEFuse && s.bnd.step != .heldSram)

/-- SUPPLY_A (R46). -/
def execSupplyA (s : State) : Outcome State Fault Refusal :=
  if s.clocked then .next (raise evGlb 2 (setF glbBsts 2 1 0 s)) else .next s

/-- SUPPLY_H (R46). -/
def execSupplyH (s : State) : Outcome State Fault Refusal :=
  if s.clocked then .next (raise evGlb 3 (setF glbBsts 3 1 0 s)) else .next s

/-- SUPPLY_RESTORED (R46, R60): VDD_H, or VDD_A, is back in range. -/
def execSupplyRestored (vddH : Bool) (s : State) : Outcome State Fault Refusal :=
  if s.clocked then .next (setF glbBsts (2 + bit vddH) 1 1 s) else .next s

/-- A CLOCK record (R394): bit 0 REFCLK lost, bit 1 PLL unlock. -/
def clockRec (act : FaultAct) (detail : Nat) (s : State) : State := handOver unitTb unitTb .adapter 0x0405 act detail s

/-- REFCLK_LOSS (R43). -/
def execRefclkLoss (s : State) : Outcome State Fault Refusal :=
  if s.clocked && s.bnd.refLost.isNone then
    .next (clockRec .none 1 (raise evGlb 4 (setF glbBsts 1 1 0 (updBnd (fun b => { b with refLost := some s.tick }) s))))
  else .next s

/-- The PLL loses lock, or has no reference any longer: FAULT, and PLL_LOCK falls (R43). -/
def clockFault (detail : Nat) (s : State) : State :=
  enterFault (clockRec .adapterFault detail (setF glbBsts 0 1 0 (updBnd (fun b => { b with pllLock := false, step := .done }) s)))

/-- REFCLK_LOSS_EXPIRY (R43): REFCLK has been lost for 64 ticks. -/
def execRefclkLossExpiry (s : State) : Outcome State Fault Refusal :=
  match s.bnd.refLost with
  | some t => .next (if s.clocked && s.bnd.pllLock && decide (t + 64 ≤ s.tick) then clockFault 1 s else s)
  | none => .next s

/-- REFCLK_RETURN (R43): within the 64 ticks. -/
def execRefclkReturn (s : State) : Outcome State Fault Refusal :=
  match s.bnd.refLost with
  | some t =>
    .next (if s.clocked && decide (s.tick < t + 64) then setF glbBsts 1 1 1 (updBnd (fun b => { b with refLost := none }) s) else s)
  | none => .next s

/-- PLL_UNLOCK (R43): the adapter enters FAULT, at any time from the first lock on, under an adapter reset too; a frozen one stays
frozen (R423), and only the pin falls. -/
def execPllUnlock (s : State) : Outcome State Fault Refusal :=
  if !s.bnd.pllLock then .next s
  else if s.bnd.adp = .frozen then .next (updBnd (fun b => { b with pllLock := false }) s)
  else .next (clockFault 2 (raise evGlb 5 s))

/-! ### Pacing levels (R40) -/

/-- The filtered level of PACE line `l`. -/
def paceLevel (l : Nat) (s : State) : Nat := getF s (glbPaceLvl (l / 32)) (l % 32) 1

/-- PACE_EDGE (R40, R316, R339): the filtered level rises; each channel that follows the line counts it, and it is an edge of each
sequence ring paced by it. -/
def execPaceEdge (line : PaceLine) (s : State) : Outcome State Fault Refusal :=
  if s.clocked && paceLevel line.val s == 0 then
    let t := setF (glbPaceLvl (line.val / 32)) (line.val % 32) 1 1 s
    .next (if s.acts then settle (colEdge line.val (dmaEdge line.val t)) else t)
  else .next s

/-- PACE_LEVEL_FALL (R40). -/
def execPaceLevelFall (line : PaceLine) (s : State) : Outcome State Fault Refusal :=
  if s.clocked then .next (setF (glbPaceLvl (line.val / 32)) (line.val % 32) 1 0 s) else .next s

end Sys2Proof.Machine
end

