-- ==== Sys2Proof/Machine/Receive.lean ====
section
/-!
DEFINITION. A flit arrives: the checks of R134, the control fields, and what each kind of flit does (R73, R78, R103, R135,
R137, R141, R178 to R181, R257, R259, R263, R398, R441).
-/
namespace Sys2Proof.Machine
open Host

/-! ### Flits that fail (R134, R141, R181, R263) -/

/-- The peer's valid marker of this tick says P1 or deeper: flits that fail outside slot 0 are quiet (R263). -/
def quiet (p k : Nat) (s : State) : Bool :=
  decide (k ≠ 0) && (s.port p).pw.peerTick == some s.tick && decide ((s.port p).pw.peerCur ≠ 0)

/-- The counter of a step of R134 that fails: 0 FEC, 1 CRC, 2 the header. -/
def countBad (p which : Nat) (s : State) : State :=
  match which with
  | 0 => bump (prtCntBad p) 0 16 s
  | 1 => bump (prtCntBad p) 16 16 s
  | _ => bump (prtCntProto p) 0 16 s

/-- An uncorrectable flit met in VERIFY (R105). -/
def noteVerify (p which : Nat) (s : State) : State :=
  updLn p (fun x => { x with training := x.training.map (fun t =>
    if t.phase = .verify ∧ which = 0 then { t with uncorr := t.uncorr + 1 } else t) }) s

/-- A flit fails a step of R134: it is counted and raises its event, a ledger LEDGER_INVALID too, and a NAK may become due. -/
def failFlit (p k which : Nat) (s : State) : State :=
  if quiet p k s then s
  else
    let s1 := raise (evPrt p) which (countBad p which (noteVerify p which s))
    let s2 := if k = 128 ∧ (s.port p).ln.lstate = .up then raise (evPrt p) 14 s1 else s1
    nakForDiscard p k s2

/-- A flit that decoded fails a later step: its corrected bytes count, unless it is quiet (R108, R263). -/
def failFixed (p k which : Nat) (fixed : List Nat) (s : State) : State :=
  if quiet p k s then s else failFlit p k which (countFixed p k fixed s)

/-! ### Markers (R73 to R75, R78, R83, R179, R257, R259) -/

/-- The receive reference, corrected by the recorded skew where another lane than the measured one is the lowest active one
(R75). -/
def corrected (p ref : Nat) (s : State) : Nat :=
  match lowestActive p s with
  | some i =>
    if i = (s.port p).ln.measured then ref else ((ref : Int) - toInt 8 (getF s (lnEye (cellOf p i)) 8 8)).toNat
  | none => ref

/-- The peer's tick whose slot 0 arrives: that of its marker, or the present one in its numbering. -/
def peerTickOf (p : Nat) (m : Option Marker) (s : State) : Nat :=
  match m with
  | some m => if m.tsv then m.ctsTx / 1024 else ((s.tick : Int) - (s.port p).ln.tickDiff).toNat
  | none => ((s.tick : Int) - (s.port p).ln.tickDiff).toNat

/-- A marker that passed the checks: its calendar phase is checked; one with TSV 0 is acted on no further (R257, R259). -/
def marker (p : Nat) (m : Marker) (ref : Nat) (s0 : State) : State :=
  let s := phaseCheck p m s0
  if !m.tsv then s
  else
    let s1 := updPort p (fun x => { x with
      ln := { x.ln with tickDiff := (s.tick : Int) - (m.ctsTx / 1024 : Nat) }, sc := { x.sc with peerTq := m.tq } }) s
    markerTime p { ctsTx := m.ctsTx, gmid := m.gmid, stratum := m.stratum, tq := m.tq, tsv := m.tsv, ref := corrected p ref s1 }
      (markerPower p m.pwr s1)

/-! ### Ledgers (R172, R178 to R181, R398, R441) -/

/-- The fault summary of a ledger is stored; PEER_FAULT when RECNO changes (R398). -/
def peerSummary (p : Nat) (l : Ledger) (s : State) : State :=
  let lost := sf (l.summary.getD 0 0) 0 64
  let recno := sf (l.summary.getD 1 0) 64 32
  let s1 := setF (prtPeerFsum p 0) 0 32 (sf (l.summary.getD 1 0) 0 32) (setF (prtPeerFsum p 1) 0 32 recno
    (setF (prtPeerFsum p 2) 0 32 lost (setF (prtPeerFsum p 3) 0 32 (lost / 2 ^ 32) s)))
  if getF s (prtPeerFsum p 1) 0 32 = recno then s1 else raise (evPrt p) 25 s1

/-- Epoch and digest are compared with the own ones of the same tick, except on the spur; the outcome stands from the next
tick (R441). -/
def compareConfig (p : Nat) (l : Ledger) (s : State) : State :=
  if p = s.site then s
  else updPort p (fun x => { x with sc := { x.sc with
    skewNext := some (decide (inForceAt (tickNear s.tick l.rtick) s ≠ (l.epoch, l.digest))) } }) s

/-- A ledger that passed the checks; `late` where applying its counts overruns its budget (R85, item 3). -/
def ledger (p : Nat) (slots : List Slot) (late : Bool) (s : State) : State :=
  let l := Ledger.ofSlots slots
  if !l.valid then raise (evPrt p) 14 s
  else
    let s1 := compareConfig p l (peerSummary p l s)
    if late then updCr p (fun c => { c with
      resync := slots, peer := some (c.peer.getD l.cfg), peerFreeCtl := l.hfreeCtl, peerFreePlv := l.hfreePlv }) s1
    else ledgerCredit p l s1

/-! ### A flit (R134, R135) -/

/-- Steps 4 and 5 of R134. -/
def takeFlit (p k : Nat) (f : Flit) (ref : Nat) (late : Bool) (s : State) : State :=
  let s1 := creditReturn p f.hdr.cpool f.hdr.cred (ackFields p f.hdr (noteGood p s))
  let s2 := if k = 0 then s1 else stirPort p s1
  match f.hdr.kind with
  | 0 => s2
  | 1 => handleData p k f s2
  | 2 => marker p (Marker.ofSlot (f.slots.getD 0 0)) ref s2
  | 3 => ledger p f.slots late s2
  | _ => wakeMsg p (TrainMsg.ofSlot (f.slots.getD 0 0)) ref (trainMsg p (TrainMsg.ofSlot (f.slots.getD 0 0)) ref s2)

/-- A training flit the peer sent before its own side came up, in the first tick after a link-up, is discarded without a trace
(R134), and so is one that was on its way when a wake from P2 ended (log 102). -/
def straggler (p : Nat) (r : FlitRead) (s : State) : Bool :=
  match r with
  | .good f _ => decide (f.hdr.kind = 4) && decide ((s.port p).ln.lstate = .up) && (s.port p).ln.upTick == some s.tick
  | _ => false

/-- At the peer's slot 0 of an up port the pilots are compared and the returns latched, before the marker is acted on (R108,
R179). -/
def atSlot0 (p k : Nat) (raw : List Byte) (r : FlitRead) (s : State) : State :=
  if k = 0 ∧ (s.port p).ln.lstate = .up then
    let m := match r with | .good f _ => if f.hdr.kind = 2 then some (Marker.ofSlot (f.slots.getD 0 0)) else none | _ => none
    latchReturns p (peerTickOf p m s) (countPilots p raw s)
  else s

/-- The 272 bytes that the lanes carried in the peer's slot `k` of port `p`, scrambled, with the receive reference in 1/16 cc (R93,
R134). -/
def receiveFlit (p k : Nat) (wire : List Byte) (ref : Nat) (late : Bool) (s : State) : State :=
  let x := s.port p
  if !receives p s || (decide (x.ln.lstate = .up) && !slotPresent x.ln.width k) then s
  else
    let raw := descramble p k wire s
    let r := readFlit raw
    if straggler p r s then s
    else
      let s1 := atSlot0 p k raw r s
      match r with
      | .uncorr => failFlit p k 0 s1
      | .crcFail fixed => failFixed p k 1 fixed s1
      | .good f fixed =>
        if headerOk k (x.ln.training.isSome || wakeVerify p s) f.hdr then takeFlit p k f ref late (countFixed p k fixed s1)
        else failFixed p k 2 fixed s1

/-- BAD_FLIT_RX (R134): the bytes of the flit decide, as for every arrival. -/
def execBadFlitRx (p : PortId) (slot : Fin 256) (flit : List Byte) (s : State) : Outcome State Fault Refusal :=
  .next (receiveFlit p slot flit 0 false s)
/-- DATA_FLIT_RX (R137). -/
def execDataFlitRx (p : PortId) (slot : Fin 256) (flit : List Byte) (s : State) : Outcome State Fault Refusal :=
  .next (receiveFlit p slot flit 0 false s)
/-- IDLE_FLIT_RX (R135). -/
def execIdleFlitRx (p : PortId) (slot : Fin 256) (flit : List Byte) (s : State) : Outcome State Fault Refusal :=
  .next (receiveFlit p slot flit 0 false s)
/-- MARKER_RX (R78): `ref` is the receive reference in 1/16 cc of CTS (R74); `spare` holds the bytes that the spare lane's receiver took
of its burst (R95, R108). -/
def execMarkerRx (p : PortId) (flit : MarkerFlits) (ref : Nat) (s : State) : Outcome State Fault Refusal :=
  .next (receiveFlit p 0 flit.flit ref false (if receives p s && decide ((s.port p).ln.lstate = .up) then countSpare p flit.spare s else s))
/-- LEDGER_RX (R180): `late` where its correction overruns (R85, item 3). -/
def execLedgerRx (p : PortId) (flit : List Byte) (late : Bool) (s : State) : Outcome State Fault Refusal :=
  .next (receiveFlit p 128 flit 0 late s)
/-- TRAINING_FLIT_RX (R103). -/
def execTrainingFlitRx (p : PortId) (slot : Fin 256) (flit : List Byte) (ref : Nat) (s : State) : Outcome State Fault Refusal :=
  .next (receiveFlit p slot flit ref false s)

end Sys2Proof.Machine
end

