-- ==== Sys2Proof/Machine/Slots.lean ====
section
/-!
DEFINITION. What a port sends in a slot: markers, ledgers, copies, calendar flows, unscheduled and training flits
(R16, R73, R98, R103, R145, R170, R178, R243 to R250, R258, R266, R398).
-/
namespace Sys2Proof.Machine
open Host

/-! ### Markers (R73, R85, R259) -/

/-- The marker of a tick (R73), without its PWR field. -/
def buildMarker (tick : Nat) (s : State) : Marker :=
  { ctsTx := tick * 1024, gmid := if s.role = 2 then s.die else s.gmid, stratum := s.stratum, tq := s.tb.state.code, tsv := true
    calph := tick % 64, pwr := 0 }

/-- MARKER_BUILD (R85, item 0): at cycle 960, for the next tick. -/
def execMarkerBuild (p : PortId) (s0 : State) : Outcome State Fault Refusal :=
  if s0.acts && !(s0.port p).stopped then
    let s := arrive 960 s0
    .next (updPort p (fun x => { x with marker := some (s.tick + 1, buildMarker (s.tick + 1) s) }) s)
  else .next s0

/-- The marker for this slot 0: the one built for the tick, or, where none was built in time, one with TSV 0 that repeats the last
PWR field; its CTS_TX and TQ are open (R73, R85). -/
def markerNow (p : Nat) (s : State) : Marker × State :=
  let built := match (s.port p).marker with | some (t, m) => if t = s.tick then some m else none | none => none
  match built with
  | some m => ({ m with pwr := pwrField p s }, s)
  | none =>
    let (n, t) := takeFree s
    ({ buildMarker s.tick s with ctsTx := n % 2 ^ 64, tq := n / 2 ^ 64 % 8, tsv := false, pwr := (s.port p).lastPwr }, t)

/-- The marker leaves in slot 0, its other slots holding the pilots (R73, R94). -/
def sendMarker (p : Nat) (s : State) : State :=
  let (m, t) := markerNow p s
  updPort p (fun x => { x with marker := none, lastPwr := m.pwr, pw := { x.pw with sent := some (s.tick, m.pwr, m.tsv) } })
    (emit p { kind := 2, nslot := 1 } (m.slot :: List.replicate 14 pilotSlot) t)

/-! ### Ledgers (R85, R178, R398) -/

/-- LEDGER_BUILD (R85, item 1): at cycle 448. -/
def execLedgerBuild (p : PortId) (s0 : State) : Outcome State Fault Refusal :=
  if s0.acts && !(s0.port p).stopped then .next (buildLedger p (arrive 448 s0)) else .next s0

/-- Ports as a mask of 64 bits. -/
def mask64 (f : Nat → Bool) : Nat := (List.range 64).foldl (fun v p => v + bit (f p) * 2 ^ p) 0

/-- The port runs below width 4 or has no spare (R398). -/
def degraded (s : State) (p : Nat) : Bool :=
  decide ((s.port p).ln.lstate = .up) && (decide ((s.port p).ln.width < 4) || (spareOf p s).isNone)

/-- Slots 12 to 14 of a ledger (R398). -/
def faultSummary (s : State) : List Slot :=
  let r := s.flt.newest.getD {}
  [slotOf [(0, 64, mask64 (fun p => (s.port p).rt.lost)), (64, 64, mask64 (degraded s))],
   slotOf [(0, 4, s.bnd.adp.code), (4, 4, (List.range 4).foldl (fun v q => v + bit (seng q s == 31) * 2 ^ q) 0),
     (8, 8, getF s wbSts 0 8), (16, 16, getF s dmaEng 0 16), (64, 32, r.recno)],
   slotOf [(0, 64, r.cts), (64, 16, r.code), (80, 8, r.action), (88, 14, r.unit), (102, 3, r.level)]]

/-- A count of a pool in use, and 0 for the others (R178). -/
def shownCount (c : PoolConfig) (t : Tab Nat) (k : Nat) : Nat := if c.inUse k then cget t k else 0

/-- The ledger that carries a snapshot (R178, R179, R441). -/
def ledgerOf (p : Nat) (n : CreditSnap) (s : State) : Ledger :=
  let c := (s.port p).cr
  let f := inForceAt n.tick s
  { valid := true, cfg := c.own, rtick := n.tick % 65536, epoch := f.1, digest := f.2, hfreeCtl := c.hfreeCtl, hfreePlv := c.hfreePlv
    counts := (List.range 9).map (fun k =>
      (shownCount (c.peer.getD {}) n.sent k, shownCount c.own n.rcvd k, shownCount c.own n.freed k))
    summary := faultSummary s }

/-- The ledger leaves in slot 128: the one built in this tick, else one marked not valid (R85). -/
def sendLedger (p : Nat) (s : State) : State :=
  let slots := match (s.port p).cr.ledger with
    | some (t, some n) => if t = s.tick then (ledgerOf p n s).slots else List.replicate 15 0
    | _ => List.replicate 15 0
  emit p { kind := 3, nslot := 15 } slots s

/-! ### Other slots in P0 (R16, R145, R170, R247 to R250) -/

/-- An entry comes up for slot `k` and names a bound flow, whether or not it was read in time. -/
def entryDue (p k : Nat) (s : State) : Bool :=
  decide (k ≠ 0 ∧ k ≠ 128) && calTurn (calEntry p k s) s.tick && slotPresent (s.port p).ln.width k && flowBound (calFlow (calEntry p k s)) s

/-- Packet slots in progress cross, where the crossbar lets them by then, and are placed with the messages that wait (R169, R170,
R491: 16 slots a cycle, 4 cycles a slot). -/
def feed (p : Nat) (contended : Bool) (s : State) : State := fill p (if contended then s else cross p 64 s)

/-- Rank 3: a displaced flit first, then the flit under assembly (R249, R250); one that finds no room in the Sideboard is a new
data flit that is blocked (R144). -/
def rank3 (p : Nat) (contended : Bool) (s0 : State) : State :=
  let s := feed p contended s0
  match sendDisplaced p s with
  | some t => t
  | none =>
    sendUnscheduled p (if displacedNext p s && !sbRoom (s.port p).tx s.cts false then noteBlock p true s else s)

/-- The flow's packet slots that slot `k` may send: what it has ready, where nothing but they may follow the packet slots sent last,
and neither a replay nor a swap at a wake holds new flits back (R115, R169, R247). -/
def flowFlit (p k : Nat) (s : State) : List TxSlot :=
  let pks := flowReady p k s
  if (s.port p).tx.replay.isNone && mayFollow (s.port p).tx pks && !(s.port p).ln.wakeSwap then pks else []

/-- No copy claims the slot: the flow of its valid entry, if it is ready, else rank 3, as where the Sideboard has no room for the
flow's flit (R144, R249). -/
def uncopied (p k : Nat) (contended : Bool) (s : State) : State :=
  if (s.port p).sc.sched && entryDue p k s then
    if entryValid p k s && !(flowFlit p k s).isEmpty then
      (if sbRoom (s.port p).tx s.cts false then feed p contended (sendFlow p (flowFlit p k s) s)
       else rank3 p contended (missed p (noteBlock p true s)))
    else rank3 p contended (missed p s)
  else rank3 p contended s

/-- A valid entry that names an unbound flow counts as BADFLOW (R244). -/
def countBadFlow (p k : Nat) (s : State) : State :=
  if decide (k < (s.port p).sc.readNow) && entryBad p k s then bump (prtSchedCnt p 2) 16 16 s else s

/-- A copy claims the slot: the flow's sealed flit is displaced, and the copy is sent, unless its words are uncorrectable
(R145, R156, R249). -/
def copied (p k : Nat) (e : SbEntry) (sel uncorr : Bool) (s : State) : State :=
  let s1 := if (s.port p).sc.sched && entryDue p k s then
      (if entryValid p k s && !(flowReady p k s).isEmpty then displace p (flowReady p k s) s else missed p s)
    else s
  if uncorr then emit p { kind := 0 } [] (sbUncorr p s1)
  else
    let s2 := sendCopy p e sel s1
    if (s2.port p).tx.handUp then
      engFails (p / 16) (engOf p s2) 1 (updTx p (fun x => { x with handUp := false }) s2)
    else s2

/-- A slot other than 0 and 128 in P0. -/
def dataSlot (p k : Nat) (contended uncorr : Bool) (s : State) : State :=
  let (c, s2) := if (s.port p).ln.wakeSwap then (none, s) else claimCopy p s
  noteSent p (match c with
    | some (e, sel) => feed p contended (copied p k e sel uncorr s2)
    | none => uncopied p k contended s2)

/-! ### The slot (R16, R98, R103, R258, R266, R372) -/

/-- The transmit reference of slot `k` of the present tick at width `w`, in 1/16 cc, rounded up (R68, R98). -/
def txRef (w k : Nat) (s : State) : Nat :=
  16 * (s.tick * 1024 + 16 * (k / 4)) + (64 * (68 * (k % 4) / max w 1) + 16) / 17

/-- A training port sends training flits from DELAY on, striped over the lanes in training (R101, R103). -/
def trainSlot (p k : Nat) (t : Training) (s : State) : State :=
  let w := min 4 (ofMask t.lanes).length
  driveTraining p k t <|
  if (t.phase = .delay ∨ t.phase = .verify ∨ t.phase = .up) ∧ slotPresent w k then
    updTx p (fun x => { x with wire := some (trainFlit p (txRef w k s) s).wire }) s
  else updTx p (fun x => { x with wire := none }) s

/-- A slot of a port in P2 that wakes: its active lanes send the signal of the phase, from cycle 0 of U where it started the wake and
of U + 1 where it joined (R101, R264). -/
def wakeSlot (p k : Nat) (w : Wake) (s : State) : State :=
  if w.own || decide (w.u + 1 ≤ s.tick) then
    driveWake p k w (updTx p (fun x => { x with
      wire := if w.phase = .verify then some (trainFlit p (txRef (s.port p).ln.width k s) s).wire else none }) s)
  else s

/-- An up port's slot in its power state; the slots it keeps dark or idle carry no flit, and a calendar entry is missed in them
(R16, R258, R266). -/
def upSlot (p k : Nat) (contended uncorr : Bool) (s0 : State) : State :=
  let s := countBadFlow p k s0
  let dark := (if entryDue p k s then missed p else id) (updTx p (fun x => { x with wire := none }) s)
  match (s.port p).pw.state with
  | .p0 =>
    let t := countWaits p s
    if k = 0 then sendMarker p t else if k = 128 then sendLedger p t else dataSlot p k contended uncorr t
  | .p1 => if k = 0 then sendMarker p s else dark
  | _ => dark

/-- FLIT_SLOT (R16): slot `slot` begins, at cycle 4 × slot and at no other (R68). `contended` says that packet slots in progress have not crossed
the crossbar by then (R170), `uncorr` that the Sideboard words read for a copy are uncorrectable (R156). -/
def execFlitSlot (p : PortId) (slot : Fin 256) (contended uncorr : Bool) (s0 : State) : Outcome State Fault Refusal :=
  let s := arrive (4 * slot) s0
  let x := s.port p
  if !s0.acts || x.stopped || s.bnd.cellsDark || decide (s.cyc ≠ 4 * slot) then .next s0
  else match x.ln.training with
    | some t => .next (trainSlot p slot t s)
    | none =>
      if x.ln.lstate = .up ∧ slotPresent x.ln.width slot then 
        let t := upSlot p slot contended uncorr s
        .next (match x.pw.state, x.pw.wake with
          | .p2, some w => wakeSlot p slot w t
          | _, _ => driveUp p slot t)
      else .next s

end Sys2Proof.Machine
end

