-- ==== Sys2Proof/Machine/Tick.lean ====
section
/-!
DEFINITION. Cycle 0 of a tick, at which decided, agreed and staged changes take effect, and overruns of the periodic tasks
(R21, R66, R85 to R87, R149, R151, R160, R179, R209, R346, R422, R425, R441, R483).
-/
namespace Sys2Proof.Machine
open Host

/-! ### Units that leave service and return (R100, R209, R346, R381, R382, R430) -/

/-- Unit `u` leaves service. -/
def leaveUnit (s : State) (u : Nat) : State := if 0x400 ≤ u ∧ u < 0x408 then leaveWb (u - 0x400) s else loseEngine (u - 0x580) s

/-- Port `p` returns to its direct route: DRAINING (R209). -/
def returnPort (p : Nat) (s : State) : State :=
  if (s.port p).ln.lstate = .up ∧ (s.port p).rt.rstate ≠ .direct then
    let t := setRoute p .draining (s.port p).rt.rsite s
    updPort p (fun x => { x with rt := { x.rt with lost := false, lossDue := none, drainFrom := s.tick } }) t
  else s

/-- Unit `u` returns to service: a lane, a port, a port engine, a Workbench unit, a DMA engine. -/
def returnUnit (s : State) (u : Nat) : State :=
  if u < 0x200 then (if (s.lane u).role = .failed then setRole u .off s else s)
  else if u < 0x280 then returnPort (u - 0x200) s
  else if u < 0x400 then returnEng ((u - 0x300) / 32) ((u - 0x300) % 32) true s
  else if u < 0x500 then setF wbSts (u - 0x400) 1 1 s
  else setF dmaEng (u - 0x580) 1 1 s

/-- The units whose tick has come, and the others. -/
def dueUnits (l : List (Nat × Nat)) (now : Nat) : List Nat := (l.filter (fun e => decide (e.2 ≤ now))).map (·.1)
def laterUnits (l : List (Nat × Nat)) (now : Nat) : List (Nat × Nat) := l.filter (fun e => !decide (e.2 ≤ now))

/-- Units leave and return at cycle 0. -/
def moveUnits (s : State) : State :=
  let t := { s with leaving := laterUnits s.leaving s.tick, returning := laterUnits s.returning s.tick }
  (dueUnits s.returning s.tick).foldl returnUnit ((dueUnits s.leaving s.tick).foldl leaveUnit t)

/-! ### A port at cycle 0 -/

/-- The mode of retransmission at a tick boundary (R149, R151), SELCTL being what it is from this tick on: an up port is in selective
mode under ALWAYS, none enters it under NEVER, and else what was decided in the tick before takes effect. -/
def modeAt (x : Port) (ctl : Nat) : Bool :=
  if ctl = 1 ∧ x.ln.lstate = .up then true
  else match x.tx.modeNext with
    | some true => x.tx.selective || decide (ctl ≠ 2)
    | some false => false
    | none => x.tx.selective

/-- The mode takes effect: SEL_ENTER or SEL_EXIT (R149, R151). -/
def portMode (p : Nat) (s : State) : State :=
  let x := s.port p
  let want := modeAt x (selCtl p s)
  let t := updTx p (fun y => { y with modeNext := none }) s
  if want && !x.tx.selective then enterSel p t
  else if !want && x.tx.selective then raise (evPrt p) 7 (updTx p (fun y => { y with selective := false, cleanTicks := 0 }) t)
  else t

/-- CFG_SKEW as the last ledger left it (R441). -/
def portSkew (p : Nat) (s : State) : State :=
  let x := (s.port p).sc
  match x.skewNext with
  | none => s
  | some b =>
    let t := updPort p (fun y => { y with sc := { y.sc with skew := b, skewNext := none } }) s
    if b && !x.skew then raise evMgt 3 (bump (mgtPlvCnt 2) 16 16 t)
    else if !b && x.skew then raise evMgt 4 t else t

/-- The copy ratio of a window that ended (R160). -/
def portRatio (p : Nat) (s : State) : State :=
  let r := copyRatio (s.port p).tx
  updTx p (fun y => { y with winFirst := 0, winCopies := 0 }) (peak (prtRatio p) 16 10 (min r 1023) (setF (prtRatio p) 0 10 (min r 1023) s))

/-- A correction that overran is applied (R85, item 3). -/
def portResync (p : Nat) (s : State) : State :=
  match (s.port p).cr.resync with
  | [] => s
  | ss => ledgerCredit p (Ledger.ofSlots ss) (updCr p (fun c => { c with resync := [] }) s)

/-- Counts by tick of one port: darkness (R106), clean ticks (R151), the snapshot (R179), the calendar entries read (R85). -/
def portCounts (now : Nat) (held : Tab Nat) (x : Port) : Port :=
  let live : Bool := decide (x.ln.lstate = .up) && decide (x.pw.state = .p0 ∨ x.pw.state = .p1)
  { x with
    rx := { x.rx with empty := if live && !x.rx.tickGood then min 255 (x.rx.empty + 1) else 0, tickGood := false }
    tx := { x.tx with cleanTicks := if x.tx.selective && x.tx.tickClean then min 65535 (x.tx.cleanTicks + 1) else 0, tickClean := true }
    sc := { x.sc with readNow := x.sc.readNext, readNext := 0, slipped := false }
    cr := if x.ln.lstate = .up then takeSnap now held x.cr else x.cr }

/-- Cycle 0 of a tick for port `p`. -/
def portTick (s : State) (p : Nat) : State :=
  let s1 := portResync p s
  let s2 := if s.tick % 64 = 0 then portRatio p s1 else s1
  let s3 := portMode p (updPort p (portCounts s.tick (heldPools p s2)) s2)
  let s4 := portSkew p s3
  dueFallback p (if (s4.port p).ln.training.isNone && !(s4.port p).ln.failing.isEmpty then failLanes p s4 else s4)

/-- A tick in power state s is counted for every port (R267). -/
def countPower (old s : State) : State :=
  (List.range 64).foldl (fun t p => bumpWrap (prtPwrRes p (old.port p).pw.state.code) 1 t) s

/-! ### Lanes, channels, time -/

/-- The window of corrected bytes of each lane ends (R109). -/
def laneWindows (s : State) : State :=
  if s.tick % 64 = 0 then
    s.lanes.foldl (fun t e => updLane e.1 (fun x => { x with lastWindow := x.window, window := 0 }) t) s
  else s

/-- A tick ends for every channel (R344). -/
def chanTicks (s : State) : State := { s with dma := s.dma.foldl (fun t e => tmod chan0 t e.1 chanTick) s.dma }

/-- The holdover count, and a measurement whose update overran (R80, R85). -/
def timeTick (s : State) : State :=
  let t := servoTick s
  { t with tb := { t.tb with hold := if s.tb.state = .holdover then s.tb.hold + 1 else s.tb.hold } }

/-- In BOOT a staged time configuration takes effect, and the digest in force follows it (R425). -/
def bootTime (boot : Bool) (s : State) : State :=
  if boot && getReg s tbCfg != getReg s tbCfgStg then
    let t := takeRole (putReg tbCfg (getReg s tbCfgStg) s)
    noteDigest (activeDigest t) t
  else s

/-- The adapter's pending change of state (R422), and ports that may begin their training now (R81). -/
def adapterTick (s : State) : State :=
  beginOthers (match s.bnd.nextState with | some t => toState t s | none => s)

/-! ### The tick boundary -/

/-- CTS reaches cycle 0 of the next tick (R66), and writes that wait for it are in force (R483). -/
def nextTick (s : State) : State := let t := latchEvents { s with cts := (s.tick + 1) * 1024 }; { t with inForce := t.regs }

/-- What TRAIN and QUIESCE are left on, as it stood at the end of the old tick (R423). -/
def noteOver (old s : State) : State := updBring (fun x => { x with leaves := mayLeave old }) s

/-- Cycle 0 of a tick while the adapter acts. -/
def tickEffects (old s : State) : State :=
  let s1 := chanTicks (timeTick (laneWindows (countPower old (noteOver old s))))
  let s2 := (s.ports.map (·.1)).foldl portTick s1
  settle (adapterTick (bootTime (decide (old.bnd.adp = .boot)) (moveUnits s2)))

/-- CTS counts (R43, R52, R53, R386). -/
def State.counts (s : State) : Bool := s.clocked && !s.tb.dead

/-- Cycle 0 of the next tick. -/
def tickBoundary (s : State) : State :=
  if !s.counts then s
  else if !s.acts then nextTick s
  else tickEffects s (nextTick s)

/-- TICK_BOUNDARY (R21). -/
def execTickBoundary (s : State) : Outcome State Fault Refusal := .next (tickBoundary s)

/-- One cycle passes: EVT_PEND takes EVT_RAW and EVT_EN (R12), and CTS counts, into the next tick after cycle 1,023. -/
def cyclePasses (s : State) : State :=
  if !s.clocked then s
  else if s.tb.dead then latchEvents { s with bnd := { s.bnd with mrvalid := none } }
  else presentAll <| blsbPump (if s.cyc = 1023 then tickBoundary s else latchEvents { s with cts := s.cts + 1 })

/-! ### Overruns (R85, R86) -/

/-- The outcome of an overrun of an item in a unit, a port's where it is a port engine (R85). A correction that overruns waits by
the ledger's own command; a gap step's and a BIST step's command comes when the step ends. -/
def overrun (item : Nat) (p : Option Nat) (s : State) : State :=
  match item, p with
  | 0, some p => updPort p (fun x => { x with marker := none }) s
  | 1, some p => overrunLedger p s
  | 2, some p =>
    let (n, t) := takeFree s
    updPort p (fun x => { x with sc := { x.sc with readNext := n % 256 } }) t
  | 7, some p => powerOverrun p s
  | 4, _ => servoLate s
  | 6, _ => updTst (fun x => { x with run := x.run.map (fun r => { r with next := max r.next (s.tick + 1) }) }) s
  | _, _ => s

/-- The level of a unit (R17). -/
def unitLevel (u : Nat) : FaultLevel := if u < 0x200 then .lane else if isEngine u then .quad else .adapter

/-- The unit is handled as failed at its level: a lane requests repair, with NOCONV for its cause (log 100), an engine fails, the time
base is lost, the test controller stops (R17, R86). -/
def unitFails (u : Nat) (s : State) : State :=
  if u < 320 then requestRepair u .noconv s
  else if isEngine u then engFails ((u - 0x300) / 32) ((u - 0x300) % 32) 2 s
  else if u = unitTb then loseTb s
  else if u = unitTest then
    (match s.tst.run with
     | some x => endSlice x 4 2 (updTst (fun y => { y with broken := true }) s)
     | none => updTst (fun y => { y with broken := true }) s)
  else s

/-- Consecutive ticks in which the item has overrun in the unit, this one included. -/
def overrunRun (item unit : Nat) (s : State) : Nat :=
  let (t, n) := tget (fun _ => (0, 0)) s.tb.overruns (item * 16384 + unit)
  if n = 0 then 1 else if t = s.tick then n else if t + 1 = s.tick then n + 1 else 1

/-- TB_OVR_STS: of overruns in one cycle the one that comes last in the order of R89 (R86). -/
def recordOverrun (item unit : Nat) (s : State) : State :=
  if s.tb.ovrAt = some s.cts ∧ unit < getF s tbOvrSts 3 14 then s
  else setF tbOvrSts 0 3 item (setF tbOvrSts 3 14 unit { s with tb := { s.tb with ovrAt := some s.cts } })

/-- TICK_OVERRUN (R86). -/
def execTickOverrun (item : Fin 8) (unit : BitVec 14) (s : State) : Outcome State Fault Refusal :=
  if !s.acts then .next s
  else
    let u := unit.toNat
    let n := overrunRun item u s
    let p := if isEngine u then servedBy ((u - 0x300) / 32) ((u - 0x300) % 32) s else none
    let s1 := raise evTb 0 (recordOverrun item u (bump (tbOvrCnt (item / 4)) (8 * (item % 4)) 8
      { s with tb := { s.tb with overruns := tset (fun _ => (0, 0)) s.tb.overruns (item * 16384 + u) (s.tick, n) } }))
    let s2 := overrun item p s1
    if n = 16 then
      .next (unitFails u (handOver unitTb u (unitLevel u) 0x0406 .none item
        { s2 with tb := { s2.tb with overruns := tdrop s2.tb.overruns (item * 16384 + u) } }))
    else .next s2

end Sys2Proof.Machine
end

