-- ==== Sys2Proof/Machine/Dispatch.lean ====
section
/-!
DEFINITION. The dispatch: one arm per command, each a direct call of that command's meaning.
-/
namespace Sys2Proof.Machine
open Host

def exec (i : Instr) (s : State) : Host.Outcome State Fault Refusal :=
  match i with
  | .porstAssert => Sys2Proof.Machine.execPorstAssert s
  | .warmReset => Sys2Proof.Machine.execWarmReset s
  | .vddcLowReset => Sys2Proof.Machine.execVddcLowReset s
  | .supplyA => Sys2Proof.Machine.execSupplyA s
  | .supplyH => Sys2Proof.Machine.execSupplyH s
  | .freeze => Sys2Proof.Machine.execFreeze s
  | .refclkLoss => Sys2Proof.Machine.execRefclkLoss s
  | .refclkLossExpiry => Sys2Proof.Machine.execRefclkLossExpiry s
  | .pllUnlock => Sys2Proof.Machine.execPllUnlock s
  | .pllLock => Sys2Proof.Machine.execPllLock s
  | .efuseLoad => Sys2Proof.Machine.execEfuseLoad s
  | .sramInitDone => Sys2Proof.Machine.execSramInitDone s
  | .lecternStart => Sys2Proof.Machine.execLecternStart s
  | .resetStepOverrun => Sys2Proof.Machine.execResetStepOverrun s
  | .paceEdge line => Sys2Proof.Machine.execPaceEdge line s
  | .mgtTimeout => Sys2Proof.Machine.execMgtTimeout s
  | .registerWrite agent addr value => Sys2Proof.Machine.execRegisterWrite agent addr value s
  | .evtClrWrite u value => Sys2Proof.Machine.execEvtClrWrite u value s
  | .evtSetWrite u value => Sys2Proof.Machine.execEvtSetWrite u value s
  | .evtCntWrite u k value => Sys2Proof.Machine.execEvtCntWrite u k value s
  | .tbCtsLoRead => Sys2Proof.Machine.execTbCtsLoRead s
  | .lnCtsLoRead l dcal => Sys2Proof.Machine.execLnCtsLoRead l dcal s
  | .freqTransfer ip hdr beats => Sys2Proof.Machine.execFreqTransfer ip hdr beats s
  | .hrspTransfer ip hdr beats => Sys2Proof.Machine.execHrspTransfer ip hdr beats s
  | .hreqTimeout ip tag => Sys2Proof.Machine.execHreqTimeout ip tag s
  | .quarantineExpiry ip tag => Sys2Proof.Machine.execQuarantineExpiry ip tag s
  | .ipStall ip ch => Sys2Proof.Machine.execIpStall ip ch s
  | .frspDelivery ip => Sys2Proof.Machine.execFrspDelivery ip s
  | .blsbFrameRx f => Sys2Proof.Machine.execBlsbFrameRx f s
  | .blsbRequestTimeout seq => Sys2Proof.Machine.execBlsbRequestTimeout seq s
  | .laserStatusRead => Sys2Proof.Machine.execLaserStatusRead s
  | .laserUnknown => Sys2Proof.Machine.execLaserUnknown s
  | .tickBoundary => Sys2Proof.Machine.execTickBoundary s
  | .markerBuild p => Sys2Proof.Machine.execMarkerBuild p s
  | .ledgerBuild p => Sys2Proof.Machine.execLedgerBuild p s
  | .calendarRead p bad badFlows => Sys2Proof.Machine.execCalendarRead p bad badFlows s
  | .powerTask p => Sys2Proof.Machine.execPowerTask p s
  | .gapCalStep l bias heater atEnd => Sys2Proof.Machine.execGapCalStep l bias heater atEnd s
  | .tickOverrun item unit => Sys2Proof.Machine.execTickOverrun item unit s
  | .badFlitRx p slot flit => Sys2Proof.Machine.execBadFlitRx p slot flit s
  | .dataFlitRx p slot flit => Sys2Proof.Machine.execDataFlitRx p slot flit s
  | .idleFlitRx p slot flit => Sys2Proof.Machine.execIdleFlitRx p slot flit s
  | .markerRx p flit ref => Sys2Proof.Machine.execMarkerRx p flit ref s
  | .ledgerRx p flit late => Sys2Proof.Machine.execLedgerRx p flit late s
  | .trainingFlitRx p slot flit ref => Sys2Proof.Machine.execTrainingFlitRx p slot flit ref s
  | .markerLost => Sys2Proof.Machine.execMarkerLost s
  | .holdoverExpired => Sys2Proof.Machine.execHoldoverExpired s
  | .flitSlot p slot contended uncorr => Sys2Proof.Machine.execFlitSlot p slot contended uncorr s
  | .packetHandoff p crossed => Sys2Proof.Machine.execPacketHandoff p crossed s
  | .flushTimer p => Sys2Proof.Machine.execFlushTimer p s
  | .ackTimerExpiry p => Sys2Proof.Machine.execAckTimerExpiry p s
  | .replayTimeout p => Sys2Proof.Machine.execReplayTimeout p s
  | .selEnter p => Sys2Proof.Machine.execSelEnter p s
  | .selExit p => Sys2Proof.Machine.execSelExit p s
  | .darkEntry p => Sys2Proof.Machine.execDarkEntry p s
  | .noFlitTimeout p => Sys2Proof.Machine.execNoFlitTimeout p s
  | .lossOfLight l => Sys2Proof.Machine.execLossOfLight l s
  | .cdrUnlock l => Sys2Proof.Machine.execCdrUnlock l s
  | .laneErrWindow l => Sys2Proof.Machine.execLaneErrWindow l s
  | .swapReq p bad => Sys2Proof.Machine.execSwapReq p bad s
  | .swapAck p bad => Sys2Proof.Machine.execSwapAck p bad s
  | .laneSwapEffective p => Sys2Proof.Machine.execLaneSwapEffective p s
  | .calOutReq p bad => Sys2Proof.Machine.execCalOutReq p bad s
  | .calOutAck p bad => Sys2Proof.Machine.execCalOutAck p bad s
  | .calInReq p bad => Sys2Proof.Machine.execCalInReq p bad s
  | .calInAck p bad => Sys2Proof.Machine.execCalInAck p bad s
  | .calRefuse p bad => Sys2Proof.Machine.execCalRefuse p bad s
  | .dcalRetry p => Sys2Proof.Machine.execDcalRetry p s
  | .dcalDue l temp => Sys2Proof.Machine.execDcalDue l temp s
  | .dcalStart => Sys2Proof.Machine.execDcalStart s
  | .calHandoverEffective p => Sys2Proof.Machine.execCalHandoverEffective p s
  | .dcalConverged p heater rbias => Sys2Proof.Machine.execDcalConverged p heater rbias s
  | .dcalTimeout p => Sys2Proof.Machine.execDcalTimeout p s
  | .calOverdue l => Sys2Proof.Machine.execCalOverdue l s
  | .linkReset p => Sys2Proof.Machine.execLinkReset p s
  | .coldTraining p => Sys2Proof.Machine.execColdTraining p s
  | .trainingPhaseEnd p done skews => Sys2Proof.Machine.execTrainingPhaseEnd p done skews s
  | .linkUp p => Sys2Proof.Machine.execLinkUp p s
  | .peerTrainingJoin p light => Sys2Proof.Machine.execPeerTrainingJoin p light s
  | .requestCommit => Sys2Proof.Machine.execRequestCommit s
  | .targetRequest p bad chestBad badWins => Sys2Proof.Machine.execTargetRequest p bad chestBad badWins s
  | .responseRx p bad => Sys2Proof.Machine.execResponseRx p bad s
  | .rspTimeout dst txid => Sys2Proof.Machine.execRspTimeout dst txid s
  | .busyResend dst txid => Sys2Proof.Machine.execBusyResend dst txid s
  | .relayForward p => Sys2Proof.Machine.execRelayForward p s
  | .portLost p => Sys2Proof.Machine.execPortLost p s
  | .drainComplete p => Sys2Proof.Machine.execDrainComplete p s
  | .drainTimeout p => Sys2Proof.Machine.execDrainTimeout p s
  | .fenceGo ip dst => Sys2Proof.Machine.execFenceGo ip dst s
  | .fenceComplete ip => Sys2Proof.Machine.execFenceComplete ip s
  | .atomicLaneEntry q => Sys2Proof.Machine.execAtomicLaneEntry q s
  | .atomicApply q => Sys2Proof.Machine.execAtomicApply q s
  | .atomicReleaseRx p => Sys2Proof.Machine.execAtomicReleaseRx p s
  | .chestAgeExpiry src txid => Sys2Proof.Machine.execChestAgeExpiry src txid s
  | .lecternRemoteAccess t kind dst addr bytes data => Sys2Proof.Machine.execLecternRemoteAccess t kind dst addr bytes data s
  | .schedModeChange p => Sys2Proof.Machine.execSchedModeChange p s
  | .scheduledDelivery p bad badWins => Sys2Proof.Machine.execScheduledDelivery p bad badWins s
  | .epochActivation => Sys2Proof.Machine.execEpochActivation s
  | .bankCopyBack => Sys2Proof.Machine.execBankCopyBack s
  | .powerEntry p => Sys2Proof.Machine.execPowerEntry p s
  | .powerEntryLate p => Sys2Proof.Machine.execPowerEntryLate p s
  | .p1Wake p => Sys2Proof.Machine.execP1Wake p s
  | .wakeStart p => Sys2Proof.Machine.execWakeStart p s
  | .lightWatch p => Sys2Proof.Machine.execLightWatch p s
  | .wakeComplete p => Sys2Proof.Machine.execWakeComplete p s
  | .wakeFail p => Sys2Proof.Machine.execWakeFail p s
  | .contributionArrival u bad => Sys2Proof.Machine.execContributionArrival u bad s
  | .foldComplete u bad => Sys2Proof.Machine.execFoldComplete u bad s
  | .segmentEncoded u => Sys2Proof.Machine.execSegmentEncoded u s
  | .orderStall u => Sys2Proof.Machine.execOrderStall u s
  | .colGo u => Sys2Proof.Machine.execColGo u s
  | .colAbort u => Sys2Proof.Machine.execColAbort u s
  | .colDescriptorRx c => Sys2Proof.Machine.execColDescriptorRx c s
  | .scratchReserved u => Sys2Proof.Machine.execScratchReserved u s
  | .colStartTick u => Sys2Proof.Machine.execColStartTick u s
  | .reduceFoldRx p bad => Sys2Proof.Machine.execReduceFoldRx p bad s
  | .reducePlaceRx p bad => Sys2Proof.Machine.execReducePlaceRx p bad s
  | .reduceReadyRx p bad => Sys2Proof.Machine.execReduceReadyRx p bad s
  | .reduceRestartRx p bad => Sys2Proof.Machine.execReduceRestartRx p bad s
  | .reduceAbortRx p bad => Sys2Proof.Machine.execReduceAbortRx p bad s
  | .dmaStart c => Sys2Proof.Machine.execDmaStart c s
  | .dmaLoad c => Sys2Proof.Machine.execDmaLoad c s
  | .dmaDoorbell c => Sys2Proof.Machine.execDmaDoorbell c s
  | .dmaStop c => Sys2Proof.Machine.execDmaStop c s
  | .dmaResume c => Sys2Proof.Machine.execDmaResume c s
  | .dmaSkip c => Sys2Proof.Machine.execDmaSkip c s
  | .dmaReset c => Sys2Proof.Machine.execDmaReset c s
  | .dmaSwedge c => Sys2Proof.Machine.execDmaSwedge c s
  | .descriptorFetched c => Sys2Proof.Machine.execDescriptorFetched c s
  | .extensionFetched c => Sys2Proof.Machine.execExtensionFetched c s
  | .indexCheckPass c => Sys2Proof.Machine.execIndexCheckPass c s
  | .burstStart c => Sys2Proof.Machine.execBurstStart c s
  | .dmaEngineGrant e bad => Sys2Proof.Machine.execDmaEngineGrant e bad s
  | .dmaTransactionAnswer c => Sys2Proof.Machine.execDmaTransactionAnswer c s
  | .writeBackAnswer c => Sys2Proof.Machine.execWriteBackAnswer c s
  | .halt c => Sys2Proof.Machine.execHalt c s
  | .dmaStall c => Sys2Proof.Machine.execDmaStall c s
  | .dmaEngineLost e => Sys2Proof.Machine.execDmaEngineLost e s
  | .shadowAttach q => Sys2Proof.Machine.execShadowAttach q s
  | .shadowRotation q => Sys2Proof.Machine.execShadowRotation q s
  | .engMismatch q eFails sFails => Sys2Proof.Machine.execEngMismatch q eFails sFails s
  | .engSelfcheck q e store uncorr => Sys2Proof.Machine.execEngSelfcheck q e store uncorr s
  | .handoverEffective q => Sys2Proof.Machine.execHandoverEffective q s
  | .arbSelfcheck q => Sys2Proof.Machine.execArbSelfcheck q s
  | .quadResetTimeout q => Sys2Proof.Machine.execQuadResetTimeout q s
  | .wbSelfcheck u => Sys2Proof.Machine.execWbSelfcheck u s
  | .testControllerSelfcheck => Sys2Proof.Machine.execTestControllerSelfcheck s
  | .centralSelfcheck unit => Sys2Proof.Machine.execCentralSelfcheck unit s
  | .tbMismatch aFails bFails aCts bCts => Sys2Proof.Machine.execTbMismatch aFails bFails aCts bCts s
  | .lecternMismatch aFails bFails => Sys2Proof.Machine.execLecternMismatch aFails bFails s
  | .lecternRestartDone => Sys2Proof.Machine.execLecternRestartDone s
  | .faultLogEntry => Sys2Proof.Machine.execFaultLogEntry s
  | .fltClear => Sys2Proof.Machine.execFltClear s
  | .proLockAcq agent => Sys2Proof.Machine.execProLockAcq agent s
  | .proLockRel agent => Sys2Proof.Machine.execProLockRel agent s
  | .proLockTimeout => Sys2Proof.Machine.execProLockTimeout s
  | .proStgWrite agent w => Sys2Proof.Machine.execProStgWrite agent w s
  | .proKeyStgWrite agent k w => Sys2Proof.Machine.execProKeyStgWrite agent k w s
  | .proCmdArm agent => Sys2Proof.Machine.execProCmdArm agent s
  | .proCmdCommit agent => Sys2Proof.Machine.execProCmdCommit agent s
  | .proCmdAbort agent => Sys2Proof.Machine.execProCmdAbort agent s
  | .armCheckDone bad => Sys2Proof.Machine.execArmCheckDone bad s
  | .protApply => Sys2Proof.Machine.execProtApply s
  | .armExpiry => Sys2Proof.Machine.execArmExpiry s
  | .mbxGo => Sys2Proof.Machine.execMbxGo s
  | .plvReqUpdate bytes => Sys2Proof.Machine.execPlvReqUpdate bytes s
  | .plvRspCapture => Sys2Proof.Machine.execPlvRspCapture s
  | .fragmentRx p bad => Sys2Proof.Machine.execFragmentRx p bad s
  | .reassemblyTimeout src pktid => Sys2Proof.Machine.execReassemblyTimeout src pktid s
  | .fragmentCreditTimeout p => Sys2Proof.Machine.execFragmentCreditTimeout p s
  | .ident => Sys2Proof.Machine.execIdent s
  | .stateGet => Sys2Proof.Machine.execStateGet s
  | .stateSet => Sys2Proof.Machine.execStateSet s
  | .dieidSet => Sys2Proof.Machine.execDieidSet s
  | .portMaskSet => Sys2Proof.Machine.execPortMaskSet s
  | .portStatus => Sys2Proof.Machine.execPortStatus s
  | .portTrain => Sys2Proof.Machine.execPortTrain s
  | .portWidth => Sys2Proof.Machine.execPortWidth s
  | .portLose => Sys2Proof.Machine.execPortLose s
  | .portReturn => Sys2Proof.Machine.execPortReturn s
  | .laneStatus => Sys2Proof.Machine.execLaneStatus s
  | .laneReturn => Sys2Proof.Machine.execLaneReturn s
  | .engineReturn => Sys2Proof.Machine.execEngineReturn s
  | .unitReturn => Sys2Proof.Machine.execUnitReturn s
  | .calWrite => Sys2Proof.Machine.execCalWrite s
  | .calRead => Sys2Proof.Machine.execCalRead s
  | .flowWrite => Sys2Proof.Machine.execFlowWrite s
  | .flowRead => Sys2Proof.Machine.execFlowRead s
  | .groupWrite => Sys2Proof.Machine.execGroupWrite s
  | .groupRead => Sys2Proof.Machine.execGroupRead s
  | .memberWrite => Sys2Proof.Machine.execMemberWrite s
  | .memberRead => Sys2Proof.Machine.execMemberRead s
  | .protStage => Sys2Proof.Machine.execProtStage s
  | .protArm => Sys2Proof.Machine.execProtArm s
  | .protCommit => Sys2Proof.Machine.execProtCommit s
  | .protAbort => Sys2Proof.Machine.execProtAbort s
  | .protStatus => Sys2Proof.Machine.execProtStatus s
  | .bistRun => Sys2Proof.Machine.execBistRun s
  | .bistStatus => Sys2Proof.Machine.execBistStatus s
  | .bistAbort => Sys2Proof.Machine.execBistAbort s
  | .repairSoft => Sys2Proof.Machine.execRepairSoft s
  | .repairBurn => Sys2Proof.Machine.execRepairBurn s
  | .repairRead => Sys2Proof.Machine.execRepairRead s
  | .dcalReq => Sys2Proof.Machine.execDcalReq s
  | .calCfgSet => Sys2Proof.Machine.execCalCfgSet s
  | .calStatus => Sys2Proof.Machine.execCalStatus s
  | .logRead bad => Sys2Proof.Machine.execLogRead bad s
  | .logCtl => Sys2Proof.Machine.execLogCtl s
  | .regRead => Sys2Proof.Machine.execRegRead s
  | .regWrite => Sys2Proof.Machine.execRegWrite s
  | .epochStatus => Sys2Proof.Machine.execEpochStatus s
  | .epochSet bad => Sys2Proof.Machine.execEpochSet bad s
  | .epochCancel => Sys2Proof.Machine.execEpochCancel s
  | .timeStage => Sys2Proof.Machine.execTimeStage s
  | .trainToReady => Sys2Proof.Machine.execTrainToReady s
  | .quiesceDrained => Sys2Proof.Machine.execQuiesceDrained s
  | .trainStall => Sys2Proof.Machine.execTrainStall s
  | .quiesceStall => Sys2Proof.Machine.execQuiesceStall s
  | .sliceStart => Sys2Proof.Machine.execSliceStart s
  | .bistStep sig fails => Sys2Proof.Machine.execBistStep sig fails s
  | .sliceBudgetExpiry => Sys2Proof.Machine.execSliceBudgetExpiry s
  | .sliceEnd => Sys2Proof.Machine.execSliceEnd s
  | .sweepTimer => Sys2Proof.Machine.execSweepTimer s
  | .burnGo agent => Sys2Proof.Machine.execBurnGo agent s
  | .burnAbort agent => Sys2Proof.Machine.execBurnAbort agent s
  | .burnExpiry => Sys2Proof.Machine.execBurnExpiry s
  | .burnComplete good => Sys2Proof.Machine.execBurnComplete good s
  | .tapWsp w => Sys2Proof.Machine.execTapWsp w s
  | .tapTstAcc off write data => Sys2Proof.Machine.execTapTstAcc off write data s
  | .tapMemRead array inst row save => Sys2Proof.Machine.execTapMemRead array inst row save s
  | .tapScan => Sys2Proof.Machine.execTapScan s
  | .tapBypass => Sys2Proof.Machine.execTapBypass s
  | .lnDcalReq l => Sys2Proof.Machine.execLnDcalReq l s
  | .lnCntClr l => Sys2Proof.Machine.execLnCntClr l s
  | .prtRetrain p => Sys2Proof.Machine.execPrtRetrain p s
  | .prtCold p => Sys2Proof.Machine.execPrtCold p s
  | .forceWake p => Sys2Proof.Machine.execForceWake p s
  | .resetRelease => Sys2Proof.Machine.execResetRelease s
  | .refclkReturn => Sys2Proof.Machine.execRefclkReturn s
  | .supplyRestored vddH => Sys2Proof.Machine.execSupplyRestored vddH s
  | .hreqTransfer ip data bad => Sys2Proof.Machine.execHreqTransfer ip data bad s
  | .quadResetComplete q => Sys2Proof.Machine.execQuadResetComplete q s
  | .recoveryEnd => Sys2Proof.Machine.execRecoveryEnd s
  | .paceLevelFall line => Sys2Proof.Machine.execPaceLevelFall line s
  | .unknownOpcodeRequest => Sys2Proof.Machine.execUnknownOpcodeRequest s

end Sys2Proof.Machine
end

