-- ==== Sys2Proof/Machine/Step.lean ====
section
/-!
DEFINITION. One step: the command at the front of the queue runs; on an empty queue one core cycle passes.
-/
namespace Sys2Proof.Machine
open Host

/-- A step takes the command at the front of the queue and runs it on the state with the rest of the queue. On an empty queue
the clock advances one cycle (log 1). -/
def step (s : State) : Host.Outcome State Fault Refusal :=
  match s.pending with
  | [] => .next (cyclePasses s)
  | c :: rest => exec c { s with pending := rest }

/-- `s` with the command that the word spells in front of its queue; the table gives no row any bits, so no
word spells a command. -/
def State.withFetchWord (s : State) (nbits w : Nat) : State :=
  match decodeTableWord nbits w with
  | some c => { s with pending := c :: s.pending }
  | none => s

end Sys2Proof.Machine
end

