-- ==== Sys2Proof/Safety.lean ====
section
/-!
DEFINITION. What the statements speak of: the parts of the state, which of them each command may change, and
what a step leaves alone.
-/
namespace Sys2Proof.Machine

/-- The parts of the state beside the queue. -/
inductive Part where
  | free | cts | regs | inForce | bumps | evts | bnd | flt | efuse | blsb | tb | lanes | ports | banks
  | ips | tx | wb | col | dma | granted | prot | lect | quads | leaving | returning | plv | tst | bring
  deriving DecidableEq, Repr

/-- Every part. -/
def Part.all : List Part :=
  [.free, .cts, .regs, .inForce, .bumps, .evts, .bnd, .flt, .efuse, .blsb, .tb, .lanes, .ports, .banks,
   .ips, .tx, .wb, .col, .dma, .granted, .prot, .lect, .quads, .leaving, .returning, .plv, .tst, .bring]

/-- A part is the same in both states. -/
def Part.same : Part → State → State → Prop
  | .free, s, t => t.free = s.free
  | .cts, s, t => t.cts = s.cts
  | .regs, s, t => t.regs = s.regs
  | .inForce, s, t => t.inForce = s.inForce
  | .bumps, s, t => t.bumps = s.bumps
  | .evts, s, t => t.evts = s.evts
  | .bnd, s, t => t.bnd = s.bnd
  | .flt, s, t => t.flt = s.flt
  | .efuse, s, t => t.efuse = s.efuse
  | .blsb, s, t => t.blsb = s.blsb
  | .tb, s, t => t.tb = s.tb
  | .lanes, s, t => t.lanes = s.lanes
  | .ports, s, t => t.ports = s.ports
  | .banks, s, t => t.banks = s.banks
  | .ips, s, t => t.ips = s.ips
  | .tx, s, t => t.tx = s.tx
  | .wb, s, t => t.wb = s.wb
  | .col, s, t => t.col = s.col
  | .dma, s, t => t.dma = s.dma
  | .granted, s, t => t.granted = s.granted
  | .prot, s, t => t.prot = s.prot
  | .lect, s, t => t.lect = s.lect
  | .quads, s, t => t.quads = s.quads
  | .leaving, s, t => t.leaving = s.leaving
  | .returning, s, t => t.returning = s.returning
  | .plv, s, t => t.plv = s.plv
  | .tst, s, t => t.tst = s.tst
  | .bring, s, t => t.bring = s.bring

/-- The parts a command may change, the queue apart. -/
def touches : Instr → List Part
  | .porstAssert | .warmReset | .vddcLowReset
    => Part.all
  | .supplyA | .supplyH
    => [.regs, .evts]
  | .freeze
    => [.free, .regs, .bnd, .efuse, .lanes, .ports, .tst]
  | .refclkLoss
    => [.regs, .evts, .bnd, .flt]
  | .refclkLossExpiry | .pllUnlock
    => [.regs, .evts, .bnd, .flt, .lanes, .ports]
  | .pllLock | .sramInitDone | .resetRelease
    => [.bnd]
  | .efuseLoad
    => [.regs, .bumps, .evts, .bnd, .lanes, .ports, .tst]
  | .lecternStart
    => [.regs, .evts, .bnd, .blsb, .banks]
  | .resetStepOverrun | .centralSelfcheck _
    => [.free, .regs, .evts, .bnd, .flt, .lanes, .ports]
  | .paceEdge _
    => [.regs, .bumps, .evts, .ports, .ips, .tx, .wb, .col, .dma]
  | .mgtTimeout
    => [.evts, .bnd]
  | .registerWrite _ _ _ | .evtClrWrite _ _ | .evtSetWrite _ _ | .evtCntWrite _ _ _ | .mbxGo
    => [.free, .regs, .bumps, .evts, .bnd, .flt, .lanes, .ports, .banks, .ips, .tx, .wb, .col, .dma, .prot, .plv, .tst]
  | .tbCtsLoRead | .lnCtsLoRead _ _ | .lnCntClr _ | .refclkReturn
    => [.regs, .bnd]
  | .freqTransfer _ _ _
    => [.regs, .bumps, .evts, .ports, .ips, .tx]
  | .hrspTransfer _ _ _ | .hreqTimeout _ _
    => [.free, .regs, .bumps, .evts, .ports, .ips, .tx, .wb, .col]
  | .quarantineExpiry _ _
    => [.ips]
  | .ipStall _ _
    => [.evts, .ips]
  | .frspDelivery _
    => [.free, .regs, .bumps, .ports, .ips]
  | .blsbFrameRx _
    => [.free, .regs, .evts, .blsb, .lanes]
  | .blsbRequestTimeout _
    => [.regs, .evts, .blsb]
  | .laserStatusRead
    => [.blsb]
  | .laserUnknown | .proLockTimeout | .supplyRestored _ | .paceLevelFall _
    => [.regs]
  | .tickBoundary
    => [.cts, .regs, .inForce, .bumps, .evts, .bnd, .flt, .tb, .lanes, .ports, .banks, .ips, .tx, .wb, .col, .dma, .quads, .leaving, .returning, .bring]
  | .markerBuild _ | .ledgerBuild _ | .powerTask _ | .selEnter _
    => [.cts, .bumps, .evts, .ports]
  | .calendarRead _ _ _
    => [.free, .flt, .ports, .banks, .tst]
  | .gapCalStep _ _ _ _
    => [.free, .regs, .bumps, .evts, .blsb, .lanes, .ports]
  | .tickOverrun _ _
    => [.free, .regs, .bumps, .evts, .bnd, .flt, .blsb, .tb, .lanes, .ports, .quads, .returning, .tst]
  | .badFlitRx _ _ _ | .dataFlitRx _ _ _ | .idleFlitRx _ _ _ | .markerRx _ _ _ | .ledgerRx _ _ _
  | .trainingFlitRx _ _ _ _
    => [.cts, .regs, .bumps, .evts, .tb, .lanes, .ports]
  | .markerLost
    => [.cts, .bumps, .evts, .tb]
  | .holdoverExpired
    => [.evts, .tb]
  | .flitSlot _ _ _ _
    => [.free, .cts, .regs, .bumps, .evts, .flt, .lanes, .ports, .tx, .quads, .tst]
  | .packetHandoff _ _ | .relayForward _ | .wakeStart _
    => [.regs, .bumps, .ports]
  | .flushTimer _ | .ackTimerExpiry _ | .selExit _ | .darkEntry _ | .noFlitTimeout _ | .dcalRetry _ | .dcalStart
  | .peerTrainingJoin _ _ | .lightWatch _
    => [.ports]
  | .replayTimeout _ | .fragmentCreditTimeout _
    => [.regs, .bumps, .evts, .ports]
  | .lossOfLight _
    => [.regs, .bumps, .evts, .blsb, .lanes, .ports]
  | .cdrUnlock _
    => [.evts, .blsb, .lanes, .ports]
  | .laneErrWindow _ | .wakeComplete _
    => [.evts, .blsb, .ports]
  | .swapReq _ _
    => [.free, .evts, .flt, .blsb, .ports, .tst]
  | .swapAck _ _ | .calOutReq _ _ | .calOutAck _ _ | .calInReq _ _ | .calInAck _ _ | .calRefuse _ _
    => [.free, .evts, .flt, .ports, .tst]
  | .laneSwapEffective _
    => [.regs, .bumps, .evts, .flt, .lanes, .ports]
  | .dcalDue _ _
    => [.regs, .evts, .lanes]
  | .calHandoverEffective _ | .linkUp _
    => [.regs, .bumps, .evts, .lanes, .ports]
  | .dcalConverged _ _ _
    => [.lanes, .ports]
  | .dcalTimeout _
    => [.evts, .flt, .lanes, .ports]
  | .calOverdue _
    => [.evts, .lanes]
  | .linkReset _
    => [.regs, .bumps, .evts, .flt, .blsb, .lanes, .ports]
  | .coldTraining _
    => [.regs, .bumps, .evts, .flt, .blsb, .lanes, .ports, .ips, .tx, .wb, .col]
  | .trainingPhaseEnd _ _ _
    => [.free, .regs, .evts, .flt, .lanes, .ports]
  | .requestCommit
    => [.free, .regs, .bumps, .evts, .flt, .ports, .ips, .tx, .wb, .col, .prot, .tst]
  | .targetRequest _ _ _ _ | .scheduledDelivery _ _ _
    => [.free, .regs, .bumps, .evts, .flt, .ports, .ips, .tx, .prot, .tst]
  | .responseRx _ _ | .reduceFoldRx _ _ | .reducePlaceRx _ _ | .reduceReadyRx _ _ | .reduceRestartRx _ _
  | .reduceAbortRx _ _
    => [.free, .regs, .bumps, .evts, .flt, .ports, .ips, .tx, .wb, .col, .tst]
  | .rspTimeout _ _ | .busyResend _ _ | .drainTimeout _
    => [.regs, .bumps, .evts, .flt, .ports, .ips, .tx, .wb, .col]
  | .portLost _
    => [.free, .regs, .bumps, .evts, .flt, .lanes, .ports, .ips, .tx, .wb, .col, .prot, .tst]
  | .drainComplete _ | .schedModeChange _
    => [.evts, .ports]
  | .fenceGo _ _
    => [.regs, .evts, .bnd, .tx]
  | .fenceComplete _ | .lecternRemoteAccess _ _ _ _ _ _
    => [.tx]
  | .atomicLaneEntry _
    => [.regs, .bumps, .evts, .ips, .tx]
  | .atomicApply _
    => [.regs, .bumps, .ips, .tx]
  | .atomicReleaseRx _
    => [.free, .regs, .bumps, .evts, .flt, .ports, .tx, .tst]
  | .chestAgeExpiry _ _
    => [.regs, .bumps, .tx]
  | .epochActivation
    => [.regs, .bumps, .evts, .tb, .ports, .banks, .ips, .tx, .wb, .col]
  | .bankCopyBack
    => [.banks]
  | .powerEntry _ | .powerEntryLate _
    => [.regs, .bumps, .flt, .lanes, .ports]
  | .p1Wake _
    => [.regs, .bumps, .evts, .blsb, .ports]
  | .wakeFail _
    => [.evts, .flt, .ports]
  | .contributionArrival _ _
    => [.free, .regs, .bumps, .evts, .flt, .ports, .ips, .tx, .wb, .tst]
  | .foldComplete _ _
    => [.free, .regs, .bumps, .evts, .flt, .wb, .tst]
  | .segmentEncoded _
    => [.free, .regs, .bumps, .evts, .ports, .ips, .tx, .wb, .col, .dma]
  | .orderStall _
    => [.evts, .wb, .col]
  | .colGo _
    => [.evts, .bnd, .ips, .col]
  | .colAbort _
    => [.regs, .bumps, .evts, .bnd, .ports, .ips, .tx, .wb, .col]
  | .colDescriptorRx _
    => [.free, .regs, .bumps, .evts, .flt, .ports, .banks, .ips, .tx, .wb, .col, .tst]
  | .scratchReserved _
    => [.evts, .col]
  | .colStartTick _
    => [.regs, .bumps, .evts, .ports, .ips, .tx, .wb, .col]
  | .dmaStart _ | .dmaLoad _ | .dmaResume _ | .dmaSkip _
    => [.regs, .bumps, .evts, .bnd, .dma]
  | .dmaDoorbell _ | .dmaStop _
    => [.evts, .bnd, .dma]
  | .dmaReset _
    => [.regs, .evts, .bnd, .wb, .dma]
  | .dmaSwedge _
    => [.regs, .evts, .bnd, .dma]
  | .descriptorFetched _ | .extensionFetched _ | .indexCheckPass _ | .burstStart _ | .dmaTransactionAnswer _
  | .writeBackAnswer _
    => [.regs, .bumps, .evts, .tx, .wb, .dma]
  | .dmaEngineGrant _ _
    => [.free, .regs, .bumps, .evts, .flt, .ports, .ips, .tx, .wb, .col, .dma, .granted, .tst]
  | .halt _
    => [.evts, .wb, .dma]
  | .dmaStall _
    => [.evts, .dma]
  | .dmaEngineLost _ | .wbSelfcheck _
    => [.flt, .leaving]
  | .shadowAttach _ | .quadResetComplete _
    => [.quads]
  | .shadowRotation _
    => [.regs, .bumps, .evts, .quads, .tst]
  | .engMismatch _ _ _
    => [.regs, .bumps, .evts, .flt, .ports, .quads]
  | .engSelfcheck _ _ _ _
    => [.free, .regs, .bumps, .evts, .flt, .ports, .quads, .tst]
  | .handoverEffective _
    => [.regs, .bumps, .evts, .flt, .blsb, .lanes, .ports, .quads, .tst]
  | .arbSelfcheck _
    => [.regs, .bumps, .evts, .flt, .ports, .ips, .tx, .wb, .col, .dma, .quads]
  | .quadResetTimeout _
    => [.ports, .quads]
  | .testControllerSelfcheck | .sliceBudgetExpiry | .sliceEnd
    => [.regs, .bumps, .evts, .flt, .ports, .quads, .returning, .tst]
  | .tbMismatch _ _ _ _
    => [.free, .regs, .evts, .bnd, .flt, .tb, .lanes, .ports]
  | .lecternMismatch _ _
    => [.free, .regs, .bumps, .evts, .bnd, .flt, .lanes, .ports, .ips, .tx, .lect, .plv]
  | .lecternRestartDone
    => [.free, .regs, .bumps, .evts, .bnd, .flt, .lanes, .ports, .banks, .ips, .tx, .wb, .col, .dma, .prot, .lect, .plv, .tst]
  | .faultLogEntry
    => [.regs, .bumps, .evts, .flt]
  | .fltClear
    => [.bnd, .flt]
  | .proLockAcq _ | .proLockRel _ | .proKeyStgWrite _ _ _ | .proCmdArm _ | .proCmdCommit _
    => [.regs, .evts, .bnd, .prot]
  | .proStgWrite _ _
    => [.evts, .bnd, .prot]
  | .proCmdAbort _
    => [.free, .regs, .bumps, .evts, .bnd, .ports, .prot, .plv]
  | .armCheckDone _ | .protStage | .protArm | .protCommit | .protAbort
    => [.free, .regs, .bumps, .evts, .ports, .prot, .plv]
  | .protApply
    => [.regs, .bumps, .evts, .ports, .banks, .prot]
  | .armExpiry
    => [.regs, .evts, .prot]
  | .plvReqUpdate _
    => [.plv]
  | .plvRspCapture | .sweepTimer | .tapBypass
    => [.tst]
  | .fragmentRx _ _ | .logRead _
    => [.free, .regs, .bumps, .evts, .flt, .ports, .plv, .tst]
  | .reassemblyTimeout _ _
    => [.regs, .bumps, .evts, .plv]
  | .ident | .stateGet | .portStatus | .portTrain | .laneStatus | .calRead | .flowRead | .groupRead | .memberRead
  | .protStatus | .bistStatus | .repairRead | .calCfgSet | .calStatus | .regRead | .epochStatus | .timeStage
  | .unknownOpcodeRequest
    => [.free, .regs, .bumps, .evts, .ports, .plv]
  | .stateSet
    => [.free, .regs, .bumps, .evts, .bnd, .ports, .plv]
  | .dieidSet | .portMaskSet | .regWrite | .tapTstAcc _ _ _
    => [.free, .regs, .bumps, .evts, .flt, .lanes, .ports, .banks, .ips, .tx, .wb, .col, .dma, .prot, .plv, .tst]
  | .portWidth | .portLose
    => [.free, .regs, .bumps, .evts, .flt, .ports, .lect, .plv]
  | .portReturn | .laneReturn
    => [.free, .regs, .bumps, .evts, .flt, .ports, .lect, .returning, .plv]
  | .engineReturn | .unitReturn | .repairSoft | .repairBurn
    => [.free, .regs, .bumps, .evts, .flt, .ports, .lect, .plv, .tst]
  | .calWrite | .flowWrite | .groupWrite | .memberWrite | .epochCancel
    => [.free, .regs, .bumps, .evts, .ports, .banks, .plv]
  | .bistRun
    => [.free, .regs, .bumps, .evts, .ports, .plv, .tst]
  | .bistAbort
    => [.free, .regs, .bumps, .evts, .flt, .ports, .quads, .returning, .plv, .tst]
  | .dcalReq
    => [.free, .regs, .bumps, .evts, .lanes, .ports, .plv]
  | .logCtl
    => [.free, .regs, .bumps, .evts, .flt, .ports, .plv]
  | .epochSet _
    => [.free, .regs, .bumps, .evts, .flt, .ports, .banks, .plv, .tst]
  | .trainToReady
    => [.regs, .bumps, .evts, .bnd, .flt, .ports, .ips, .tx, .wb, .col, .bring]
  | .quiesceDrained
    => [.regs, .bumps, .evts, .bnd, .flt, .ports, .ips, .tx, .bring]
  | .trainStall | .quiesceStall
    => [.evts, .bring]
  | .sliceStart | .bistStep _ _
    => [.cts, .regs, .bumps, .evts, .tst]
  | .burnGo _ | .burnAbort _
    => [.regs, .evts, .bnd, .tst]
  | .burnExpiry
    => [.regs, .tst]
  | .burnComplete _
    => [.free, .regs, .evts, .efuse, .tst]
  | .tapWsp _
    => [.free, .tst]
  | .tapMemRead _ _ _ _ | .tapScan
    => [.free, .regs, .evts, .prot, .tst]
  | .lnDcalReq _
    => [.evts, .bnd, .lanes]
  | .prtRetrain _ | .prtCold _ | .forceWake _
    => [.bnd, .ports]
  | .hreqTransfer _ _ _
    => [.free, .regs, .bumps, .evts, .flt, .ports, .ips, .tst]
  | .recoveryEnd
    => [.lect]

/-! ### Two states compared -/

/-- Every register beside those listed reads as before. -/
def KeepsRegs (as : List Nat) (s t : State) : Prop := ∀ a, a ∉ as → getReg t a = getReg s a

/-- Every event block beside those listed holds what it held. -/
def KeepsEvts (bs : List Nat) (s t : State) : Prop := ∀ b, b ∉ bs → getEvt t b = getEvt s b

/-- Every lane beside those listed is as before; and so for ports, inner ports, Workbench units, streams, channels and quads. -/
def KeepsLanes (ls : List Nat) (s t : State) : Prop := ∀ l, l ∉ ls → t.lane l = s.lane l
def KeepsPorts (ps : List Nat) (s t : State) : Prop := ∀ p, p ∉ ps → t.port p = s.port p
def KeepsIps (is : List Nat) (s t : State) : Prop := ∀ i, i ∉ is → t.ip i = s.ip i
def KeepsWbs (us : List Nat) (s t : State) : Prop := ∀ u, u ∉ us → t.wbUnit u = s.wbUnit u
def KeepsStreams (us : List Nat) (s t : State) : Prop := ∀ u, u ∉ us → t.stream u = s.stream u
def KeepsChans (cs : List Nat) (s t : State) : Prop := ∀ c, c ∉ cs → t.chan c = s.chan c
def KeepsQuads (qs : List Nat) (s t : State) : Prop := ∀ q, q ∉ qs → t.quad q = s.quad q

/-- Hardware has already raised event `e` of the block at base `b` in this cycle (R10). -/
def Occurred (b e : Nat) (s : State) : Bool := (getEvt s b).hw &&& BitVec.ofNat 32 (2 ^ e) != 0

/-- Hardware has raised event `e` of the block at base `b`, and nothing else happened to any event block: the raw bit is set, and the
counter has risen by one, saturating, where the event had not occurred in this cycle before (R10). -/
def Raised (b e : Nat) (s t : State) : Prop :=
  (getEvt t b).raw = (getEvt s b).raw ||| BitVec.ofNat 32 (2 ^ e) ∧
  (getEvt t b).count e = (if Occurred b e s then (getEvt s b).count e else min ((getEvt s b).count e + 1) 255) ∧
  (∀ j, j ≠ e → j < 32 → (getEvt t b).count j = (getEvt s b).count j) ∧
  (getEvt t b).hw = (getEvt s b).hw ||| BitVec.ofNat 32 (2 ^ e) ∧
  (getEvt t b).en = (getEvt s b).en ∧ (getEvt t b).pend = (getEvt s b).pend ∧ KeepsEvts [b] s t

/-- The field of `w` bits from `lo` of the register at `a` reads `x`, and nothing else of any register has changed. -/
def FieldSet (a lo w x : Nat) (s t : State) : Prop :=
  getF t a lo w = x ∧ (∀ l u, l + u ≤ lo ∨ lo + w ≤ l → getF t a l u = getF s a l u) ∧ KeepsRegs [a] s t

/-- Record `r` was handed to the fault log, behind those it held, with what the state of its unit was then (R19, R393). -/
def Handed (r : FaultRec) (s t : State) : Prop := ∃ x, t.flt = { s.flt with held := s.flt.held ++ [r], snap := some (r.unit, x) }

/-- One record was handed to the fault log: its unit acted on, its code and its action, at the present time (R393, R396). -/
def Recorded (unit code : Nat) (act : FaultAct) (s t : State) : Prop :=
  ∃ r : FaultRec, r.cts = s.cts ∧ r.unit = unit ∧ r.code = code ∧ r.action = act.code ∧ Handed r s t

/-! ### Whole-machine rules -/

/-- The changes of adapter state the table of R423 allows, each with the command that makes it: from `a` to `b`, with the state
recorded in MGT_STATE.PREV. -/
def moves (c : Instr) (a b prev : AdpState) : Bool :=
  match b with
  | .off => c = .porstAssert || c = .warmReset || c = .vddcLowReset
  | .frozen => c = .freeze && a ≠ .off
  | .fault => a ≠ .frozen
  | .boot => (a = .off && c = .lecternStart) || (a = .test && prev = .boot && c = .tickBoundary)
  | .train => a = .boot && c = .tickBoundary
  | .ready => (a = .train && c = .trainToReady) || (a = .quiesce && c = .quiesceDrained) || (a = .test && prev = .ready && c = .tickBoundary)
  | .run => (a = .ready || a = .quiesce) && c = .tickBoundary
  | .quiesce => a = .run && c = .tickBoundary
  | .test => (a = .boot || a = .ready) && c = .tickBoundary

/-- What holds of the boundary in every state: in OFF and FROZEN the management port and the sideband rest; in OFF, FROZEN and FAULT
the lane cells are dark and the inner ports low (R51, R53, R386); a pending change of state is one R423 lets STATE_SET order; TEST
was entered from BOOT or READY; the reset sequence is over exactly where the adapter is past OFF (R52). -/
def BoundaryOk (s : State) : Prop :=
  (s.bnd.adp = .off ∨ s.bnd.adp = .frozen → s.bnd.mready = false ∧ s.bnd.access = none ∧ s.bnd.blsbCk = false) ∧
  (s.bnd.adp = .off ∨ s.bnd.adp = .frozen ∨ s.bnd.adp = .fault → s.bnd.cellsDark = true ∧ s.bnd.portsLow = true ∧ s.bnd.nextState = none) ∧
  (∀ n, s.bnd.nextState = some n → moves .tickBoundary s.bnd.adp n s.bnd.prev = true ∧ n ≠ .fault) ∧
  (s.bnd.adp = .test → s.bnd.prev = .boot ∨ s.bnd.prev = .ready) ∧
  (s.bnd.step = .done ↔ s.bnd.adp ≠ .off)

/-- Frozen, and with no reset waiting (R53). -/
def StaysFrozen (s : State) : Prop :=
  s.bnd.adp = .frozen ∧ BoundaryOk s ∧ ∀ c ∈ s.pending, c ≠ .porstAssert ∧ c ≠ .warmReset ∧ c ≠ .vddcLowReset

/-! ### Software writes -/

/-- The management port takes a write to `a` and carries it out in its cycle: MREADY is 1, the adapter acts or the register is one of
those that can be written in FAULT (R485), and the Lectern is not restarting where the address lies in the MGT block (R38, R443). -/
def WriteTaken (a : Nat) (s : State) : Prop :=
  s.mready = true ∧ (s.acts || faultWritable a) = true ∧ (s.acts = true → inMgt a = false ∨ s.lect.restart = none)

/-- The write has finished: MRVALID in this cycle, without MRERR (R38). -/
def Finished (s t : State) : Prop := t.bnd.mrvalid = some s.cts ∧ t.bnd.mrerr = false

/-- The state in which a write's checks are made: a MAGENT access to the PRO block has restarted the lock's time (R408). -/
def checkedIn (agent : Bool) (a : Nat) (s : State) : State := if agent && inPro a then touchLock true s else s

/-- R408 admits the write. -/
def agentAdmitted (agent : Bool) (a : Nat) (v : Word) (s : State) : Bool := agent && (lockHeld s || (a == proLock && fld v 0 1 == 1))

/-- Registers whose write does more than store fields (R490: the others have no behaviour of their own). -/
def ownBehaviour (a : Nat) : Bool :=
  [glbDieid, fltCtl, mgtMbxCmd, proLock, proCmd, proStgData, schFlowStg, colGrpStg, colMemStg, colCmd, tstBurnCmd].contains a ||
    (decide (mgtMbxReq 0 ≤ a) && decide (a ≤ mgtMbxReq 131)) || (decide (proKeyStg 0 ≤ a) && decide (a ≤ proKeyStg 7)) ||
    (decide (0x60000 ≤ a) && decide (a < 0x70000)) ||
    (decide (0x08000 ≤ a ∧ a < 0x0C000 ∧ a % 0x1000 < 0x180) && decide (a % 0x20 = 0x10)) ||
    (decide (0x10000 ≤ a ∧ a < 0x20000) && (a == prtPwrCtl ((a - 0x10000) / 0x400) || a == prtLctl ((a - 0x10000) / 0x400))) ||
    (decide (0x20000 ≤ a ∧ a < 0x2A000) && a == lnCtl ((a - 0x20000) / 0x80)) ||
    (decide (0x31000 ≤ a ∧ a < 0x39000) && a % 0x100 == 0x04)

/-! ### Plovirko requests -/

/-- Check 3 of R427: a tag is right and its NONCE above the last one accepted, or none is needed on this path (R409, R430). -/
def tagOk (o : OpRow) (r : PlvReq) (s : State) : Bool :=
  if plvTag r.bytes then tagRight r.bytes s && decide (fmNonce s < plvNonce r.bytes)
  else o.tag == .none || (o.tag == .remote && (match r.path with | .remote _ _ => false | _ => true))

/-- The state in which the work of a request begins: it is taken up, and the NONCE of an accepted tag stands in PRO_FM_NONCE. -/
def takenUp (r : PlvReq) (s : State) : State :=
  if plvTag r.bytes then setFmNonce (plvNonce r.bytes) (takeUp r s) else takeUp r s

/-- `r` is the request the Lectern takes up next, it has opcode `opc`, and checks 1 to 4 of R427 and that of its UNIT pass. -/
def Admitted (opc : Nat) (r : PlvReq) (s : State) : Prop :=
  nextReq s = some r ∧ unknownOpcode r.bytes = false ∧ plvOpc r.bytes = opc ∧
  ∃ o, opRow opc = some o ∧ lengthOk o.len r.bytes = true ∧ tagOk o r s = true ∧ o.legal.contains s.bnd.adp.code = true ∧
    unitOk o.units (plvUnit r.bytes) = true

end Sys2Proof.Machine
end

