-- ==== Sys2Proof/Certificates/Slice0/Obligations.lean ====
section
/-!
DEFINITION. The statements for the provers. Each docstring names the rules of the specification that its statement formalises.
-/
open Host Sys2Proof Sys2Proof.Machine

/-! ### The machine -/

/-- A step runs the command at the front of the queue on the state with the rest of the queue. -/
def Obligations.StepRunsTheFrontCommand : Prop :=
  ∀ (c : Instr) (rest : List Instr) (s : State), s.pending = c :: rest → step s = exec c { s with pending := rest }

/-- On an empty queue one cycle passes (log 1): CTS counts, or stands still where the clocks are stopped, and no command is made. -/
def Obligations.EmptyQueuePassesACycle : Prop :=
  ∀ s : State, s.pending = [] → ∃ t, step s = .next t ∧ t.pending = [] ∧ t.cts = if s.counts then s.cts + 1 else s.cts

/-- Every command answers a next state, in every state and for all operands. -/
def Obligations.EveryCommandAnswers : Prop := ∀ (c : Instr) (s : State), ∃ t, exec c s = .next t

/-- Frames: a command leaves the queue alone, and every part of the state that `touches` does not name for it. -/
def Obligations.CommandsTouchOnlyTheirParts : Prop :=
  ∀ (c : Instr) (s t : State), exec c s = .next t → t.pending = s.pending ∧ ∀ p, p ∉ touches c → p.same s t

/-- The adapter under a power-on reset (R50, R51, R422). -/
def Obligations.ResetState : Prop :=
  State.reset.pending = [] ∧ State.reset.bnd.adp = .off ∧ State.reset.cts = 0 ∧ State.reset.bnd.cellsDark = true ∧
  State.reset.bnd.portsLow = true ∧ State.reset.bnd.mready = false ∧ State.reset.bnd.pllLock = false ∧
  State.reset.prot.key = none ∧ State.reset.prot.img = [] ∧ State.reset.flt.count = 0 ∧ State.reset.tst.soft = [] ∧
  getF State.reset glbRstcause 0 4 = 1 ∧ (∀ a, a ≠ glbRstcause → getReg State.reset a = regReset a)

/-- Every step keeps what holds of the boundary. -/
def Obligations.StepKeepsBoundary : Prop := ∀ s t : State, BoundaryOk s → step s = .next t → BoundaryOk t

/-- It holds after reset. -/
def Obligations.ResetHasBoundary : Prop := BoundaryOk State.reset

/-- The adapter changes state only as the table of R423 allows, and only by the command that the rules name for the change. -/
def Obligations.AdapterStatesChangeAsAllowed : Prop :=
  ∀ (c : Instr) (s t : State), BoundaryOk s → exec c s = .next t → t.bnd.adp = s.bnd.adp ∨ moves c s.bnd.adp t.bnd.adp s.bnd.prev = true

/-- Nothing but a reset leaves FROZEN, and while it lasts CTS stands still and no link, register or memory of the data plane
changes (R53): what the test port may change is the self-test part and what a zeroisation clears. -/
def Obligations.FrozenStaysFrozen : Prop :=
  ∀ s t : State, StaysFrozen s → step s = .next t →
    StaysFrozen t ∧ t.cts = s.cts ∧ t.lanes = s.lanes ∧ t.ports = s.ports ∧ t.ips = s.ips ∧ t.tx = s.tx ∧ t.wb = s.wb ∧ t.col = s.col ∧
    t.dma = s.dma ∧ t.banks = s.banks ∧ t.quads = s.quads ∧ t.efuse = s.efuse ∧ t.flt = s.flt ∧ t.tb = s.tb ∧ t.blsb = s.blsb ∧ t.plv = s.plv

/-! ### Resets, clocks and supplies -/

/-- R50, R51, R61: a power-on reset, and a VDD_C low reset, put everything at its reset value but the eFuse, the reset causes recorded
before, the commands that wait and the model's counter of free values. GLB_RSTCAUSE gains the reset's own bit, and FROZEN where the reset
ended a freeze. R49, R50: an adapter reset keeps the PLL, the eFuse, the fault log, the soft repairs and the heater set-points, and puts
everything else at its reset value but what repair records keep out; a power-on reset that is asserted overrides it. -/
def Obligations.Resets : Prop :=
  (∀ (s : State) (c : Instr) (cause : Nat), (c = .porstAssert ∧ cause = 0) ∨ (c = .vddcLowReset ∧ cause = 1) →
      ∃ t, exec c s = .next t ∧
        t = { State.reset with pending := s.pending, free := t.free, efuse := t.efuse, regs := t.regs } ∧
        getF t glbRstcause cause 1 = 1 ∧ getF t glbRstcause (1 - cause) 1 = getF s glbRstcause (1 - cause) 1 ∧
        getF t glbRstcause 2 1 = getF s glbRstcause 2 1 ∧
        getF t glbRstcause 3 1 = (if s.bnd.adp = .frozen then 1 else getF s glbRstcause 3 1) ∧
        (∀ a, a ≠ glbRstcause → getReg t a = regReset a) ∧ (s.tst.burning = none → t.efuse = s.efuse)) ∧
  (∀ s : State,
      (s.bnd.step = .heldPll → exec .warmReset s = .next s) ∧
      (s.bnd.step ≠ .heldPll → ∃ t, exec .warmReset s = .next t ∧
        t = { State.reset with
          pending := s.pending, free := t.free, efuse := t.efuse, flt := t.flt, regs := t.regs, lanes := t.lanes, ports := t.ports, tst := t.tst
          bnd := { pllLock := s.bnd.pllLock, clkOut := s.bnd.clkOut, step := warmHold s.bnd.step } } ∧
        t.bnd.adp = .off ∧ t.bnd.cellsDark = true ∧ t.bnd.portsLow = true ∧ t.bnd.mready = false ∧
        t.tst.soft = s.tst.soft ∧ t.tst.run = none ∧ t.tst.burning = none ∧ getF t glbRstcause 2 1 = 1 ∧
        (s.flt.held = [] → t.flt = s.flt) ∧ (∀ l, (t.lane l).heater = (s.lane l).heater) ∧ (s.tst.burning = none → t.efuse = s.efuse) ∧
        (s.tst.loaded = [] → s.tst.soft = [] → t.ports = [] ∧ (∀ l, t.lane l = { heater := (s.lane l).heater }) ∧
          (∀ a, a ∉ warmKept → getReg t a = regReset a))))

/-- R52: the sequence from reset release to BOOT, a step at a time; the last step enters BOOT, and MREADY may rise. The repair records
that the eFuse load finds right are in force from it, a LANE_OUT as a lane in FAILED (R456). -/
def Obligations.ReleaseToBoot : Prop :=
  ∀ s : State,
    (s.bnd.step = .heldPll → ∃ t, exec .resetRelease s = .next t ∧ t.bnd = { s.bnd with step := .pllLock }) ∧
    (s.bnd.step = .heldEFuse → ∃ t, exec .resetRelease s = .next t ∧ t.bnd = { s.bnd with step := .eFuse }) ∧
    (s.bnd.step = .heldSram → ∃ t, exec .resetRelease s = .next t ∧ t.bnd = { s.bnd with step := .sram }) ∧
    (s.bnd.step = .pllLock → ∃ t, exec .pllLock s = .next t ∧ t.bnd = { s.bnd with step := .eFuse, pllLock := true, clkOut := true }) ∧
    (s.bnd.step = .eFuse → ∃ t, exec .efuseLoad s = .next t ∧ t.bnd = { s.bnd with step := .sram } ∧ t.tst.loaded = burned s ∧
      ∀ r ∈ burned s, recKind r = 3 → (t.lane (sf r 4 9)).role = .failed) ∧
    (s.bnd.step = .sram → ∃ t, exec .sramInitDone s = .next t ∧ t.bnd = { s.bnd with step := .lectern }) ∧
    (s.bnd.step = .lectern → ∃ t, exec .lecternStart s = .next t ∧ t.bnd.step = .done ∧ t.bnd.adp = .boot ∧ t.bnd.mready = true ∧
      getEvt t evMgt = {} ∧ KeepsEvts [evMgt] s t)

/-- R52, R386: a step of that sequence that overruns brings the adapter to FAULT, dark and with its inner ports low, with a record. R43:
a PLL that loses lock after it had it, and a REFCLK that stays away for 64 ticks, clear GLB_BSTS.PLL_LOCK and PLL_LOCK and bring the
adapter to FAULT with a CLOCK record, the first with its event; in FROZEN only PLL_LOCK falls. R43, R46, R60: a supply or reference that
goes sets its event and clears its status bit, and changes no other register and no other event; a return sets the bit again. A loss of
the reference is recorded. -/
def Obligations.ClocksAndSupplies : Prop :=
  (∀ s : State, BoundaryOk s →
      (s.bnd.step = .pllLock ∨ s.bnd.step = .eFuse ∨ s.bnd.step = .sram ∨ s.bnd.step = .lectern →
        ∃ t, exec .resetStepOverrun s = .next t ∧ t.bnd.adp = .fault ∧ t.bnd.cellsDark = true ∧ t.bnd.portsLow = true ∧
          ∃ r, Handed r s t ∧ r.action = FaultAct.adapterFault.code) ∧
      (s.bnd.pllLock = true → s.bnd.adp ≠ .frozen → ∃ t, exec .pllUnlock s = .next t ∧ t.bnd.adp = .fault ∧ t.bnd.pllLock = false ∧
        t.bnd.cellsDark = true ∧ t.bnd.portsLow = true ∧ getF t glbBsts 0 1 = 0 ∧ Recorded unitTb 0x0405 .adapterFault s t ∧
        (getEvt t evGlb).raw = (getEvt s evGlb).raw ||| 32#32) ∧
      (s.bnd.pllLock = true → s.bnd.adp = .frozen → exec .pllUnlock s = .next { s with bnd := { s.bnd with pllLock := false } }) ∧
      (∀ k, s.clocked = true → s.bnd.pllLock = true → s.bnd.refLost = some k → k + 64 ≤ s.tick →
        ∃ t, exec .refclkLossExpiry s = .next t ∧ t.bnd.adp = .fault ∧ t.bnd.pllLock = false ∧ t.bnd.cellsDark = true ∧
          t.bnd.portsLow = true ∧ getF t glbBsts 0 1 = 0 ∧ Recorded unitTb 0x0405 .adapterFault s t)) ∧
  (∀ s : State, s.clocked = true →
      (∃ t, exec .supplyA s = .next t ∧ FieldSet glbBsts 2 1 0 s t ∧ Raised evGlb 2 s t) ∧
      (∃ t, exec .supplyH s = .next t ∧ FieldSet glbBsts 3 1 0 s t ∧ Raised evGlb 3 s t) ∧
      (∃ t, exec (.supplyRestored false) s = .next t ∧ FieldSet glbBsts 2 1 1 s t ∧ t.evts = s.evts) ∧
      (∃ t, exec (.supplyRestored true) s = .next t ∧ FieldSet glbBsts 3 1 1 s t ∧ t.evts = s.evts) ∧
      (s.bnd.refLost = none → ∃ t, exec .refclkLoss s = .next t ∧ FieldSet glbBsts 1 1 0 s t ∧ Raised evGlb 4 s t ∧
        t.bnd = { s.bnd with refLost := some s.tick } ∧ Recorded unitTb 0x0405 .none s t) ∧
      (∀ k, s.bnd.refLost = some k → s.tick < k + 64 → ∃ t, exec .refclkReturn s = .next t ∧ FieldSet glbBsts 1 1 1 s t ∧
        t.bnd = { s.bnd with refLost := none } ∧ t.evts = s.evts))

/-- R53, R107, R423: FREEZE, in every state but OFF and FROZEN, darkens the lanes, lowers the inner ports and MREADY, stops BLSB_CK and sets
ADP_STATE to 7; PLL_LOCK and CLKC_OUT stay, and the clocks stop. A training in progress ends with RESULT ABORTED, its port DOWN and its
lanes OFF. CTS, the event blocks, the protection state, the fault log and the data plane keep what they hold, and so do every other port
and lane and every other register. In OFF and in FROZEN it changes nothing. -/
def Obligations.FreezeStops : Prop :=
  ∀ s : State,
    (s.bnd.adp = .off ∨ s.bnd.adp = .frozen → exec .freeze s = .next s) ∧
    (s.bnd.adp ≠ .off → s.bnd.adp ≠ .frozen →
      ∃ t, exec .freeze s = .next t ∧ t.bnd.adp.code = 7 ∧ t.bnd.cellsDark = true ∧ t.bnd.portsLow = true ∧ t.bnd.mready = false ∧
        t.bnd.blsbCk = false ∧ t.bnd.pllLock = s.bnd.pllLock ∧ t.bnd.clkOut = s.bnd.clkOut ∧ t.clocked = false ∧ t.cts = s.cts ∧
        t.evts = s.evts ∧ t.prot = s.prot ∧ t.flt = s.flt ∧ t.blsb = s.blsb ∧ t.tb = s.tb ∧ t.banks = s.banks ∧ t.ips = s.ips ∧ t.tx = s.tx ∧
        t.wb = s.wb ∧ t.col = s.col ∧ t.dma = s.dma ∧ t.quads = s.quads ∧ t.lect = s.lect ∧ t.plv = s.plv ∧
        (∀ p, (s.port p).ln.training.isSome = true → t.port p = { s.port p with ln := { (s.port p).ln with lstate := .down, training := none } } ∧
          getF t (prtLtrn p) 0 4 = 5) ∧
        (∀ p, (s.port p).ln.training = none → t.port p = s.port p) ∧
        (∀ l, (s.lane l).role = .training → (t.lane l).role = .off) ∧ (∀ l, (s.lane l).role ≠ .training → t.lane l = s.lane l) ∧
        (∀ a, (∀ p, (s.port p).ln.training.isSome = true → a ≠ prtLtrn p) → getReg t a = getReg s a))

/-- R40: where the clocks run, a qualified rising edge sets the filtered level of its line in GLB_PACE_LVL and a fall clears it; no other
level and no other register changes by it. In a state that acts the edge then counts for each channel and each sequence ring that follows
the line (R316, R339), and what that answers reaches the streams. An edge of a line whose filtered level is 1 already changes nothing. -/
def Obligations.PaceLines : Prop :=
  ∀ (s : State) (line : PaceLine), s.clocked = true →
    (paceLevel line s = 0 → ∃ u, FieldSet (glbPaceLvl (line.val / 32)) (line.val % 32) 1 1 s u ∧ (∀ p, p ≠ Part.regs → p.same s u) ∧
      exec (.paceEdge line) s = .next (if s.acts then settle (colEdge line (dmaEdge line u)) else u)) ∧
    (paceLevel line s ≠ 0 → exec (.paceEdge line) s = .next s) ∧
    (∃ t, exec (.paceLevelFall line) s = .next t ∧ FieldSet (glbPaceLvl (line.val / 32)) (line.val % 32) 1 0 s t ∧ t.evts = s.evts)

/-! ### Registers and event blocks -/

/-- R10, R11: events and writes of EVT_CLR, EVT_SET and EVT_CNT[k]. An event that occurs sets its raw bit and adds one to its 8-bit counter,
which saturates at 255; a second report of it in the same cycle adds nothing. A clear loses to an event of the same cycle and leaves
every counter; a set is each event's occurring, beside what hardware did; a counter takes the value written, plus one for an event of
the same cycle, saturating at 255. No register and no other event block changes. -/
def Obligations.EventBlockWrites : Prop :=
  ∀ (u : EvtUnit) (v : Word) (s : State),
    (∀ e, e < 32 → Raised (evtBase u) e s (raise (evtBase u) e s)) ∧
    (WriteTaken (evtBase u + 0x0C) s → ∃ t, exec (.evtClrWrite u v) s = .next t ∧
      getEvt t (evtBase u) = { getEvt s (evtBase u) with raw := (getEvt s (evtBase u)).raw &&& (~~~v ||| (getEvt s (evtBase u)).hw) } ∧
      KeepsEvts [evtBase u] s t ∧ t.regs = s.regs ∧ Finished s t) ∧
    (WriteTaken (evtBase u + 0x10) s → ∃ t, exec (.evtSetWrite u v) s = .next t ∧
      (∀ e, e < 32 → (getEvt t (evtBase u)).raw.getLsbD e = ((getEvt s (evtBase u)).raw.getLsbD e || (v.getLsbD e && evtDefined (evtBase u) e))) ∧
      (∀ e, e < 32 → (getEvt t (evtBase u)).count e =
        if v.getLsbD e && evtDefined (evtBase u) e then min ((getEvt s (evtBase u)).count e + 1) 255 else (getEvt s (evtBase u)).count e) ∧
      KeepsEvts [evtBase u] s t ∧ t.regs = s.regs ∧ Finished s t) ∧
    (∀ k : Fin 8, WriteTaken (evtBase u + 0x20 + 4 * k) s → ∃ t, exec (.evtCntWrite u k v) s = .next t ∧
      (getEvt t (evtBase u)).raw = (getEvt s (evtBase u)).raw ∧
      (∀ j, j < 4 → evtDefined (evtBase u) (4 * k + j) = true → (getEvt t (evtBase u)).count (4 * k + j) =
        min 255 (fld v (8 * j) 8 + bit ((getEvt s (evtBase u)).hw.getLsbD (4 * k + j)))) ∧
      (∀ e, e < 32 → e / 4 ≠ k.val → (getEvt t (evtBase u)).count e = (getEvt s (evtBase u)).count e) ∧
      KeepsEvts [evtBase u] s t ∧ t.regs = s.regs ∧ Finished s t)

/-- R5, R7, R8, R485, R490: a register write at the management port, its checks in their order. In FAULT a register that is not one of
those R485 names takes no write, and the access finishes with MRERR. A write to an address that holds no register does nothing. One that
R408 governs and does not admit raises AGENT_REJECT; then a locked field raises LOCKED; then a field out of its range, or a command that a
rule refuses in the present state, raises RANGE; in these three no register changes and no other event occurs. Else, at a register whose
write has no behaviour of its own, the fields are stored as their types say, with what hardware did to them in the same cycle (R484), no
other register changes and no event occurs. -/
def Obligations.RegisterWrites : Prop :=
  ∀ (agent : Bool) (addr : BitVec 17) (v : Word) (s : State) (a : Nat), a = 4 * addr.toNat → evtAt a = none →
    (s.mready = true → s.acts = false → faultWritable a = false → ∃ t, exec (.registerWrite agent addr v) s = .next t ∧
      t.bnd.mrvalid = some s.cts ∧ t.bnd.mrerr = true ∧ t.regs = s.regs ∧ t.evts = s.evts) ∧
    (WriteTaken a s →
      (regFields a = none → ∃ t, exec (.registerWrite agent addr v) s = .next t ∧ Finished s t ∧ t.regs = s.regs ∧ t.evts = s.evts) ∧
      ∀ fs, regFields a = some fs → ∀ x, x = checkedIn agent a s →
        (governed a = true → agentAdmitted agent a v x = false →
          ∃ t, exec (.registerWrite agent addr v) s = .next t ∧ Finished s t ∧ t.regs = s.regs ∧ Raised evPro 6 s t) ∧
        (governed a = false ∨ agentAdmitted agent a v x = true →
          (lockedReg fs x = true → ∃ t, exec (.registerWrite agent addr v) s = .next t ∧ Finished s t ∧ t.regs = s.regs ∧ Raised evGlb 1 s t) ∧
          (lockedReg fs x = false → (fieldRange fs v || specialRange a v x || commandRefused a v x) = true →
            ∃ t, exec (.registerWrite agent addr v) s = .next t ∧ Finished s t ∧ t.regs = s.regs ∧ Raised evGlb 0 s t) ∧
          (lockedReg fs x = false → (fieldRange fs v || specialRange a v x || commandRefused a v x) = false → ownBehaviour a = false →
            ∃ t, exec (.registerWrite agent addr v) s = .next t ∧ Finished s t ∧ t.evts = s.evts ∧
              getReg t a = mergeBumps a (s.bumps ++ observed a s) (storeFields fs (getReg s a) v) ∧ KeepsRegs [a] s t)))

/-- R38, R39, R67, R125: reading a low half returns it and latches the high half, and changes no other register; a management access that
waits for 1,024 cc finishes with MRERR 1 and MRDATA 0, and raises MGT_TIMEOUT. Command bits of ports, lanes, the fault log and the
mailbox: PRT_LCTL.COLD and RETRAIN (R106) make a cold training, or a link reset, due at the next tick boundary; PRT_PWRCTL.FORCE_WAKE
notes the wake (R267); LN_CTL.DCAL_REQ makes the lane due, or, in a port without a spare, falls back with CAL_FALLBACK (R119, R121);
CNT_CLR clears the lane's two counter registers (R125); FLT_CTL.CLEAR empties the fault log (R397); MGT_MBX_CMD.GO queues the request, and while
one is under way raises MBX_BUSY instead (R432). -/
def Obligations.ManagementPort : Prop :=
  ((∀ s : State, s.mready = true → ∃ t, exec .tbCtsLoRead s = .next t ∧ t.bnd.mrdata = BitVec.ofNat 32 s.cts ∧ Finished s t ∧
      FieldSet tbCtsHi 0 32 (s.cts / 2 ^ 32 % 2 ^ 32) s t) ∧
    (∀ (s : State) (l : LaneId), s.mready = true →
      (∃ t, exec (.lnCtsLoRead l false) s = .next t ∧ t.bnd.mrdata = BitVec.ofNat 32 (s.lane l).gcts ∧ Finished s t ∧
        FieldSet (lnGcalCtsHi l) 0 32 ((s.lane l).gcts / 2 ^ 32 % 2 ^ 32) s t) ∧
      (∃ t, exec (.lnCtsLoRead l true) s = .next t ∧ t.bnd.mrdata = BitVec.ofNat 32 (s.lane l).dcts ∧ Finished s t ∧
        FieldSet (lnDcalCtsHi l) 0 32 ((s.lane l).dcts / 2 ^ 32 % 2 ^ 32) s t)) ∧
    (∀ (s : State) (x : MgtAccess), s.bnd.access = some x → s.alive = true → x.since + 1024 ≤ s.cts →
      ∃ t, exec .mgtTimeout s = .next t ∧ t.bnd.access = none ∧ t.bnd.mrvalid = some s.cts ∧ t.bnd.mrerr = true ∧ t.bnd.mrdata = 0 ∧
        Raised evGlb 6 s t ∧ t.regs = s.regs)) ∧
  (∀ s : State, s.mready = true → s.acts = true →
      (∀ p : PortId, ∃ t, exec (.prtCold p) s = .next t ∧ (t.port p).ln.coldDue = some false ∧ (t.port p).ln.dueTick = s.tick + 1 ∧
        KeepsPorts [p] s t ∧ Finished s t) ∧
      (∀ p : PortId, ∃ t, exec (.prtRetrain p) s = .next t ∧ (t.port p).ln.resetDue = some (min 2 ((s.port p).ln.resetDue.getD 2)) ∧
        (t.port p).ln.dueTick = s.tick + 1 ∧ KeepsPorts [p] s t ∧ Finished s t) ∧
      (∀ p : PortId, ∃ t, exec (.forceWake p) s = .next t ∧ (t.port p).pw = { (s.port p).pw with force := some s.cts } ∧ KeepsPorts [p] s t ∧
        Finished s t) ∧
      (∀ l : LaneId, (s.lane l).due = none →
        ((spareOf (portOf l) s).isSome → ∃ t, exec (.lnDcalReq l) s = .next t ∧ (t.lane l).due = some (.requested, s.tick, false) ∧
          KeepsLanes [l.val] s t ∧ t.evts = s.evts) ∧
        (spareOf (portOf l) s = none → ∃ t, exec (.lnDcalReq l) s = .next t ∧ (t.lane l).due = none ∧ (t.lane l).fallback = true ∧
          KeepsLanes [l.val] s t ∧ Raised (evLn l) 8 s t)) ∧
      (∀ l : LaneId, ∃ t, exec (.lnCntClr l) s = .next t ∧ getReg t (lnPiloterr l) = 0 ∧ getReg t (lnErrcnt l) = 0 ∧
        KeepsRegs [lnPiloterr l, lnErrcnt l] s t) ∧
      (∃ t, exec .fltClear s = .next t ∧ t.flt = { s.flt with ring := [], poison := [], wptr := 0, count := 0 } ∧ t.regs = s.regs) ∧
      (s.lect.restart = none → mailboxBusy s = false →
        ∃ t, exec .mbxGo s = .next t ∧ getF t mgtMbxSts 0 2 = 1 ∧ getF t mgtMbxSts 2 1 = 0 ∧ KeepsRegs [mgtMbxSts] s t ∧ t.evts = s.evts) ∧
      (s.lect.restart = none → mailboxBusy s = true → ∃ t, exec .mbxGo s = .next t ∧ t.regs = s.regs ∧ Raised evMgt 1 s t))

/-! ### Lanes -/

/-- R109, R110, R113, R114: what a repair request does in P0. With a spare, and no swap or deep calibration under way, a swap is planned
for the effective tick of R110 and SWAP_REQ goes out; a spare that asks fails at the next tick boundary; with no spare the lane fails
and a link reset begins, both at the next tick boundary. No lane changes before that. -/
def Obligations.RepairRequests : Prop :=
  ∀ (l : LaneId) (c : RepairCause) (s : State), (s.port (portOf l)).pw.state = .p0 → (s.port (portOf l)).ln.swap = none →
    (s.port (portOf l)).ln.dcal = none →
    (∀ sub, (s.lane l).role = .active → spareOf (portOf l) s = some sub →
      ((requestRepair l c s).port (portOf l)).ln.swap = some ⟨chanOf l, sub, false, if s.cyc ≤ 767 then s.tick + 2 else s.tick + 3, true, c⟩ ∧
      ((requestRepair l c s).port (portOf l)).tx.hatCtl = (s.port (portOf l)).tx.hatCtl ++
        [LaneMsg.slot ⟨.swapReq, chanOf l, sub, false, (if s.cyc ≤ 767 then s.tick + 2 else s.tick + 3) % 65536⟩]) ∧
    ((s.lane l).role = .spare → ((requestRepair l c s).port (portOf l)).ln.failing = (s.port (portOf l)).ln.failing ++ [(chanOf l, c)] ∧
      ((requestRepair l c s).port (portOf l)).ln.resetDue = (s.port (portOf l)).ln.resetDue) ∧
    ((s.lane l).role = .active → spareOf (portOf l) s = none →
      ((requestRepair l c s).port (portOf l)).ln.failing = (s.port (portOf l)).ln.failing ++ [(chanOf l, c)] ∧
      ((requestRepair l c s).port (portOf l)).ln.resetDue = some (min 1 ((s.port (portOf l)).ln.resetDue.getD 1)) ∧
      ((requestRepair l c s).port (portOf l)).ln.dueTick = s.tick + 1) ∧
    (requestRepair l c s).lanes = s.lanes ∧ (requestRepair l c s).regs = s.regs ∧ KeepsPorts [portOf l] s (requestRepair l c s)

/-- R108, R109, R118, R379: a lane that reports and loses light, loses its CDR lock, or overruns CAL_THR in a window sets its status bit
and raises its event, and then asks for repair; a spare reports a loss of light within its bursts; a loss of CDR lock against the CDR
pattern of a peer in training sets the status alone. R116: a gap-calibration step of this lane, the first of its tick, moves the bias by
at most one code, and asks for repair only at the end of a range. In a training loss of light and of lock set the status alone. R112: at
cycle 0 of the effective tick the lane that asked is FAILED and the one that takes its place ACTIVE, with the swap counted and recorded.
R110, R111: a peer's request is planned for its effective tick and answered; an acknowledgement is taken, and changes no lane. -/
def Obligations.LanesAndSwaps : Prop :=
  (∀ (l : LaneId) (s : State),
      (reports l s = true →
        ((s.lane l).role = .active ∨ inBurst (portOf l) s = true →
          ∃ u, exec (.lossOfLight l) s = .next (requestRepair l .los u) ∧ u.lane l = { s.lane l with los := true } ∧ KeepsLanes [l.val] s u ∧
          Raised (evLn l) 0 s u ∧ getF u (lnPiloterr l) 24 8 = min (getF s (lnPiloterr l) 24 8 + 1) 255 ∧ u.ports = s.ports) ∧
        (∀ pattern, pattern = false ∨ (s.lane l).role = .spare →
          ∃ u, exec (.cdrUnlock ⟨l, pattern⟩) s = .next (requestRepair l .cdr u) ∧ u.lane l = { s.lane l with cdr := false } ∧
            KeepsLanes [l.val] s u ∧ Raised (evLn l) 1 s u ∧ u.ports = s.ports) ∧
        ((s.lane l).role = .active → ∃ u, exec (.cdrUnlock ⟨l, true⟩) s = .next u ∧ u.lane l = { s.lane l with cdr := false } ∧
          KeepsLanes [l.val] s u ∧ u.evts = s.evts ∧ u.ports = s.ports) ∧
        (getF s calThr 0 16 < (s.lane l).lastWindow → ∃ u, exec (.laneErrWindow l) s = .next (requestRepair l .err u) ∧ u.lanes = s.lanes ∧
          Raised (evLn l) 2 s u ∧ u.ports = s.ports) ∧
        ((s.lane l).stepAt ≠ some s.tick → ∀ bias : BitVec 12,
          (∃ t, exec (.gapCalStep l bias none false) s = .next t ∧ (t.lane l).steps = (s.lane l).steps + 1 ∧
            (t.lane l).rbias ≤ (s.lane l).rbias + 1 ∧ (s.lane l).rbias ≤ (t.lane l).rbias + 1 ∧ (t.lane l).stepAt = some s.tick ∧
            KeepsLanes [l.val] s t ∧ KeepsRegs [lnEye l] s t ∧ t.evts = s.evts) ∧
          ∃ u, exec (.gapCalStep l bias none true) s = .next (requestRepair l .noconv u) ∧ (u.lane l).steps = (s.lane l).steps + 1 ∧
            KeepsLanes [l.val] s u ∧ Raised (evLn l) 3 s u)) ∧
      (inTraining l s = true →
        (∃ t, exec (.lossOfLight l) s = .next t ∧ t.lane l = { s.lane l with los := true } ∧ KeepsLanes [l.val] s t ∧ t.evts = s.evts ∧ t.ports = s.ports) ∧
        (∀ pattern, ∃ t, exec (.cdrUnlock ⟨l, pattern⟩) s = .next t ∧ t.lane l = { s.lane l with cdr := false } ∧ KeepsLanes [l.val] s t ∧
          t.evts = s.evts ∧ t.ports = s.ports))) ∧
  (∀ (p : PortId) (s : State), s.acts = true →
      (∀ w, (s.port p).ln.swap = some w → w.abortCal = false → w.lane ≠ w.sub → w.lane < 5 → w.sub < 5 → w.eff ≤ s.tick → s.cyc = 0 →
        ∃ t, exec (.laneSwapEffective p) s = .next t ∧ (t.lane (cellOf p w.lane)).role = .failed ∧ (t.lane (cellOf p w.sub)).role = .active ∧
          KeepsLanes [cellOf p w.lane, cellOf p w.sub] s t ∧ (t.port p).ln.swap = none ∧ KeepsPorts [p.val] s t ∧
          getF t (prtLswap p) 0 16 = min (getF s (prtLswap p) 0 16 + 1) 65535 ∧ Recorded (cellOf p w.lane) w.cause.fault .laneSwap s t) ∧
      (∀ m u, takeCtl p .swapReq s = some (m, u) →
        (s.port p).ln.swap = none → m.abortCal = false → ∃ t, exec (.swapReq p false) s = .next t ∧ (∃ c, (t.port p).ln.swap =
          some ⟨m.lane % 5, m.sub % 5, m.abortCal, effHere p m u, false, c⟩) ∧
          (t.port p).tx.hatCtl = (s.port p).tx.hatCtl ++ [LaneMsg.slot { m with kind := .swapAck }] ∧ (t.port p).rx = (u.port p).rx ∧
          KeepsPorts [p.val] s t ∧ t.lanes = s.lanes) ∧
      (∀ m u, takeCtl p .swapAck s = some (m, u) → exec (.swapAck p false) s = .next u ∧ (u.port p).ln = (s.port p).ln ∧ KeepsPorts [p.val] s u ∧
        u.lanes = s.lanes))

/-- R177, R388: a control message whose word is uncorrectable is discarded, with its event and an SRAM record; nothing is done for it. -/
def Obligations.BadControlMessages : Prop :=
  ∀ (p : PortId) (s : State) (c : Instr) (k : LKind),
    (c, k) ∈ [(Instr.swapReq p true, LKind.swapReq), (.swapAck p true, .swapAck), (.calOutReq p true, .calOutReq), (.calOutAck p true, .calOutAck),
      (.calInReq p true, .calInReq), (.calInAck p true, .calInAck), (.calRefuse p true, .calRefuse)] →
    ∀ m u, takeCtl p k s = some (m, u) →
    ∃ t, exec c s = .next t ∧ (t.port p).rx.hat = (u.port p).rx.hat ∧ (t.port p).ln = (s.port p).ln ∧ (t.port p).tx = (s.port p).tx ∧
      KeepsPorts [p.val] s t ∧ t.lanes = s.lanes ∧ Raised (evPrt p) 15 s t ∧
      ∃ r, Handed r s t ∧ r.code = 0x0501 ∧ r.unit = unitPort p

/-- R119: the port temperature is stored, and a lane becomes due by drift, or by period, where its port has a spare; the lane taken next
is the one no other due lane comes before. R121: an occasion overdue is raised once. R120: the lane chosen starts with CAL_OUT_REQ while
fewer than DCAL_MAX ports are in deep calibration. The peer's CAL_OUT_REQ is taken up, or refused where the adapter has DCAL_MAX ports in
deep calibration; an acknowledgement is noted; a refusal raises DCAL_REFUSED and is tried again after 64 ticks; CAL_IN_REQ sets the
return. At cycle 0 of the effective ticks the hand-overs take place: out with the settings saved, and in with the calibration recorded.
When the lane has converged the side that chose it asks for its return. R122: a lane that has not converged 12,800 ticks on is FAILED,
its stand-in stays ACTIVE, and DCAL_FAIL and a record follow. -/
def Obligations.DeepCalibration : Prop :=
  (∀ s : State, s.acts = true →
      (∀ (l : LaneId) (temp : BitVec 16), ∀ u, u = setF (prtLtemp (portOf l)) 0 16 temp.toNat s →
        FieldSet (prtLtemp (portOf l)) 0 16 temp.toNat s u ∧
        ((s.lane l).due ≠ none → exec (.dcalDue l temp) s = .next u) ∧
        ((s.lane l).due = none → ((toInt 16 temp.toNat - (s.lane l).tempDcal).natAbs ≤ getF s calCfg 12 8) →
          s.tick < max ((s.lane l).dcts / 1024) (s.lane l).dueBase + getF s calCfg 0 12 * 1600 → exec (.dcalDue l temp) s = .next u) ∧
        ((s.lane l).due = none → getF s calCfg 12 8 < (toInt 16 temp.toNat - (s.lane l).tempDcal).natAbs → (spareOf (portOf l) s).isSome →
          ∃ t, exec (.dcalDue l temp) s = .next t ∧ (t.lane l).due = some (.drift, s.tick, false) ∧ t.regs = u.regs ∧ KeepsLanes [l.val] s t) ∧
        ((s.lane l).due = none → (toInt 16 temp.toNat - (s.lane l).tempDcal).natAbs ≤ getF s calCfg 12 8 →
          max ((s.lane l).dcts / 1024) (s.lane l).dueBase + getF s calCfg 0 12 * 1600 ≤ s.tick → (spareOf (portOf l) s).isSome →
          ∃ t, exec (.dcalDue l temp) s = .next t ∧ (t.lane l).due = some (.period, s.tick, false) ∧ t.regs = u.regs ∧ KeepsLanes [l.val] s t)) ∧
      (∀ (l : LaneId) r since, (s.lane l).due = some (r, since, false) → since + 1600000 ≤ s.tick →
        ∃ t, exec (.calOverdue l) s = .next t ∧ (t.lane l).due = some (r, since, true) ∧ KeepsLanes [l.val] s t ∧ Raised (evLn l) 9 s t) ∧
      (∀ (l : LaneId) r since, (s.lane l).due = some (r, since, true) → exec (.calOverdue l) s = .next s) ∧
      (∀ l, chooseDue s = some l → ∀ k, (s.lane k).due.isSome → (s.lane k).role = .active → canDcal (portOf k) s = true → dueBefore s k l = false) ∧
      (∀ l sub, dcalPorts s < min (getF s calCfg 20 4) 8 → chooseDue s = some l → spareOf (portOf l) s = some sub →
        ∃ t, exec .dcalStart s = .next t ∧ (t.port (portOf l)).ln.dcal = some ⟨chanOf l, sub, .out (effTick s), true, false, .ring⟩ ∧
          (t.port (portOf l)).tx.hatCtl = (s.port (portOf l)).tx.hatCtl ++
            [LaneMsg.slot ⟨.calOutReq, chanOf l, sub, false, effTick s % 65536⟩] ∧ KeepsPorts [portOf l] s t ∧ t.lanes = s.lanes)) ∧
  (∀ (p : PortId) (s : State),
      ((s.port p).ln.dcal = none → ∀ m u, takeCtl p .calOutReq s = some (m, u) → dcalPorts u < min (getF u calCfg 20 4) 8 →
        ∃ t, exec (.calOutReq p false) s = .next t ∧
        (t.port p).ln.dcal = some ⟨m.lane % 5, m.sub % 5, .out (effHere p m u), false, false, .ring⟩ ∧
        (t.port p).tx.hatCtl = (s.port p).tx.hatCtl ++ [LaneMsg.slot { m with kind := .calOutAck }] ∧ KeepsPorts [p.val] s t) ∧
      ((s.port p).ln.dcal = none → ∀ m u, takeCtl p .calOutReq s = some (m, u) → min (getF u calCfg 20 4) 8 ≤ dcalPorts u →
        ∃ t, exec (.calOutReq p false) s = .next t ∧
        (t.port p).ln = (s.port p).ln ∧ (t.port p).tx.hatCtl = (s.port p).tx.hatCtl ++ [LaneMsg.slot { m with kind := .calRefuse }] ∧ KeepsPorts [p.val] s t) ∧
      (∀ m u, takeCtl p .calOutAck s = some (m, u) → ∃ t, exec (.calOutAck p false) s = .next t ∧
        (t.port p).ln.dcal = (s.port p).ln.dcal.map (fun d => { d with acked := true }) ∧ KeepsPorts [p.val] s t) ∧
      (∀ m u, takeCtl p .calInAck s = some (m, u) → ∃ t, exec (.calInAck p false) s = .next t ∧
        (t.port p).ln.dcal = (s.port p).ln.dcal.map (fun d => { d with acked := true }) ∧ KeepsPorts [p.val] s t) ∧
      (∀ m u, takeCtl p .calRefuse s = some (m, u) → ∀ a b e mine ack ph, (s.port p).ln.dcal = some ⟨a, b, .out e, mine, ack, ph⟩ →
        ∃ t, exec (.calRefuse p false) s = .next t ∧ (t.port p).ln.dcal = some ⟨a, b, .retry (s.tick + 64), mine, ack, ph⟩ ∧ Raised evCal 0 s t ∧
          KeepsPorts [p.val] s t) ∧
      (∀ m u, takeCtl p .calInReq s = some (m, u) → ∀ a b k mine ack ph, (s.port p).ln.dcal = some ⟨a, b, .inCal k, mine, ack, ph⟩ →
        ∃ t, exec (.calInReq p false) s = .next t ∧ (t.port p).ln.dcal = some ⟨a, b, .back (effHere p m u) k, mine, ack, ph⟩ ∧
          (t.port p).tx.hatCtl = (s.port p).tx.hatCtl ++ [LaneMsg.slot { m with kind := .calInAck }] ∧ KeepsPorts [p.val] s t) ∧
      (∀ a b k mine ack ph, s.acts = true → (s.port p).ln.dcal = some ⟨a, b, .retry k, mine, ack, ph⟩ → a < 5 → k ≤ s.tick →
        ∃ t, exec (.dcalRetry p) s = .next t ∧ (t.port p).ln.dcal = some ⟨a, b, .out (effTick s), true, false, .ring⟩ ∧ KeepsPorts [p.val] s t)) ∧
  (∀ (p : PortId) (s : State) (a b : Nat) (mine ack : Bool) (ph : TPhase), s.acts = true → a ≠ b → a < 5 → b < 5 →
      (∀ e, (s.port p).ln.dcal = some ⟨a, b, .out e, mine, ack, ph⟩ → e ≤ s.tick → s.cyc = 0 → (s.lane (cellOf p a)).role = .active →
        (s.lane (cellOf p b)).role = .spare → ∃ t, exec (.calHandoverEffective p) s = .next t ∧
        (t.lane (cellOf p a)).role = .cal ∧ (t.lane (cellOf p b)).role = .active ∧
        (t.lane (cellOf p a)).saved = some ((s.lane (cellOf p a)).heater, (s.lane (cellOf p a)).rbias) ∧
        (t.port p).ln.dcal = some ⟨a, b, .inCal s.tick, mine, false, .ring⟩ ∧ KeepsLanes [cellOf p a, cellOf p b] s t ∧ KeepsPorts [p.val] s t) ∧
      (∀ e k, (s.port p).ln.dcal = some ⟨a, b, .back e k, mine, ack, ph⟩ → e ≤ s.tick → s.cyc = 0 → (s.port p).ln.swap = none →
        ∃ t, exec (.calHandoverEffective p) s = .next t ∧
        (t.lane (cellOf p a)).role = .active ∧ (t.lane (cellOf p b)).role = .spare ∧ (t.lane (cellOf p a)).dcts = s.cts ∧
        (t.lane (cellOf p a)).tempDcal = tempOf p s ∧ (t.port p).ln.dcal = none ∧ getF t (lnDcalCnt (cellOf p a)) 0 32 = (getF s (lnDcalCnt (cellOf p a)) 0 32 + 1) % 2 ^ 32 ∧
        KeepsLanes [cellOf p a, cellOf p b] s t ∧ KeepsPorts [p.val] s t) ∧
      (∀ k (h : BitVec 16) (r : BitVec 12), (s.port p).ln.dcal = some ⟨a, b, .inCal k, mine, ack, ph⟩ → ∃ t, exec (.dcalConverged p h r) s = .next t ∧
        (t.lane (cellOf p a)).heater = some h.toNat ∧ (t.lane (cellOf p a)).rbias = r.toNat ∧ KeepsLanes [cellOf p a] s t ∧
        (t.port p).ln.dcal = some ⟨a, b, if mine then .back (effTick s) k else .inCal k, mine, if mine then false else ack, ph⟩ ∧
        (t.port p).tx.hatCtl = (s.port p).tx.hatCtl ++ (if mine then [LaneMsg.slot ⟨.calInReq, a, b, false, effTick s % 65536⟩] else []) ∧
        KeepsPorts [p.val] s t) ∧
      (∀ k, (s.port p).ln.dcal = some ⟨a, b, .inCal k, mine, ack, ph⟩ → k + 12800 ≤ s.tick → ∃ t, exec (.dcalTimeout p) s = .next t ∧
        (t.lane (cellOf p a)).role = .failed ∧ KeepsLanes [cellOf p a] s t ∧ (t.port p).ln.dcal = none ∧ KeepsPorts [p.val] s t ∧
        Raised (evLn (cellOf p a)) 7 s t ∧ Recorded (cellOf p a) 0x0105 .laneFailed s t))

/-! ### Training -/

/-- R106, R153, R379: at cycle 0 of its tick a link reset, where no repair stands and no cold training is due, begins a warm retraining in
CDR with every lane that has not FAILED: sequence numbers, Sideboard and credit state are kept, replays and due acknowledgements are
dropped, and a record names the cause. The causes: 8 ticks without a good flit (0), and the peer's CDR pattern (5); unmodulated light asks
for a cold training. R101, R154, R181, R206, R470: at cycle 0 of its tick a cold training begins in RING with sequence numbers, Sideboard
and credits afresh, and then what the port held is handed back; a port outside the mask, or with no engine, begins none. -/
def Obligations.TrainingsBegin : Prop :=
  (∀ (p : PortId) (s : State), s.acts = true →
      (∀ c, (s.port p).ln.resetDue = some c → (s.port p).ln.dueTick ≤ s.tick → s.cyc = 0 → (s.port p).ln.coldDue = none →
        (s.port p).ln.failing = [] → (s.port p).ln.swap = none → (s.port p).ln.standing = [] → ∃ t, exec (.linkReset p) s = .next t ∧
        (∀ tr, (t.port p).ln.training = some tr → tr.phase = .cdr ∧ tr.cold = false ∧ tr.began = s.tick ∧ tr.lanes = maskOf (trainable p s)) ∧
        (t.port p).ln.training.isSome = true ∧
        (t.port p).ln.lstate = .training ∧ (t.port p).ln.resetDue = none ∧ (t.port p).tx.sb = (s.port p).tx.sb ∧
        (t.port p).tx.nextTx = (s.port p).tx.nextTx ∧ (t.port p).tx.oldest = (s.port p).tx.oldest ∧
        (t.port p).rx.nextRx = (s.port p).rx.nextRx ∧ (t.port p).tx.replay = none ∧ (t.port p).tx.starts = [] ∧
        (t.port p).rx.nakDue = false ∧ (t.port p).rx.ackDue = false ∧ (t.port p).cr = (s.port p).cr ∧ (t.port p).pw.state = .p0 ∧
        (∀ i, i < 5 → (s.lane (cellOf p i)).role ≠ .failed → (t.lane (cellOf p i)).role = .training) ∧
        (∀ i, i < 5 → (s.lane (cellOf p i)).role = .failed → (t.lane (cellOf p i)).role = .failed) ∧
        KeepsPorts [p.val] s t ∧
        ∃ r, Handed r s t ∧ r.unit = unitPort p ∧ r.code = 0x0201 ∧ r.action = FaultAct.linkReset.code ∧ r.detail = c) ∧
      ((s.port p).ln.lstate = .up → ((s.port p).pw.state = .p0 ∨ (s.port p).pw.state = .p1) →
        (8 ≤ (s.port p).rx.empty → ∃ t, exec (.noFlitTimeout p) s = .next t ∧ (t.port p).ln.resetDue = some 0 ∧
          (t.port p).ln.dueTick = (if s.cyc = 0 then s.tick else s.tick + 1) ∧ KeepsPorts [p.val] s t) ∧
        (∃ t, exec (.peerTrainingJoin p false) s = .next t ∧ (t.port p).ln.resetDue = some (min 5 ((s.port p).ln.resetDue.getD 5)) ∧
          (t.port p).ln.dueTick = s.tick + 1 ∧ KeepsPorts [p.val] s t) ∧
        (∃ t, exec (.peerTrainingJoin p true) s = .next t ∧ (t.port p).ln.coldDue = some false ∧ (t.port p).ln.dueTick = s.tick + 1 ∧
          KeepsPorts [p.val] s t))) ∧
  (∀ (p : PortId) (s : State), s.acts = true → ∀ after, (s.port p).ln.coldDue = some after →
      (absent p s = false → getF s (prtEng p) 0 5 ≠ 31 → (s.port p).ln.dueTick ≤ s.tick → s.cyc = 0 →
        ∀ u, u = updLn p (fun x => { x with afterWarm := after, attempts := if s.bnd.adp = .train then x.attempts + 1 else x.attempts })
          (beginTraining p true s) →
          exec (.coldTraining p) s = .next (settle (handBack p (routedOver p s) u)) ∧
          (∀ tr, (u.port p).ln.training = some tr → tr.phase = .ring ∧ tr.cold = true ∧ tr.began = s.tick) ∧
          (u.port p).ln.training.isSome = true ∧
          (u.port p).ln.lstate = .training ∧ (u.port p).ln.coldDue = none ∧ (u.port p).tx.sb = [] ∧ (u.port p).tx.nextTx = 0 ∧
          (u.port p).rx.nextRx = 0 ∧ (u.port p).cr.peer = none ∧ (u.port p).pw.state = .p0 ∧ KeepsPorts [p.val] s u) ∧
      (absent p s = true ∨ getF s (prtEng p) 0 5 = 31 →
        exec (.coldTraining p) s = .next (settle (updLn p (fun x => { x with coldDue := none }) s))))

/-- R101: RING, CDR or LEVEL ends at cycle 0 once every lane still in training has completed it, and the next phase begins; the lanes that
passed RING have their rings locked, those that passed CDR their clocks. R101, R105, R106: with its budget over and no lane left, the
training fails, its lanes OFF, with RESULT 4 and the phase in PRT_LTRN and a record; a warm one is followed by a cold one. R104, R124,
R153: four consecutive UP flits that agree, on both sides, bring the link up at the width of the agreed active set, the lanes in their
roles; flits unacknowledged are sent again from OLDEST. -/
def Obligations.TrainingsEnd : Prop :=
  (∀ (p : PortId) (s : State) (done : BitVec 5) (skews : List (BitVec 8)), s.acts = true → s.cyc = 0 →
      ∀ tr, (s.port p).ln.training = some tr →
      (tr.phase = .ring ∨ tr.phase = .cdr ∨ tr.phase = .level → tr.lanes ≠ 0 → tr.lanes &&& ~~~done = 0 →
        ∃ t, exec (.trainingPhaseEnd p done skews) s = .next t ∧
          (t.port p).ln.training = some { tr with phase := tr.phase.next, began := s.tick, lanes := tr.lanes &&& done, peerDone := false } ∧
          (∀ i, i < 5 → tr.lanes.getLsbD i = true →
            t.lane (cellOf p i) = match tr.phase with
              | .ring => { s.lane (cellOf p i) with rlock := true }
              | .cdr => { s.lane (cellOf p i) with cdr := true }
              | _ => s.lane (cellOf p i)) ∧
          KeepsLanes ((ofMask tr.lanes).map (cellOf p)) s t ∧ KeepsPorts [p.val] s t ∧ t.evts = s.evts) ∧
      (tr.phase = .ring ∨ tr.phase = .cdr ∨ tr.phase = .level → tr.lanes &&& done = 0 → tr.began + budget tr.cold tr.phase ≤ s.tick →
        (s.port p).pw.wake = none →
        ∃ t, exec (.trainingPhaseEnd p done skews) s = .next t ∧ (t.port p).ln.training = none ∧ (t.port p).ln.lstate = .down ∧
          getF t (prtLtrn p) 0 4 = 4 ∧ getF t (prtLtrn p) 4 4 = tr.phase.code ∧ KeepsPorts [p.val] s t ∧
          (∀ i, i < 5 → (s.lane (cellOf p i)).role = .training → (t.lane (cellOf p i)).role = .off) ∧
          (tr.cold = false → (t.port p).ln.coldDue = some true) ∧
          ∃ r, Handed r s t ∧ r.unit = unitPort p ∧ r.code = 0x0202 ∧ r.detail = tr.phase.code + 16 * bit tr.cold)) ∧
  (∀ (p : PortId) (s : State), s.acts = true → s.cyc = 0 → ∀ tr, (s.port p).ln.training = some tr → tr.phase = .up → 4 ≤ tr.upCount →
      tr.peerDone = true →
      ∃ t, exec (.linkUp p) s = .next t ∧ (t.port p).ln.lstate = .up ∧ (t.port p).ln.width = (ofMask tr.active).length ∧
        (t.port p).ln.training = none ∧ getF t (prtLtrn p) 0 4 = upResult (ofMask tr.active).length tr.spare ∧
        (∀ i, i < 5 → (s.lane (cellOf p i)).role ≠ .failed → (t.lane (cellOf p i)).role =
          if (ofMask tr.active).contains i then .active else if tr.spare = some i then .spare else .off) ∧
        (∀ i, i < 5 → (s.lane (cellOf p i)).role = .failed → (t.lane (cellOf p i)).role = .failed) ∧
        ((s.port p).tx.unacked ≠ 0 → (t.port p).tx.replay = some ((s.port p).tx.oldest, (s.port p).tx.nextTx - 1)) ∧ KeepsPorts [p.val] s t)

/-! ### Sideband, time base and tick -/

/-- R57, R58: frames of the sideband. A bad frame raises BLSB_CRC and does nothing else, and one that answers no request does nothing; a
good one answers the request with its SEQ, which waits no longer, and sets BLSB_OK: a heater code is then in force, a laser status read.
A request unanswered for 8 ticks is issued again under its SEQ three times, and then fails with BLSB_FAIL; a laser read goes out for the
whole site; no status for 1,600 ticks reads as UNKNOWN. R56, R117: a request leaves where the line is free and the window of 4 ticks has
a frame left, and waits otherwise; of 15 frames in a window 12 go to gap calibration and 3 to the rest, while both have requests
waiting. -/
def Obligations.SidebandFrames : Prop :=
  (∀ s : State, s.bnd.blsbCk = true →
    (∀ f : BitVec 64, frameOk f = false → ∃ t, exec (.blsbFrameRx f) s = .next t ∧ Raised evGlb 7 s t ∧ t.blsb = s.blsb ∧ t.regs = s.regs ∧
      t.lanes = s.lanes) ∧
    (∀ f : BitVec 64, frameOk f = true → blsbMatch f s = none → exec (.blsbFrameRx f) s = .next s) ∧
    (∀ f : BitVec 64, frameOk f = true → ∀ r, blsbMatch f s = some r → r.owner ≠ .train ∨ ringOn r.cell s = false →
      ∃ t, exec (.blsbFrameRx f) s = .next t ∧
      t.blsb.waiting = s.blsb.waiting.filter (fun q => q.seq != r.seq) ∧ getF t glbBsts 6 1 = 1 ∧ KeepsRegs [glbBsts] s t ∧
      (r.kind = kindHeaterSet → (t.lane r.cell).heater = some r.value ∧ KeepsLanes [r.cell] s t ∧ t.evts = s.evts) ∧
      (r.kind = kindLaserRead → getF t glbBsts 4 2 = frameF f 16 2 ∧ t.blsb.laserTick = s.tick ∧ t.lanes = s.lanes ∧
        (frameF f 16 2 = 1 → Raised evGlb 9 s t) ∧ (frameF f 16 2 = 2 → Raised evGlb 10 s t) ∧
        (frameF f 16 2 ≠ 1 → frameF f 16 2 ≠ 2 → t.evts = s.evts))) ∧
    (∀ q : BitVec 8, ∀ r, s.blsb.waiting.find? (fun r => r.seq == q.toNat) = some r → r.sent + 8 ≤ s.tick →
      (r.reissues < 3 → ∃ t, exec (.blsbRequestTimeout q) s = .next t ∧
        ({ r with reissues := r.reissues + 1 } ∈ t.blsb.queue ∨
          ({ r with reissues := r.reissues + 1, sent := s.tick } ∈ t.blsb.waiting ∧
            t.blsb.out = some (s.cts, blsbFrame r.kind r.cell r.value r.seq))) ∧
        t.evts = s.evts ∧ t.regs = s.regs) ∧
      (3 ≤ r.reissues → ∃ t, exec (.blsbRequestTimeout q) s = .next t ∧
        t.blsb.waiting = s.blsb.waiting.filter (fun x => x.seq != r.seq) ∧ FieldSet glbBsts 6 1 0 s t ∧ Raised evGlb 8 s t)) ∧
    (s.blsb.queue = [] → s.blsb.free ≤ s.cts → (s.blsb.roll s.tick).gapUsed + (s.blsb.roll s.tick).otherUsed < 15 →
      ∃ t, exec .laserStatusRead s = .next t ∧ t.blsb.out = some (s.cts, blsbFrame 3 0x1FF 0 s.blsb.nextSeq) ∧ t.blsb.queue = [] ∧
      t.blsb.nextSeq = (s.blsb.nextSeq + 1) % 256 ∧ t.blsb.free = s.cts + 17 * blsbPeriod ∧
      t.blsb.waiting = s.blsb.waiting ++ [{ owner := .site, seq := s.blsb.nextSeq, kind := 3, cell := 0x1FF, value := 0, sent := s.tick }]) ∧
    (s.cts < s.blsb.free ∨ 15 ≤ (s.blsb.roll s.tick).gapUsed + (s.blsb.roll s.tick).otherUsed →
      ∃ t, exec .laserStatusRead s = .next t ∧ t.blsb.out = s.blsb.out ∧ t.blsb.waiting = s.blsb.waiting ∧
        t.blsb.queue = s.blsb.queue ++ [{ owner := .site, seq := s.blsb.nextSeq, kind := 3, cell := 0x1FF, value := 0 }]) ∧
    (s.blsb.laserTick + 1600 ≤ s.tick → ∃ t, exec .laserUnknown s = .next t ∧ FieldSet glbBsts 4 2 3 s t)) ∧
  (∀ b : Blsb,
    (15 ≤ b.gapUsed + b.otherUsed → b.grant = none) ∧
    (∀ g, b.queue.find? (fun r => decide (r.owner = .gap)) = some g → ∀ o, b.queue.find? (fun r => decide (r.owner ≠ .gap)) = some o →
      b.gapUsed + b.otherUsed < 15 → b.gapTick < 3 → b.grant = some (if b.gapUsed < 12 then g else o)))

/-- R66, R483: cycle 0 of the next tick. CTS reaches it and the writes that wait for it are in force; in FAULT nothing more happens; no
adapter state changes without an order; and where the clocks do not run nothing happens. R85, R86, R90: an overrun of a periodic task is counted, shown in TB_OVR_STS and raised; the
16th in a row of one item in one unit is a failure of that unit, with a record. R78 to R80, R383: a tick without a
valid upstream marker, holdover that lasts too long, and the two halves of the time base: the half whose self-checks
hold goes on alone; with no failure, the one whose CTS continues its line, and else either; with both failed, or the
lone one failed, the adapter enters FAULT. -/
def Obligations.TicksAndTime : Prop :=
  (∀ s : State,
      (s.counts = true → ∃ t, exec .tickBoundary s = .next t ∧ t.cts = (s.tick + 1) * 1024 ∧ t.inForce = s.regs ∧
        (s.acts = false → t.regs = s.regs ∧ t.lanes = s.lanes ∧ t.ports = s.ports ∧ t.bnd = s.bnd)) ∧
      (s.counts = true → s.acts = true → s.bnd.nextState = none → ∃ t, exec .tickBoundary s = .next t ∧ t.bnd.adp = s.bnd.adp) ∧
      (s.counts = false → exec .tickBoundary s = .next s) ∧
      (∀ (item : Fin 8) (unit : BitVec 14), s.acts = true → ∃ t, exec (.tickOverrun item unit) s = .next t ∧
        (getEvt t evTb).raw.getLsbD 0 = true ∧
        getF t (tbOvrCnt (item / 4)) (8 * (item % 4)) 8 = min (getF s (tbOvrCnt (item / 4)) (8 * (item % 4)) 8 + 1) 255 ∧
        (s.tb.ovrAt ≠ some s.cts ∨ getF s tbOvrSts 3 14 ≤ unit.toNat → getF t tbOvrSts 0 3 = item ∧ getF t tbOvrSts 3 14 = unit.toNat) ∧
        (overrunRun item unit.toNat s = 16 → ∃ r ∈ t.flt.held, r.unit = unit.toNat ∧ r.code = 0x0406) ∧
        (overrunRun item unit.toNat s ≠ 16 → t.flt = s.flt))) ∧
  (∀ s : State,
      (s.acts = true → s.upstream.isSome = true → s.markerSeen = false → s.tb.lostTick ≠ some s.tick → ∃ t, exec .markerLost s = .next t ∧
        (getEvt t evTb).raw.getLsbD 1 = true ∧ t.tb.miss = min (s.tb.miss + 1) 255 ∧ (s.tb.miss < 7 → t.tb.state = s.tb.state) ∧
        (7 ≤ s.tb.miss → t.tb.state = match s.tb.state with | .acquiring => .free | .locked => .holdover | x => x) ∧
        (7 ≤ s.tb.miss → s.tb.state = .locked → t.tb.trim = meanInt s.tb.trims ∧ (getEvt t evTb).raw.getLsbD 3 = true)) ∧
      (s.acts = true → s.tb.state = .holdover → s.tb.expired = false → 2 ^ getF s tbLimits 8 5 ≤ s.tb.hold →
        ∃ t, exec .holdoverExpired s = .next t ∧ t.tb = { s.tb with expired := true } ∧ Raised evTb 4 s t) ∧
      (s.tb.expired = true → exec .holdoverExpired s = .next s) ∧
      (∀ aF bF aC bC : Bool, s.alive = true → s.tb.dead = false → s.tb.mode = .pair →
        (aF = true → bF = true → ∃ t, exec (.tbMismatch aF bF aC bC) s = .next t ∧ t.bnd.adp = .fault ∧ t.tb.dead = true ∧
          Recorded unitTb 0x0401 .adapterFault s t) ∧
        ((aF = true ∧ bF = false) ∨ (aF = false ∧ bF = false ∧ aC = false ∧ bC = true) → ∃ t, exec (.tbMismatch aF bF aC bC) s = .next t ∧
          t.tb = { s.tb with mode := .bOnly } ∧ FieldSet glbLock 0 2 2 s t ∧ Raised evTb 8 s t ∧ Recorded (unitTb + 1) 0x0401 .survivor s t ∧
          t.bnd = s.bnd) ∧
        ((aF = false ∧ bF = true) ∨ (aF = false ∧ bF = false ∧ aC = true) → ∃ t, exec (.tbMismatch aF bF aC bC) s = .next t ∧
          t.tb = { s.tb with mode := .aOnly } ∧ FieldSet glbLock 0 2 1 s t ∧ Raised evTb 8 s t ∧ Recorded (unitTb + 2) 0x0401 .survivor s t ∧
          t.bnd = s.bnd) ∧
        (aF = false → bF = false → aC = false → bC = false → ∃ t, exec (.tbMismatch aF bF aC bC) s = .next t ∧
          (t.tb.mode = .aOnly ∨ t.tb.mode = .bOnly) ∧ Raised evTb 8 s t ∧ t.bnd = s.bnd)) ∧
      (∀ f g aC bC : Bool, s.alive = true → s.tb.dead = false →
        (s.tb.mode = .aOnly → exec (.tbMismatch false g aC bC) s = .next s ∧
          ∃ t, exec (.tbMismatch true g aC bC) s = .next t ∧ t.bnd.adp = .fault ∧ t.tb.dead = true) ∧
        (s.tb.mode = .bOnly → exec (.tbMismatch f false aC bC) s = .next s ∧
          ∃ t, exec (.tbMismatch f true aC bC) s = .next t ∧ t.bnd.adp = .fault ∧ t.tb.dead = true)))

/-- R423, R424, R471: bring-up and quiescing. At cycle 0 of the tick after the boundary at which what R423 waits for holds, TRAIN ends in
READY, every port of the mask having ended its training and time being acquired, and QUIESCE ends in READY, the adapter being drained; a
TRAIN that lasts 16,000 ticks, and a QUIESCE that outlasts every retry, raises its stall once. -/
def Obligations.BringUpAndQuiescing : Prop :=
  ∀ s : State,
    (s.bnd.adp = .train → s.cyc = 0 → s.bring.leaves = true → s.bring.others = true → trained s = true →
      ∃ t, exec .trainToReady s = .next t ∧ t.bnd.adp = .ready ∧ (getEvt t evMgt).raw.getLsbD 2 = true) ∧
    (s.bnd.adp = .quiesce → s.cyc = 0 → s.bring.leaves = true → drained s = true → ∃ t, exec .quiesceDrained s = .next t ∧
      t.bnd = { s.bnd with adp := .ready, nextState := none } ∧ Raised evMgt 2 s t ∧ t.regs = s.regs ∧ t.ports = s.ports ∧ t.tx = s.tx) ∧
    (s.bnd.adp = .train → s.bring.trainFrom + 16000 ≤ s.tick → s.bring.trainSaid = false → ∃ t, exec .trainStall s = .next t ∧
      Raised evMgt 6 s t ∧ t.bring = { s.bring with trainSaid := true } ∧ exec .trainStall t = .next t) ∧
    (s.bnd.adp = .quiesce → s.bring.quietFrom + rspTimeout s * (retryLim s + 1) ≤ s.tick → s.bring.quietSaid = false → drained s = false →
      ∃ t, exec .quiesceStall s = .next t ∧ Raised evMgt 7 s t ∧ t.bring = { s.bring with quietSaid := true } ∧ exec .quiesceStall t = .next t)

/-! ### Slots -/

/-- R73, R85, R178, R243, R388: the tasks that prepare a port's slots. The marker of the next tick carries its CTS, stratum, time quality
and calendar phase, and the grandmaster's die; the ledger carries the snapshot that waits, else that of this tick; the 256 entries of the
next tick are read, and an entry or a flow whose word is uncorrectable, in the bank that will be active then, counts as not valid. R260,
R261: the POWER task sets the PROP of the next marker, no deeper than the cap, and 0 while the link is busy, traffic waits or a repair is
pending, and its AGREE and AVALID; and it decides an entry only where the markers of both ends agreed on the same deeper state in this
tick. -/
def Obligations.PortTasks : Prop :=
  (∀ (p : PortId) (s : State), s.acts = true →
      ((s.port p).stopped = false → ∃ t, exec (.markerBuild p) s = .next t ∧ (t.port p).marker.isSome = true ∧
        (∀ x, (t.port p).marker = some x → x.1 = s.tick + 1 ∧
          x.2.ctsTx = (s.tick + 1) * 1024 ∧ x.2.calph = (s.tick + 1) % 64 ∧ x.2.tsv = true ∧ x.2.stratum = s.stratum ∧
          x.2.tq = s.tb.state.code ∧ (s.role = 2 → x.2.gmid = s.die) ∧ (s.role ≠ 2 → x.2.gmid = s.gmid)) ∧
        (t.port p).tx = (s.port p).tx ∧ KeepsPorts [p.val] s t) ∧
      ((s.port p).stopped = false → ∃ t, exec (.ledgerBuild p) s = .next t ∧ (t.port p).cr.ledger = some (s.tick, some
          ((s.port p).cr.deferred.getD ((s.port p).cr.snaps.headD { tick := s.tick, sent := [], rcvd := [], freed := [] }))) ∧
        (t.port p).cr.deferred = none ∧ (t.port p).tx = (s.port p).tx ∧ KeepsPorts [p.val] s t) ∧
      (∀ (bad : List (Fin 256)) (badFlows : List (Fin 4096)), ∃ t, exec (.calendarRead p bad badFlows) s = .next t ∧
        (t.port p).sc.readNext = 256 ∧ KeepsPorts [p.val] s t ∧
        (∀ e ∈ bad, fld (tget word0 (if epochNext s then t.banks.calStg else t.banks.calAct) (256 * p + e)) 31 1 = 0) ∧
        (∀ f ∈ badFlows, fld (tget word0 (if epochNext s then t.banks.flowStg else t.banks.flowAct) f) 31 1 = 0) ∧
        (bad = [] → badFlows = [] → t.banks = s.banks ∧ t.flt = s.flt))) ∧
  (∀ (p : PortId) (s : State), s.acts = true → (s.port p).ln.lstate = .up → (s.port p).pw.state = .p0 ∨ (s.port p).pw.state = .p1 →
      ∀ u, u = arrive 928 s →
      ∃ t, exec (.powerTask p) s = .next t ∧ (t.port p).pw.next.isSome = true ∧
        (∀ x, (t.port p).pw.next = some x → x.1 = s.tick + 1 ∧
          x.2.1 ≤ powerCap p u ∧ (linkBusy p u = true ∨ trafficWaits p u = true ∨ repairPending p u = true → x.2.1 = 0) ∧
          (∀ a, ownPwr p s = some a → ∀ b, peerPwrNow p s = some b → x.2.2.1 = min (pwrProp a) (pwrProp b) ∧ x.2.2.2 = true) ∧
          (ownPwr p s = none ∨ peerPwrNow p s = none → x.2.2.2 = false)) ∧
        (∀ e, (t.port p).pw.enter = some e → e.2 = s.tick + 1 ∧ (s.port p).pw.state.code < e.1.code ∧
          (∀ a, ownPwr p s = some a → pwrAgree a = e.1.code ∧ pwrValid a = true) ∧ (ownPwr p s).isSome = true ∧
          (∀ b, peerPwrNow p s = some b → pwrAgree b = e.1.code ∧ pwrValid b = true) ∧ (peerPwrNow p s).isSome = true) ∧
        (t.port p).pw.state = (s.port p).pw.state ∧ KeepsPorts [p.val] s t)

/-- R68, R73, R103, R178, R258, R266: what a slot sends at its begin, cycle 4k. In P0 a marker in slot 0, a ledger in slot 128, and in
every other slot a data flit, a copy or an idle flit, of which only a new data flit takes the next sequence number; in P1 only the marker;
in P2, where no wake is under way, and in P3 nothing. A port in training sends training flits from DELAY on, and no flit before. Past its
begin a slot is not commanded. -/
def Obligations.FlitSlots : Prop :=
  ∀ (p : PortId) (k : Fin 256) (c b : Bool) (s : State), s.acts = true → (s.port p).stopped = false → s.bnd.cellsDark = false →
    (4 * k < s.cyc → exec (.flitSlot p k c b) s = .next s) ∧
    (s.cyc ≤ 4 * k → (s.port p).ln.training = none → (s.port p).ln.lstate = .up → slotPresent (s.port p).ln.width k = true →
      (k.val = 0 → (s.port p).pw.state = .p0 ∨ (s.port p).pw.state = .p1 → ∃ t, exec (.flitSlot p k c b) s = .next t ∧
        (∃ f : Flit, (t.port p).tx.wire = some f.wire ∧ f.hdr.kind = 2 ∧
          (∀ m, (s.port p).marker = some (s.tick, m) → f.slots.head? = some (Marker.slot { m with pwr := pwrField p s }))) ∧
        (t.port p).tx.sb = (s.port p).tx.sb ∧ (t.port p).tx.nextTx = (s.port p).tx.nextTx ∧ KeepsPorts [p.val] s t) ∧
      (k.val = 128 → (s.port p).pw.state = .p0 → ∃ t, exec (.flitSlot p k c b) s = .next t ∧
        (∃ f : Flit, (t.port p).tx.wire = some f.wire ∧ f.hdr.kind = 3 ∧ f.slots.length = 15) ∧ (t.port p).tx.sb = (s.port p).tx.sb ∧
        (t.port p).tx.nextTx = (s.port p).tx.nextTx ∧ KeepsPorts [p.val] s t) ∧
      (k.val ≠ 0 → k.val ≠ 128 → (s.port p).pw.state = .p0 → ∃ t, exec (.flitSlot p k c b) s = .next t ∧
        (∃ f : Flit, (t.port p).tx.wire = some f.wire ∧ (f.hdr.kind = 0 ∨ f.hdr.kind = 1) ∧
          (f.hdr.kind = 1 → f.hdr.rpl = false → f.hdr.sel = false →
            f.hdr.seq = (s.port p).tx.nextTx.toNat ∧ (t.port p).tx.nextTx = (s.port p).tx.nextTx + 1) ∧
          (f.hdr.kind = 0 ∨ f.hdr.rpl = true ∨ f.hdr.sel = true → (t.port p).tx.nextTx = (s.port p).tx.nextTx)) ∧ KeepsPorts [p.val] s t) ∧
      ((k.val ≠ 0 ∧ (s.port p).pw.state = .p1) ∨ ((s.port p).pw.state = .p2 ∧ (s.port p).pw.wake = none) ∨ (s.port p).pw.state = .p3 →
        ∃ t, exec (.flitSlot p k c b) s = .next t ∧ (t.port p).tx = { (s.port p).tx with wire := none } ∧ KeepsPorts [p.val] s t)) ∧
    (s.cyc ≤ 4 * k → ∀ tr, (s.port p).ln.training = some tr → ∃ t, exec (.flitSlot p k c b) s = .next t ∧ KeepsPorts [p.val] s t ∧
      (tr.phase = .ring ∨ tr.phase = .cdr ∨ tr.phase = .level ∨ tr.phase = .deskew → (t.port p).tx.wire = none) ∧
      (tr.phase = .delay ∨ tr.phase = .verify ∨ tr.phase = .up → slotPresent (min 4 (ofMask tr.lanes).length) k = true →
        ∃ f : Flit, (t.port p).tx.wire = some f.wire ∧ f.hdr.kind = 4 ∧ f.hdr.nslot = 1))

/-! ### Flits received -/

/-- R93, R134, R141: a flit, its lanes descrambled, that fails FEC, CRC or the header checks in an up port's slot in P0 is discarded: its
event is raised once, NEXT_RX stands, and a NAK is due. R135, R137, R138: data and idle flits that pass. The flit whose number is
NEXT_RX is accepted; one up to 255 ahead is held, in the order of its number, and a NAK is due; a duplicate, and one too far ahead, are
dropped, with a NAK due for the latter; an idle flit touches no sequence state. -/
def Obligations.FlitsByNumber : Prop :=
  (∀ (p : PortId) (k : Fin 256) (raw : List Byte) (s : State), receives p s = true → (s.port p).ln.lstate = .up →
      (s.port p).ln.training = none → slotPresent (s.port p).ln.width k = true → k.val ≠ 0 → k.val ≠ 128 → (s.port p).pw.state = .p0 →
      quiet p k s = false → ∀ r, r = readFlit (descramble p k raw s) → straggler p r s = false →
      (∀ e : Fin 3, (match r with
          | .uncorr => decide (e = 0)
          | .crcFail _ => decide (e = 1)
          | .good f _ => !headerOk k false f.hdr && decide (e = 2)) = true →
        ∃ t, exec (.badFlitRx p k raw) s = .next t ∧ Raised (evPrt p) e s t ∧ (t.port p).rx.nakDue = true ∧
          (t.port p).rx.nextRx = (s.port p).rx.nextRx ∧ (t.port p).rx.held = (s.port p).rx.held ∧ (t.port p).tx = (s.port p).tx ∧
          KeepsPorts [p.val] s t)) ∧
  (∀ (p : PortId) (k : Fin 256) (raw : List Byte) (s : State), receives p s = true → (s.port p).ln.lstate = .up →
      (s.port p).ln.training = none → (s.port p).pw.state = .p0 → slotPresent (s.port p).ln.width k = true → k.val ≠ 0 → k.val ≠ 128 →
      ∀ (f : Flit) (fixed : List Nat), readFlit (descramble p k raw s) = .good f fixed → headerOk k false f.hdr = true →
      (f.hdr.kind = 0 → ∃ t, exec (.idleFlitRx p k raw) s = .next t ∧ (t.port p).rx.nextRx = (s.port p).rx.nextRx ∧
        (t.port p).rx.held = (s.port p).rx.held ∧ (t.port p).rx.cup = (s.port p).rx.cup ∧ (t.port p).rx.lastGood = some s.cts ∧
        (t.port p).rx.dark = false ∧ (t.port p).rx.empty = 0 ∧ KeepsPorts [p.val] s t) ∧
      (f.hdr.kind = 1 →
        (seqCase (s.port p).rx (BitVec.ofNat 16 f.hdr.seq) = .accept → (s.port p).rx.held = [] → ∃ t, exec (.dataFlitRx p k raw) s = .next t ∧
          (t.port p).rx.nextRx = (s.port p).rx.nextRx + 1 ∧ (t.port p).rx.nakDue = false ∧ (t.port p).rx.lastGood = some s.cts ∧
          KeepsPorts [p.val] s t) ∧
        (seqCase (s.port p).rx (BitVec.ofNat 16 f.hdr.seq) = .hold → ∃ t, exec (.dataFlitRx p k raw) s = .next t ∧
          (t.port p).rx.nextRx = (s.port p).rx.nextRx ∧ (t.port p).rx.nakDue = true ∧ (t.port p).rx.cup = (s.port p).rx.cup ∧
          (t.port p).rx.held = insHeld (s.port p).rx.nextRx
            { seq := BitVec.ofNat 16 f.hdr.seq, hslot := f.hdr.hslot, slots := f.slots.take f.hdr.nslot } (s.port p).rx.held ∧
          KeepsPorts [p.val] s t) ∧
        (seqCase (s.port p).rx (BitVec.ofNat 16 f.hdr.seq) = .duplicate ∨ seqCase (s.port p).rx (BitVec.ofNat 16 f.hdr.seq) = .beyond →
          ∃ t, exec (.dataFlitRx p k raw) s = .next t ∧ (t.port p).rx.nextRx = (s.port p).rx.nextRx ∧
            (t.port p).rx.held = (s.port p).rx.held ∧ (t.port p).rx.cup = (s.port p).rx.cup ∧
            (seqCase (s.port p).rx (BitVec.ofNat 16 f.hdr.seq) = .beyond → (t.port p).rx.nakDue = true) ∧ KeepsPorts [p.val] s t)))

/-- R73, R78, R93, R103, R180, R257, R259, R398: markers, ledgers and training flits that pass, their lanes descrambled. A marker's phase is
checked, whatever its TSV; with TSV 1 its power field is noted too, and with TSV 0 nothing of its time or power. A ledger's credit fields
and fault summary are stored, or one marked not valid raises LEDGER_INVALID and leaves them; a training flit's masks are those of the peer,
and its reference is kept for the echo; one that comes in the first tick after the link came up is dropped. -/
def Obligations.ControlFlits : Prop :=
  (∀ (p : PortId) (raw spare : List Byte) (ref : Nat) (s : State), receives p s = true → (s.port p).ln.lstate = .up →
    (s.port p).ln.training = none → (s.port p).pw.state = .p0 → slotPresent (s.port p).ln.width 0 = true →
    ∀ (f : Flit) (fixed : List Nat), readFlit (descramble p 0 raw s) = .good f fixed → f.hdr.kind = 2 → headerOk 0 false f.hdr = true →
    ∀ m, m = Marker.ofSlot (f.slots.getD 0 0) → ∃ t, exec (.markerRx p ⟨raw, spare⟩ ref) s = .next t ∧
      (t.port p).rx.lastGood = some s.cts ∧ (t.port p).rx.nextRx = (s.port p).rx.nextRx ∧
      (t.port p).sc.phases.head? = some (decide (m.calph = s.tick % 64)) ∧
      (m.tsv = true → (t.port p).pw.peerTick = some s.tick ∧ (t.port p).pw.peerPwr = m.pwr % 128 ∧ (t.port p).sc.peerTq = m.tq) ∧
      (m.tsv = false → (t.port p).pw = (s.port p).pw ∧ (t.port p).sc.peerTq = (s.port p).sc.peerTq ∧ t.tb = s.tb ∧ t.cts = s.cts)) ∧
  (∀ (p : PortId) (raw : List Byte) (s : State), receives p s = true → (s.port p).ln.lstate = .up →
    (s.port p).ln.training = none → (s.port p).pw.state = .p0 → slotPresent (s.port p).ln.width 128 = true →
    ∀ (f : Flit) (fixed : List Nat), readFlit (descramble p 128 raw s) = .good f fixed → f.hdr.kind = 3 → headerOk 128 false f.hdr = true →
    ∃ t, exec (.ledgerRx p raw false) s = .next t ∧ (t.port p).rx.nextRx = (s.port p).rx.nextRx ∧
      ((Ledger.ofSlots f.slots).valid = true → (t.port p).cr.peer = some ((s.port p).cr.peer.getD (Ledger.ofSlots f.slots).cfg) ∧
        (t.port p).cr.peerFreeCtl = (Ledger.ofSlots f.slots).hfreeCtl ∧ (t.port p).cr.peerFreePlv = (Ledger.ofSlots f.slots).hfreePlv ∧
        getF t (prtPeerFsum p 1) 0 32 = sf ((Ledger.ofSlots f.slots).summary.getD 1 0) 64 32) ∧
      ((Ledger.ofSlots f.slots).valid = false → (t.port p).cr.peer = (s.port p).cr.peer ∧ (getEvt t (evPrt p)).raw.getLsbD 14 = true)) ∧
  (∀ (p : PortId) (k : Fin 256) (raw : List Byte) (ref : Nat) (s : State), receives p s = true →
    ∀ (f : Flit) (fixed : List Nat), readFlit (descramble p k raw s) = .good f fixed → f.hdr.kind = 4 → ∀ m, m = TrainMsg.ofSlot (f.slots.getD 0 0) →
      (∀ tr, (s.port p).ln.training = some tr → (s.port p).ln.lstate = .training → headerOk k true f.hdr = true →
        ∃ t, exec (.trainingFlitRx p k raw ref) s = .next t ∧ (t.port p).ln.training.isSome = true ∧
          (∀ x, (t.port p).ln.training = some x → x.phase = tr.phase ∧ x.passPeer = BitVec.ofNat 5 m.pass ∧ x.wmaxPeer = m.wmax ∧
            x.echo = some (m.tref, ref))) ∧
      ((s.port p).ln.lstate = .up → (s.port p).ln.upTick = some s.tick → exec (.trainingFlitRx p k raw ref) s = .next s))

/-! ### The send side of a link -/

/-- R164, R168, R169, R247: where the peer's credits are known, a packet handed over starts only with credit for all its slots in its pool,
which is then pending; it leaves the packets staged and takes the next number; a packet of a flow that calendar slots serve lies ready for
them, and without one the next packet in the order of R168 starts if none is in progress. R140: the flush timer seals the flit under
assembly, and the acknowledgement timer makes an acknowledgement due. R146, R147, R151, R155: the replay timer raises REPLAY_TIMEOUT; it
starts a replay from OLDEST, a copy of OLDEST in selective mode, and neither while the direction is dark; in the cycle in which a NAK
stopped it, it is raised and counted beside the NAK's replay. R149, R152: the two thresholds set the mode of the next tick. -/
def Obligations.PacketsAndTimers : Prop :=
  (∀ (p : PortId) (n : Nat) (s d : State), takesPackets p s = true → d = demoteStarted p (demoteStaged p s) →
      (∀ k x, nextFlow p d = some (k, x) → (d.port p).cr.canStart k x.2.slots.length = true ∧ ∃ t, exec (.packetHandoff p n) s = .next t ∧
        (t.port p).tx.staged = (d.port p).tx.staged.erase x.2 ∧ (t.port p).tx.nextPid = (d.port p).tx.nextPid + 1 ∧
        cget (t.port p).cr.pend k = cget (d.port p).cr.pend k + x.2.slots.length ∧ (t.port p).cr.out = (d.port p).cr.out ∧
        (t.port p).sc.flows = (d.port p).sc.flows ++
          [{ flow := x.1, pid := (d.port p).tx.nextPid, pool := k, ready := s.cts, rest := x.2.txSlots (d.port p).tx.nextPid k }] ∧
        KeepsPorts [p.val] s t) ∧
      (∀ k q, nextStart p d = some (k, q) → nextFlow p d = none → (d.port p).tx.cur = none →
        (d.port p).cr.canStart k q.slots.length = true ∧ ∃ t, exec (.packetHandoff p n) s = .next t ∧
          (t.port p).tx.staged = (d.port p).tx.staged.erase q ∧ (t.port p).tx.nextPid = (d.port p).tx.nextPid + 1 ∧
          cget (t.port p).cr.pend k = cget (d.port p).cr.pend k + q.slots.length ∧ (t.port p).cr.out = (d.port p).cr.out ∧
          KeepsPorts [p.val] s t) ∧
      (nextFlow p d = none → (d.port p).tx.cur ≠ none ∨ nextStart p d = none → exec (.packetHandoff p n) s = .next d)) ∧
  (∀ (p : PortId) (s : State), s.acts = true →
      ((s.port p).stopped = false → (s.port p).tx.asm.pks ≠ [] → (s.port p).tx.asm.first + effF s (prtPoolcfg p) 8 8 ≤ s.cts →
        ∃ t, exec (.flushTimer p) s = .next t ∧ (t.port p).tx = { (s.port p).tx with asm := { (s.port p).tx.asm with sealed := true } } ∧
          KeepsPorts [p.val] s t) ∧
      (∀ c, (s.port p).rx.ackTimer = some c → (s.port p).stopped = false → c + ackTimer p s ≤ s.cts → ∃ t, exec (.ackTimerExpiry p) s = .next t ∧
        (t.port p).rx = { (s.port p).rx with ackDue := true, ackTimer := none } ∧ (t.port p).tx = (s.port p).tx ∧ KeepsPorts [p.val] s t) ∧
      (∀ c, (s.port p).tx.timer = some c → (s.port p).stopped = false → 0 < (s.port p).tx.unacked → c + effF s (prtLinkCtl p) 14 12 ≤ s.cts →
        (isDark p s = true → ∃ t, exec (.replayTimeout p) s = .next t ∧ Raised (evPrt p) 5 s t ∧
          (t.port p).tx = { (s.port p).tx with timer := some s.cts, expiredDark := true } ∧ KeepsPorts [p.val] s t) ∧
        (isDark p s = false → (s.port p).tx.selective = true → ∃ t, exec (.replayTimeout p) s = .next t ∧ Raised (evPrt p) 5 s t ∧
          (t.port p).tx.selQueue.any (fun e => e.1 == (s.port p).tx.oldest) = true ∧ (t.port p).tx.timer = none ∧
          (t.port p).tx.starts = (s.port p).tx.starts ∧ KeepsPorts [p.val] s t) ∧
        (isDark p s = false → (s.port p).tx.selective = false → ∃ t, exec (.replayTimeout p) s = .next t ∧
          (t.port p).tx.starts = (s.port p).tx.starts ++ [(s.cts, (s.port p).tx.oldest)] ∧ (t.port p).tx.timer = none ∧
          (t.port p).tx.consecutive = (s.port p).tx.consecutive + 1 ∧ (getEvt t (evPrt p)).raw.getLsbD 5 = true ∧
          (getEvt t (evPrt p)).raw.getLsbD 4 = true ∧ KeepsPorts [p.val] s t)) ∧
      (∀ c, (s.port p).tx.stopped = some (c, s.cts) → (s.port p).tx.timer = none → (s.port p).stopped = false → 0 < (s.port p).tx.unacked →
        c + effF s (prtLinkCtl p) 14 12 ≤ s.cts → ∃ t, exec (.replayTimeout p) s = .next t ∧ Raised (evPrt p) 5 s t ∧
          (t.port p).tx = { (s.port p).tx with stopped := none } ∧ KeepsPorts [p.val] s t) ∧
      (isDark p s = true → ∃ t, exec (.darkEntry p) s = .next t ∧ (t.port p).rx = { (s.port p).rx with dark := true } ∧
        (t.port p).tx = (s.port p).tx ∧ KeepsPorts [p.val] s t) ∧
      ((s.port p).ln.lstate = .up → (s.port p).tx.selective = false → selCtl p s ≠ 2 → s.tick % 64 = 63 →
        effF s (prtLinkCtl2 p) 0 10 * ((s.port p).tx.winFirst + (s.port p).tx.winCopies) < 1024 * (s.port p).tx.winCopies →
        ∃ t, exec (.selEnter p) s = .next t ∧ (t.port p).tx = { (s.port p).tx with modeNext := some true } ∧ t.tick = s.tick ∧ KeepsPorts [p.val] s t) ∧
      ((s.port p).tx.selective = true → selCtl p s ≠ 1 → effF s (prtLinkCtl2 p) 10 16 ≤ (s.port p).tx.cleanTicks →
        ∃ t, exec (.selExit p) s = .next t ∧ (t.port p).tx = { (s.port p).tx with modeNext := some false } ∧ KeepsPorts [p.val] s t))

/-! ### Power states -/

/-- R258, R261: at cycle 0 of the tick agreed, a port that is up and in a shallower state enters the deeper one, in time or late; the entry
counts in PRT_PWR_CNT, the replay and acknowledgement timers rest in P2 and P3, and only P3 changes a lane, its heaters. R263: a port in P1
that has a demand of its own, a scheduled slot due within its guard, or a mark that the peer is awake from an earlier tick, is in P0 again
at cycle 0. R264 to R266: a demand or a slot due within the wake's time and its guard begins a wake from P2 or P3 at U, the present tick;
light on the watched ring joins the peer's wake, or shows that the peer has joined this one; from P3 a cold training is due with it. The
wake from P2 is over at cycle 0 of U + 32, or later, and the timers start again; one that fails raises WAKE_FAIL, hands up its record
and begins a warm retraining at the next tick boundary. -/
def Obligations.PowerStates : Prop :=
  ∀ (p : PortId) (s : State), s.acts = true →
    (s.cyc = 0 → (s.port p).ln.lstate = .up →
      (∀ st u, (s.port p).pw.enter = some (st, u) → u = s.tick → (s.port p).pw.state.code < st.code → ∃ t, exec (.powerEntry p) s = .next t ∧
        (t.port p).pw.state = st ∧ getF t (prtPwrCnt p) 0 16 = min (getF s (prtPwrCnt p) 0 16 + 1) 65535 ∧ KeepsPorts [p.val] s t ∧
        (st ≠ .p3 → t.lanes = s.lanes) ∧ (st = .p2 ∨ st = .p3 → (t.port p).tx.timer = none ∧ (t.port p).rx.ackTimer = none)) ∧
      (∀ st u, (s.port p).pw.enterLate = some (st, u) → u = s.tick → (s.port p).pw.state.code < st.code →
        ∃ t, exec (.powerEntryLate p) s = .next t ∧
        (t.port p).pw.state = st ∧ getF t (prtPwrCnt p) 0 16 = min (getF s (prtPwrCnt p) 0 16 + 1) 65535 ∧ KeepsPorts [p.val] s t ∧
        (st ≠ .p3 → t.lanes = s.lanes) ∧ (st = .p2 ∨ st = .p3 → (t.port p).tx.timer = none ∧ (t.port p).rx.ackTimer = none))) ∧
    (s.cyc = 0 → (s.port p).pw.state = .p1 → (s.port p).pw.enter = none → (s.port p).pw.enterLate = none → (s.port p).ln.standing = [] →
      (demand p s = true ∨ guardDue p 0 s = true ∨ (match (s.port p).pw.stir with | some u => decide (u < s.tick) | none => false) = true) →
        ∃ t, exec (.p1Wake p) s = .next t ∧
        (t.port p).pw.state = .p0 ∧ (t.port p).ln = (s.port p).ln ∧ (t.port p).tx = (s.port p).tx ∧ KeepsPorts [p.val] s t ∧ t.evts = s.evts) ∧
    (s.cyc = 0 → (s.port p).pw.wake = none → (s.port p).pw.state = .p2 ∨ (s.port p).pw.state = .p3 →
      (demand p s = true ∨ guardDue p (wakeTicks (s.port p).pw.state) s = true) → ∃ t, exec (.wakeStart p) s = .next t ∧
        (t.port p).pw.wake = some { u := s.tick, own := true, began := s.tick + 1, lit := false } ∧
        (t.port p).pw.state = (s.port p).pw.state ∧ KeepsPorts [p.val] s t ∧
        ((s.port p).pw.state = .p3 → (t.port p).ln.coldDue = some false ∧ (t.port p).ln.dueTick = s.tick)) ∧
    ((s.port p).pw.state = .p2 ∨ (s.port p).pw.state = .p3 → (s.port p).pw.watchFrom ≤ s.cts →
      ((s.port p).pw.wake = none → ∃ t, exec (.lightWatch p) s = .next t ∧
        (t.port p).pw.wake = some { u := s.tick, own := false, began := s.tick + 1, lit := true } ∧ KeepsPorts [p.val] s t ∧
        ((s.port p).pw.state = .p3 → (t.port p).ln.coldDue = some false ∧ (t.port p).ln.dueTick = s.tick + 1)) ∧
      (∀ w, (s.port p).pw.wake = some w → ∃ t, exec (.lightWatch p) s = .next t ∧ (t.port p).pw.wake = some { w with lit := true } ∧
        (t.port p).ln = (s.port p).ln ∧ KeepsPorts [p.val] s t)) ∧
    (∀ w, (s.port p).pw.wake = some w → (s.port p).pw.state = .p2 →
      (s.cyc = 0 → w.ready = true → w.u + 32 ≤ s.tick → (s.port p).ln.standing = [] → ∃ t, exec (.wakeComplete p) s = .next t ∧
        (t.port p).pw.state = .p0 ∧ (t.port p).pw.wake = none ∧ (t.port p).rx.lastGood = some s.cts ∧
        (t.port p).tx.timer = (if (s.port p).tx.unacked = 0 then none else some s.cts) ∧
        (t.port p).rx.ackTimer = (if (s.port p).rx.accepted = 0 then none else some s.cts) ∧ KeepsPorts [p.val] s t) ∧
      (wakeOver w s.tick = true → (s.port p).ln.resetDue = none → ∃ t, exec (.wakeFail p) s = .next t ∧ (t.port p).ln.resetDue = some 6 ∧
        (t.port p).ln.dueTick = s.tick + 1 ∧ Raised (evPrt p) 21 s t ∧ Recorded (unitPort p) 0x0205 .linkReset s t ∧ KeepsPorts [p.val] s t))

/-! ### Inner ports and this die's windows -/

/-- R28 to R34, R189, R422: FREQ. Where the adapter's READY is 0 a header beat changes nothing; a data beat joins the first header that
awaits data, and with DLAST the transfer is judged. Of a header that is taken, with the beats it calls for: bad parity raises HDR_PARITY,
counts, and nothing answers it; a TAG in use raises MALFORMED, and the outstanding request stands; a KIND not allowed, or a WRITE or READ
whose BYTES is out of range, raises MALFORMED and is answered MALFORMED without data; bad data parity raises DATA_PARITY and is answered
MALFORMED; one that carries POISON is answered POISON. One that passes toward another die holds its TAG, and each of its parts joins the
requests that wait to be committed. -/
def Obligations.HostRequests : Prop :=
  (∀ (ip : IpId) (beat : BitVec 128) (s : State), s.portsOpen = true → readyFor ip s .freq false = false →
    exec (.freqTransfer ip (some beat) []) s = .next s) ∧
  (∀ (ip : IpId) (b : Beat) (s : State), s.portsOpen = true →
    ((s.ip ip).freqIn = [] → exec (.freqTransfer ip none [b]) s = .next s) ∧
    (∀ x, (s.ip ip).freqIn.head? = some x → b.last = false → ∃ t, exec (.freqTransfer ip none [b]) s = .next t ∧
      (t.ip ip).freqIn = (x.1, x.2 ++ [b]) :: (s.ip ip).freqIn.drop 1 ∧ (t.ip ip).freq = (s.ip ip).freq ∧ t.tx = s.tx ∧ t.evts = s.evts ∧
      KeepsIps [ip.val] s t)) ∧
  (∀ (ip : IpId) (beat : BitVec 128) (beats : List Beat) (s : State), readyFor ip s .freq false = true → (s.ip ip).freqIn = [] →
    lastOk beats = true → (beats ≠ [] ↔ ownsData beat = true) → ∀ h, h = IpHdr.ofBeat beat →
    (headerParOk beat = false → ∃ t, exec (.freqTransfer ip (some beat) beats) s = .next t ∧ Raised (evQd (ip.val / 4)) 0 s t ∧
      getF t (qdIpErrcnt ip) 0 16 = min (getF s (qdIpErrcnt ip) 0 16 + 1) 65535 ∧ (t.ip ip).freq = (s.ip ip).freq ∧
      (t.ip ip).frsp = (s.ip ip).frsp ∧ t.tx = s.tx ∧ KeepsIps [ip.val] s t) ∧
    (headerParOk beat = true → (s.ip ip).freq.any (fun f => f.tag == h.tag) = true →
      ∃ t, exec (.freqTransfer ip (some beat) beats) s = .next t ∧ Raised (evQd (ip.val / 4)) 2 s t ∧ (t.ip ip).freq = (s.ip ip).freq ∧
        (t.ip ip).frsp = (s.ip ip).frsp ∧ t.tx = s.tx ∧ KeepsIps [ip.val] s t) ∧
    (headerParOk beat = true → (s.ip ip).freq.any (fun f => f.tag == h.tag) = false →
      (h.kind ≠ kWrite ∧ h.kind ≠ kRead ∧ h.kind ≠ kAtomic ∨ (h.kind = kWrite ∨ h.kind = kRead) ∧ (h.bytes = 0 ∨ 4096 < h.bytes) →
        ∃ t, exec (.freqTransfer ip (some beat) beats) s = .next t ∧ Raised (evQd (ip.val / 4)) 2 s t ∧ t.tx = s.tx ∧
          (t.ip ip).frsp = (s.ip ip).frsp ++ [{ tag := h.tag, kind := respKind h.kind, resp := 8, addr := h.addr, bytes := 0, die := h.die }] ∧
          KeepsIps [ip.val] s t) ∧
      (h.kind = kWrite → 1 ≤ h.bytes → h.bytes ≤ 4096 → beats.length = beatCount h.addr h.bytes → beatsParOk beats = false →
        ∃ t, exec (.freqTransfer ip (some beat) beats) s = .next t ∧ Raised (evQd (ip.val / 4)) 1 s t ∧ t.tx = s.tx ∧
          (t.ip ip).frsp = (s.ip ip).frsp ++ [{ tag := h.tag, kind := kCompletion, resp := 8, addr := h.addr, bytes := 0, die := h.die }] ∧
          KeepsIps [ip.val] s t) ∧
      ((h.kind = kRead ∨ h.kind = kWrite) ∧ 1 ≤ h.bytes ∧ h.bytes ≤ 4096 ∨ h.kind = kAtomic ∧ h.bytes = 32 →
        beats.length = (if h.kind = kWrite then beatCount h.addr h.bytes else if h.kind = kAtomic then 1 else 0) → beatsParOk beats = true →
        (h.poison = true → ∃ t, exec (.freqTransfer ip (some beat) beats) s = .next t ∧ t.evts = s.evts ∧ t.tx = s.tx ∧
          (t.ip ip).frsp = (s.ip ip).frsp ++ [{ tag := h.tag, kind := respKind h.kind, resp := 3, addr := h.addr, bytes := 0, die := h.die }] ∧
          KeepsIps [ip.val] s t) ∧
        (h.poison = false → h.die ≠ s.die →
          ∀ parts, parts = (if h.kind = kAtomic then [(h.addr, 32)] else cutParts h.addr h.bytes) →
          ∀ data, data = (if h.kind = kAtomic then (beats.flatMap beatBytes).take 32 else xferBytes h.addr h.bytes beats) →
          ∃ t, exec (.freqTransfer ip (some beat) beats) s = .next t ∧
            (t.ip ip).freq = (s.ip ip).freq ++ [{ tag := h.tag, kind := h.kind, addr := h.addr, bytes := h.bytes, die := h.die, parts := parts.map (fun _ => none) }] ∧
            t.tx.waiting = s.tx.waiting ++ parts.zipIdx.map (fun e =>
              { dst := h.die, client := .freq ip h.tag e.2
                slots := freqPacket h.kind e.1.1 e.1.2 h.die s.die
                  (if h.kind = kAtomic then data else if e.2 = 0 then data.take e.1.2 else data.drop (h.bytes - e.1.2)) }) ∧
            KeepsIps [ip.val] s t ∧ t.evts = s.evts))))

/-- R29 to R32, R35, R166, R492: HREQ. The access presented next takes a TAG that is neither outstanding nor in quarantine. The host takes
the header beat presented, and its timeout starts; it takes the data beat presented, which holds its bytes and its parity, inverted in the
words that hold poison, and is marked last where it is; where nothing is presented nothing is taken. R33, R35, R36, R65: HRSP. Bad header
parity is raised and ends nothing; a response for a TAG in quarantine frees it, and one for nothing outstanding is unknown, each with its
event; a READ's data in time end its access OK. No response within 4,096 cc raises HREQ_TIMEOUT and ends the access as POISON, its TAG in
quarantine, for 65,536 cc from then. R37: a wait is raised once. R29, R30, R34: the host takes the FRSP header presented, and its data beats;
the last beat frees the TAG. -/
def Obligations.HostPort : Prop :=
  (∀ (ip : IpId) (s : State), s.portsOpen = true → ∀ d, d = present ip s →
      (∀ r, nextAccess ip s = some r → (s.ip ip).header = none → (s.ip ip).sending = [] → (s.ip ip).out < 1024 →
        (∀ n, (freeTag 1024 n (s.ip ip)).isSome) →
        (d.ip ip).header ≠ none ∧ (d.ip ip).wait = (s.ip ip).wait.erase r ∧ KeepsIps [ip.val] s d ∧ d.evts = s.evts ∧ d.regs = s.regs ∧
        (∀ x, (d.ip ip).header = some x → x.tag < 1024 ∧ (s.ip ip).busy.all (fun q => q.tag != x.tag) = true ∧
          (s.ip ip).quar.all (fun q => q.1 != x.tag) = true ∧ x.addr = r.addr ∧ x.bytes = r.bytes ∧ x.write = r.write ∧ x.client = r.client)) ∧
      (∀ bad r, (d.ip ip).header = some r → ∃ t, exec (.hreqTransfer ip false bad) s = .next t ∧ (t.ip ip).header = none ∧
        (t.ip ip).hreqHdr = r.hdrBeat ∧ (t.ip ip).busy = (s.ip ip).busy ++ [{ r with sent := s.cts }] ∧
        (t.ip ip).sending = (s.ip ip).sending.map (fun e => (e.1, e.2 + 1)) ++ (if r.write then [(r.tag, 0)] else []) ∧ KeepsIps [ip.val] s t ∧
        (r.timed = false → t.evts = s.evts)) ∧
      (∀ bad, (d.ip ip).header = none → exec (.hreqTransfer ip false bad) s = .next d) ∧
      (∀ bad r, inProgress (d.ip ip) = some r → (d.ip ip).beat ≠ none → ∃ t, exec (.hreqTransfer ip true bad) s = .next t ∧
        (t.ip ip).beat = none ∧ (t.ip ip).hreqBeat = BitVec.ofNat 2048 (beatValue r (beatChunk r (writeData r s))) ∧
        (t.ip ip).hreqPar = BitVec.ofNat 32 (dataPar (beatValue r (beatChunk r (writeData r s))) ^^^ poisonWords r bad (writeData r s)) ∧
        (t.ip ip).hreqLast = decide (r.beats + 1 = beatCount r.addr r.bytes) ∧
        (t.ip ip).sending = (if r.beats + 1 = beatCount r.addr r.bytes then (s.ip ip).sending.drop 1 else (s.ip ip).sending) ∧
        KeepsIps [ip.val] s t) ∧
      (∀ bad, (d.ip ip).beat = none → exec (.hreqTransfer ip true bad) s = .next d)) ∧
  (∀ (ip : IpId) (beat : BitVec 128) (beats : List Beat) (s : State), s.portsOpen = true → ∀ u, u = hrsp ip (some beat) beats s →
      exec (.hrspTransfer ip (some beat) beats) s = .next (settle u) ∧
      (readyFor ip s .hrsp false = true → (s.ip ip).hrspIn = [] → lastOk beats = true → (beats ≠ [] ↔ ownsData beat = true) →
        (headerParOk beat = false → Raised (evQd (ip.val / 4)) 0 s u ∧ (u.ip ip).busy = (s.ip ip).busy ∧ u.tx = s.tx ∧ KeepsIps [ip.val] s u ∧
          getF u (qdIpErrcnt ip) 0 16 = min (getF s (qdIpErrcnt ip) 0 16 + 1) 65535) ∧
        (headerParOk beat = true → outstanding ip (IpHdr.ofBeat beat).tag s = none → u.tx = s.tx ∧ KeepsIps [ip.val] s u ∧
          ((s.ip ip).quar.any (fun q => q.1 == (IpHdr.ofBeat beat).tag) = true → Raised (evQd (ip.val / 4)) 4 s u ∧
            (u.ip ip).quar = (s.ip ip).quar.filter (fun q => q.1 != (IpHdr.ofBeat beat).tag)) ∧
          ((s.ip ip).quar.any (fun q => q.1 == (IpHdr.ofBeat beat).tag) = false → Raised (evQd (ip.val / 4)) 5 s u ∧
            (u.ip ip).quar = (s.ip ip).quar)) ∧
        (∀ r, outstanding ip (IpHdr.ofBeat beat).tag s = some r → headerParOk beat = true → s.cts < r.sent + 4096 → r.write = false →
          (IpHdr.ofBeat beat).kind = kReadData → (IpHdr.ofBeat beat).bytes = r.bytes → (IpHdr.ofBeat beat).resp = 0 →
          (IpHdr.ofBeat beat).poison = false → beats.length = beatCount r.addr r.bytes → beatsParOk beats = true → ownsData beat = true →
          ∃ w, u = complete { r with coming := true } 0 (xferBytes r.addr r.bytes beats) w ∧
            (w.ip ip).busy = (s.ip ip).busy.filter (fun q => q.tag != r.tag) ∧ KeepsIps [ip.val] s w ∧ w.tx = s.tx ∧ w.evts = s.evts))) ∧
  (∀ (ip : IpId) (tag : Tag) (s : State), s.acts = true →
      (∀ r, outstanding ip tag.toNat s = some r → r.coming = false → r.sent + 4096 ≤ s.cts →
        exec (.hreqTimeout ip tag) s = .next (settle (timeOut ip r s)) ∧
        ∃ w, timeOut ip r s = complete r (lateCode r) [] w ∧ Raised (evQd (ip.val / 4)) 3 s w ∧
          (w.ip ip).quar = (s.ip ip).quar ++ [(r.tag, r.sent + 4096)] ∧ w.tx = s.tx ∧ KeepsIps [ip.val] s w) ∧
      (∃ t, exec (.quarantineExpiry ip tag) s = .next t ∧
        (t.ip ip).quar = (s.ip ip).quar.filter (fun q => !(q.1 == tag.toNat && decide (q.2 + 65536 ≤ s.cts))) ∧
        (t.ip ip).busy = (s.ip ip).busy ∧ KeepsIps [ip.val] s t)) ∧
  (∀ (ip : IpId) (s : State), s.portsOpen = true →
      (∀ ch data, chanWaits ip ch data s = true →
        ((s.ip ip).stalled.contains (chanCode ch data) = false → ∃ t, exec (.ipStall ip ⟨ch, data⟩) s = .next t ∧ Raised (evQd (ip.val / 4)) 6 s t ∧
          (t.ip ip).stalled = (s.ip ip).stalled ++ [chanCode ch data] ∧ KeepsIps [ip.val] s t) ∧
        ((s.ip ip).stalled.contains (chanCode ch data) = true → exec (.ipStall ip ⟨ch, data⟩) s = .next s)) ∧
      (∀ d, d = present ip s →
        (∀ x, (d.ip ip).frsp.head? = some x → (d.ip ip).frspHeader ≠ none → ∃ t, exec (.frspDelivery ⟨ip, false⟩) s = .next t ∧
          (t.ip ip).frsp = (s.ip ip).frsp.drop 1 ∧ (t.ip ip).frspHdr = x.hdrBeat ∧ headerParOk (t.ip ip).frspHdr = true ∧
          KeepsIps [ip.val] s t ∧ t.evts = s.evts ∧
          (frspBeats x = 0 → (t.ip ip).freq = (s.ip ip).freq.filter (fun f => f.tag != x.tag)) ∧
          (frspBeats x ≠ 0 → (t.ip ip).freq = (s.ip ip).freq ∧ t.ports = s.ports)) ∧
        (∀ o, (d.ip ip).frspOut.head? = some o → (d.ip ip).frspBeat ≠ none → ∃ t, exec (.frspDelivery ⟨ip, true⟩) s = .next t ∧
          (t.ip ip).frspData = BitVec.ofNat 2048 (frspValue o.x o.beats) ∧ (t.ip ip).frspPar = BitVec.ofNat 32 (dataPar (frspValue o.x o.beats)) ∧
          (t.ip ip).frspLast = decide (o.beats + 1 = frspBeats o.x) ∧ KeepsIps [ip.val] s t ∧ t.evts = s.evts ∧
          (t.ip ip).freq = (if o.beats + 1 = frspBeats o.x then (s.ip ip).freq.filter (fun f => f.tag != o.x.tag) else (s.ip ip).freq))))

/-! ### Transactions -/

/-- R194, R203, R210, R388: the first waiting request that can go is committed. It takes NEXT_TXID of its pair, which is kept, new or in the
place of one evicted, lies staged at the port of its route, and a new pair starts with SYNC; one without a route is answered UNREACHABLE
and counted, also where the relay entry it needs is uncorrectable; one to this die needs no fabric. R193, R195 to R197, R388, R422: a request
received for this die. One whose header slot is uncorrectable is discarded with a record. A malformed one is answered MALFORMED and one in
TEST BUSY, each counted, the rest of the transaction state standing. Of the others, a new READ or WRITE that passes the window checks goes
to its inner port, with its host address and the cycle it is due, and an atomic to its lane where the Chest has room; what fails the window
check is answered with that check's code; a repeated one is dropped while PENDING, executed again if it is a READ that was APPLIED, and else
starts nothing again. -/
def Obligations.Requests : Prop :=
  (∀ (s : State), s.acts = true →
      ∀ q, s.tx.waiting.find? (fun q => (committable q s && rreRoom q s) || decide (route q.dst s = .loop) || decide (route q.dst s = .none)) = some q →
      ∀ w, w = updT (fun x => { x with waiting := x.waiting.erase q }) s →
      ∀ relayed, relayed = (decide (q.dst ≠ s.die) && portLost (directPort q.dst s) s) →
      ∀ bad, bad = relayBad s → ∀ v, v = relayRead bad q.dst w →
        (relayed = false → v = w) ∧
        (relayed = true → ∀ x, x = { w with free := w.free + 1 } →
          v = (if bad then relayUncorr (directPort q.dst s) x else x) ∧
          Recorded unitProt 0x0501 .poisoned x (relayUncorr (directPort q.dst s) x)) ∧
        (∀ (p : Nat) (relay : Bool), route q.dst v = .port p relay → ∀ h, q.slots.head? = some h → ∀ k, srcEntry q.dst v = some k →
          ∀ u, u = commitTo q p relay (countRre q v) → exec .requestCommit s = .next (settle u) ∧ u.tx.waiting = s.tx.waiting.erase q ∧
          ∀ r, r = { txid := k.1.next, slots := reqHeader h k.1.next k.2.1 :: q.slots.drop 1, client := q.client, flow := q.flow, relay := relay } →
            getSrc u q.dst = some { k.1 with next := (k.1.next + 1) % 2 ^ 20, reqs := k.1.reqs ++ [r] } ∧
            (u.port p).tx.staged = (s.port p).tx.staged ++ [{ slots := r.slots, flow := if relay then none else q.flow }] ∧ KeepsPorts [p] s u) ∧
        (route q.dst v = .none → exec .requestCommit s = .next (settle (unreachable q v)) ∧
          ((match q.client with | .mirror _ _ => false | _ => true) = true →
            unreachable q v = finish q.client 6 [] none (bump (glbTxCnt 2) 0 16 v))) ∧
        (route q.dst v = .loop → exec .requestCommit s = .next (settle (loopRequest q v)) ∧ v.tx.spairs = s.tx.spairs)) ∧
  (∀ (p : PortId) (cb : Bool) (ws : List (Fin 64)) (s : State), s.acts = true →
      ∀ c, firstPkt p (fun c => requestFor s c && !c.timed) s = some c →
      (∃ t, exec (.targetRequest p true cb ws) s = .next t ∧ Recorded (unitPort p) 0x0501 .poisoned s t ∧ t.ips = s.ips ∧ t.tx = s.tx ∧
        KeepsPorts [p.val] s t) ∧
      (∀ s1, s1 = ws.foldl winUncorr s →
        (badRequest c = true → ∀ u, u = answerOnly c.hdr 8 s1 → exec (.targetRequest p false cb ws) s = .next (dropPkt p c u) ∧ u.tx = s1.tx ∧
          u.ips = s1.ips ∧ getF u (glbTxCnt 2) 16 16 = min (getF s1 (glbTxCnt 2) 16 16 + 1) 65535) ∧
        (badRequest c = false → s.bnd.adp = .test → ∀ u, u = answerOnly c.hdr 4 s1 → exec (.targetRequest p false cb ws) s = .next (dropPkt p c u) ∧
          u.tx = s1.tx ∧ u.ips = s1.ips ∧ getF u (glbTxCnt 5) 0 16 = min (getF s1 (glbTxCnt 5) 0 16 + 1) 65535) ∧
        (badRequest c = false → s.bnd.adp ≠ .test → ∀ g, g = gate c.hdr s1 →
          (∀ x, (checkWindow c.hdr.addr (groupOf c.hdr.src g.2) c.hdr.mirror (c.hdr.opc == opAtomic) g.2).getRight? = some x →
            (c.hdr.opc ≠ opAtomic → g.1 = .fresh ∨ g.1 = .againRead → ∃ t, exec (.targetRequest p false cb ws) s = .next t ∧
              (t.ip (window x.1 g.2).aff).wait.map (fun r => (r.addr, r.write, r.bytes, r.die, r.pkt, r.ready)) =
                (s.ip (window x.1 g.2).aff).wait.map (fun r => (r.addr, r.write, r.bytes, r.die, r.pkt, r.ready)) ++
                  [(x.2, decide (c.hdr.opc = opWrite), coverBytes c.hdr c.extent, c.hdr.src, some (p.val, c.id), deliverAt p c g.2)] ∧
              KeepsIps [(window x.1 g.2).aff] s t) ∧
            (c.hdr.opc = opAtomic → g.1 = .fresh → ∀ a, a = atomOf (.remote (remoteOf c.hdr 0)) c.hdr.src
                (leNum ((c.slots.drop 1).flatMap slotBytes)) x.2 (window x.1 g.2).aff x.1 →
              ∀ v, chestReserve c.hdr.src c.hdr.txid (chestRead cb c.hdr.src c.hdr.txid g.2) = some v →
              exec (.targetRequest p false cb ws) s = .next (dropPkt p c (atLane a v)))) ∧
          (∀ r, (checkWindow c.hdr.addr (groupOf c.hdr.src g.2) c.hdr.mirror (c.hdr.opc == opAtomic) g.2).getLeft? = some r → g.1 = .fresh →
            exec (.targetRequest p false cb ws) s =
              .next (dropPkt p c (respond { remoteOf c.hdr 0 with dup := false } r [] (settleTxid c.hdr.src c.hdr.txid r g.2)))) ∧
          (∀ k, getTgt s1 c.hdr.src = some k → c.hdr.sync = false ∨ c.hdr.retry = true → k.inMap c.hdr.txid = true →
            (tget tx0 k.map c.hdr.txid = .pending → exec (.targetRequest p false cb ws) s = .next (dropPkt p c g.2) ∧ g.2.ips = s1.ips ∧
              g.2.ports = s1.ports ∧ getF g.2 (glbTxCnt 0) 0 16 = min (getF s1 (glbTxCnt 0) 0 16 + 1) 65535) ∧
            (tget tx0 k.map c.hdr.txid = .applied → c.hdr.opc = opRead → g.1 = .againRead) ∧
            (tget tx0 k.map c.hdr.txid = .applied → c.hdr.opc ≠ opRead → ∃ t, exec (.targetRequest p false cb ws) s = .next t ∧ t.ips = s1.ips ∧
              t.tx.lanes = s1.tx.lanes)))))

/-- R191, R198, R199, R203, R388: how a request of this die ends or is sent again. A malformed response is counted and dropped, and so is one
that answers nothing outstanding; one whose header slot is uncorrectable is dropped with a record. Another ends the request it answers, and
BUSY makes it wait while transmissions are left; 64 ticks later it goes again. With no response in RSP_TIMEOUT ticks it goes again too, each
time counted and staged at the port of its route, or it is answered where it has no route; after RETRY_LIM transmissions it is answered
TIMEOUT, which is counted. -/
def Obligations.RequestsAnswered : Prop :=
  (∀ (p : PortId) (s : State), s.acts = true →
    ∀ c, firstPkt p (fun c => c.complete && decide (c.hdr.dst = s.die) && isRespOp c.hdr.opc) s = some c →
    (∀ u, u = sramUncorr (unitPort p) (unitPort p) .port 1 .poisoned (dropPkt p c s) →
      exec (.responseRx p true) s = .next (settle u) ∧ u.tx = s.tx ∧ Recorded (unitPort p) 0x0501 .poisoned s u) ∧
    (∀ u, u = responseRx p false s → exec (.responseRx p false) s = .next (settle u) ∧
      (badResponse c.hdr = true → u.tx = s.tx ∧ u.ips = s.ips ∧ getF u (glbTxCnt 2) 16 16 = min (getF s (glbTxCnt 2) 16 16 + 1) 65535) ∧
      (∀ k, getSrc s c.hdr.src = some k → badResponse c.hdr = false →
        ((answered c.hdr).all (fun x => (k.reqs.find? (fun r => r.txid == x && fits r c.hdr)).isNone) = true → u.tx = s.tx ∧ u.ips = s.ips ∧
          getF u (glbTxCnt 0) 16 16 = min (getF s (glbTxCnt 0) 16 16 + 1) 65535) ∧
        (∀ q, k.reqs.find? (fun r => r.txid == c.hdr.txid && fits r c.hdr) = some q → c.hdr.txidLast = c.hdr.txid → c.hdr.txid < 2 ^ 20 → c.bad = [] →
          (c.hdr.resp ≠ 4 → (getSrc u c.hdr.src).map (·.reqs) = some (k.reqs.filter (fun r => r.txid != c.hdr.txid))) ∧
          (c.hdr.resp = 4 → q.count < retryLim s → (getSrc u c.hdr.src).map (·.reqs) =
            some (k.reqs.map (fun r => if r.txid = c.hdr.txid then { r with busyAt := some s.tick, sent := none } else r))))))) ∧
  (∀ (d : BitVec 18) (x : BitVec 20) (s : State), s.acts = true → ∀ q, getReq d.toNat x.toNat s = some q →
    ∀ w, w = updReq d.toNat q.txid (fun x => { x with count := x.count + 1 }) s →
    (∀ t0, q.sent = some t0 → t0 + rspTimeout s ≤ s.tick →
      (q.count < retryLim s → ∀ u, u = again d.toNat q true w → exec (.rspTimeout d x) s = .next (settle u) ∧
        (∀ (p : Nat) (relay : Bool), route d.toNat s = .port p relay →
          (getReq d.toNat x.toNat u).map (fun r => (r.count, r.sent, r.client)) = some (q.count + 1, none, q.client) ∧
          (u.port p).tx.staged.length = (s.port p).tx.staged.length + 1 ∧ KeepsPorts [p] s u) ∧
        (route d.toNat s = .none → getReq d.toNat x.toNat u = none)) ∧
      (retryLim s ≤ q.count → ∀ u, u = answerReq d.toNat q 7 [] s → exec (.rspTimeout d x) s = .next (settle u) ∧
        getReq d.toNat x.toNat u = none ∧ getF u (glbTxCnt 1) 16 16 = min (getF s (glbTxCnt 1) 16 16 + 1) 65535)) ∧
    (∀ t0, q.busyAt = some t0 → t0 + 64 ≤ s.tick → ∀ u, u = again d.toNat q false w → exec (.busyResend d x) s = .next (settle u) ∧
      (∀ (p : Nat) (relay : Bool), route d.toNat s = .port p relay →
        (getReq d.toNat x.toNat u).map (fun r => (r.count, r.busyAt, r.client)) = some (q.count + 1, none, q.client) ∧
        (u.port p).tx.staged.length = (s.port p).tx.staged.length + 1 ∧ KeepsPorts [p] s u ∧ u.evts = s.evts)))

/-- R207: a packet in transit goes on at the port that R207 gives, and is counted; where it has none, or that port is lost, a response is
dropped and counted, and a request is answered for its destination and counted. R205, R388: at cycle 0 a port whose loss is due is lost: it
holds no packet any more, its credit is free, it raises PORT_LOST and hands up its record, and an engine's loss takes its link down; one lost
already only forgets it. R206: a cold training that is due gives its packets back and begins. R209: a returning port whose relayed
requests are all answered, or whose time is over, is direct again. R246: at cycle 0 the direction takes the mode its conditions give, and says
so when it leaves scheduled mode. -/
def Obligations.Routes : Prop :=
  ∀ (p : PortId) (s : State), s.acts = true →
    (∀ c, firstPkt p (fun c => c.complete && decide (c.hdr.dst ≠ s.die)) s = some c →
      (∀ o, forwardPort p c.hdr s = some o → portLost o s = false → ∃ t, exec (.relayForward p) s = .next t ∧
        (t.port o).tx.staged = (s.port o).tx.staged ++ [{ slots := c.slots, origin := some (p.val, c.id) }] ∧ KeepsPorts [p.val, o] s t ∧
        getF t (glbTxCnt 3) 0 32 = (getF s (glbTxCnt 3) 0 32 + 1) % 2 ^ 32) ∧
      ((match forwardPort p c.hdr s with | none => true | some o => portLost o s) = true → ∀ u, u = dropTransit c.hdr s →
        exec (.relayForward p) s = .next (dropPkt p c u) ∧
        (isRespOp c.hdr.opc = true → getF u (glbTxCnt 6) 0 16 = min (getF s (glbTxCnt 6) 0 16 + 1) 65535 ∧ u.ports = s.ports) ∧
        (isRespOp c.hdr.opc = false → c.hdr.opc ≠ opAtomicRelease → getF u (glbTxCnt 2) 0 16 = min (getF s (glbTxCnt 2) 0 16 + 1) 65535))) ∧
    (s.cyc = 0 → ∀ cause, (s.port p).rt.lossDue = some cause → (s.port p).rt.lossTick ≤ s.tick → ∀ b : Bool,
      ((s.port p).rt.lost = true → ∀ u, u = updPort p (fun x => { x with rt := { x.rt with lossDue := none } }) s →
        exec (.portLost ⟨p, b⟩) s = .next (settle u) ∧ (u.port p).rt = { (s.port p).rt with lossDue := none } ∧ KeepsPorts [p.val] s u ∧ u.evts = s.evts) ∧
      ((s.port p).rt.lost = false → ∀ v, v = (if b then relayUncorr p s else s) → ∀ u, u = losePort p (if cause = .engine then takeDown p v else v) →
        exec (.portLost ⟨p, b⟩) s = .next (settle u) ∧ (u.port p).rt.lost = true ∧ (u.port p).rt.lossDue = none ∧ (u.port p).tx.flight = [] ∧
        (u.port p).tx.cur = none ∧ (u.port p).cr.pend = [] ∧ ((u.port p).rt.rstate = .relay ∨ (u.port p).rt.rstate = .unreachable) ∧
        (cause = .engine → (u.port p).ln.lstate = .down) ∧ (cause ≠ .engine → (u.port p).ln = (s.port p).ln) ∧
        u.flt.held.getLast?.map (fun r => (r.cts, r.unit, r.code)) = some (s.cts, unitPort p, 0x0204) ∧
        (getEvt u (evPrt p)).raw.getLsbD 22 = true)) ∧
    (s.cyc = 0 → ∀ after, (s.port p).ln.coldDue = some after → absent p s = false → getF s (prtEng p) 0 5 ≠ 31 → (s.port p).ln.dueTick ≤ s.tick →
      ∀ v, v = beginTraining p true s → ∀ w, w = updLn p (fun x => { x with
        afterWarm := after, attempts := if s.bnd.adp = .train then x.attempts + 1 else x.attempts }) v →
      exec (.coldTraining p) s = .next (settle (handBack p (routedOver p s) w)) ∧ (w.port p).ln.lstate = .training ∧ (w.port p).tx.flight = []) ∧
    ((s.port p).rt.rstate = .draining → relayOutstanding p s = false → ∃ t, exec (.drainComplete p) s = .next t ∧
      (t.port p).rt.rstate = .direct ∧ Raised (evPrt p) 24 s t ∧ KeepsPorts [p.val] s t) ∧
    ((s.port p).rt.rstate = .draining → (s.port p).rt.drainFrom + rspTimeout s * (retryLim s + 1) ≤ s.tick →
      ∀ left, left = (s.tx.spairs.filter (fun e => directPort e.1 s == p.val)).flatMap (fun e =>
        ((e.2.elim [] (·.reqs)).filter (fun q => q.relay)).map (fun q => (e.1, q))) →
      ∀ u, u = toDirect p (left.foldl (fun t e => answerReq e.1 e.2 7 [] t) s) → exec (.drainTimeout p) s = .next (settle u) ∧
        (u.port p).rt.rstate = .direct ∧ (getEvt u (evPrt p)).raw.getLsbD 24 = true) ∧
    (s.cyc = 0 → (schedWanted p s = true → (s.port p).sc.sched = false → ∃ t, exec (.schedModeChange p) s = .next t ∧
        (t.port p).sc = { (s.port p).sc with sched := true } ∧ KeepsPorts [p.val] s t ∧ t.evts = s.evts) ∧
      (schedWanted p s = false → (s.port p).sc.sched = true → ∃ t, exec (.schedModeChange p) s = .next t ∧
        (t.port p).sc = { (s.port p).sc with sched := false } ∧ KeepsPorts [p.val] s t ∧ Raised (evPrt p) 19 s t))

/-! ### Fences, atomics and the Lectern's accesses -/

/-- R211, R216: a fence notes NEXT_TXID of its pair and waits for what comes before it, its RESULT standing, and GO while BUSY is out of
range; without a pair it is over at once, with OK. When nothing it waits for is outstanding, BUSY falls and RESULT is set. R239: a Lectern
thread that issues an access parks, another runs on, and its request waits to be committed. -/
def Obligations.FencesAndThreads : Prop :=
  ∀ s : State, s.acts = true →
    (∀ (ip : IpId) (d : BitVec 18), s.mready = true →
      ((getFence s ip).busy = true → ∃ t, exec (.fenceGo ip d) s = .next t ∧ Raised evGlb 0 s t ∧ t.tx = s.tx ∧ t.regs = s.regs ∧ Finished s t) ∧
      (∀ k, getSrc s d.toNat = some k → (getFence s ip).busy = false → ∃ t, exec (.fenceGo ip d) s = .next t ∧
        getFence t ip = { dst := d.toNat, busy := true, mark := k.next, result := (getFence s ip).result } ∧
        FieldSet (qdFence ip) 0 18 d.toNat s t ∧ t.evts = s.evts ∧ Finished s t) ∧
      ((getFence s ip).busy = false → getSrc s d.toNat = none → ∃ t, exec (.fenceGo ip d) s = .next t ∧ (getFence t ip).busy = false ∧
        (getFence t ip).result = 0 ∧ FieldSet (qdFence ip) 0 18 d.toNat s t ∧ t.evts = s.evts ∧ Finished s t)) ∧
    (∀ ip : IpId, (getFence s ip).busy = true →
      (fenceDone (getFence s ip) s = true → ∃ t, exec (.fenceComplete ip) s = .next t ∧ (getFence t ip).busy = false ∧
        (getFence t ip).result = ((getFence s ip).worst.map (·.2)).getD 0 ∧ (∀ j, j ≠ ip.val → getFence t j = getFence s j)) ∧
      (fenceDone (getFence s ip) s = false → exec (.fenceComplete ip) s = .next s)) ∧
    (∀ (th : ThreadId) (kind : AccessKind) (dst : BitVec 18) (addr : BitVec 48) (n : BitVec 13) (data : List Byte), runsThread th s = true →
      ∀ x, x = (match (generalizing := false) kind with | .read => (kRead, n.toNat) | .write => (kWrite, data.length) | .atomic => (kAtomic, 32)) →
      1 ≤ x.2 → addr.toNat % 4096 + x.2 ≤ 4096 ∨ kind = .atomic →
      ∃ t, exec (.lecternRemoteAccess th kind dst addr n data) s = .next t ∧
        t.tx.waiting = s.tx.waiting ++
          [{ dst := dst.toNat, slots := freqPacket x.1 addr.toNat x.2 dst.toNat s.die data, client := .thread th }] ∧
        (t.thread th).parked = true ∧ (∀ j, j ≠ th.val → t.thread j = s.thread j))

/-- R224 to R226, R229: the atomic unit. The atomic at the front of its lane joins its live word, or makes its word live with one READ of it;
while 64 words are live it waits, and ATM_LANE_FULL says so once. An atomic applied goes into the word's value and counts, and with the last
of a word, no covering WRITE being outstanding, the WRITE of that value is issued. R232, R235: a Chest entry that has aged past RETAIN is
free, and counted; a release frees a FILLED entry and marks one that is not, one for no entry raises its event, and a malformed one is only
counted. R233: an entry that a Chest word makes unreadable is treated as free, with CHEST_UNCORR. -/
def Obligations.AtomicUnit : Prop :=
  ∀ s : State, s.acts = true →
    (∀ q : QuadId, ∀ x, (s.alane q).arrivals.head? = some x →
      ((s.alane q).words.any (fun w => w.h == x.word) = true → ∃ t, exec (.atomicLaneEntry q) s = .next t ∧
        (t.alane q).arrivals = (s.alane q).arrivals.drop 1 ∧
        (t.alane q).words = (s.alane q).words.map (fun w => if w.h == x.word then { w with queue := w.queue ++ [x] } else w) ∧ t.ips = s.ips) ∧
      ((s.alane q).words.any (fun w => w.h == x.word) = false → (s.alane q).words.length < 64 → ∃ t,
        exec (.atomicLaneEntry q) s = .next t ∧ (t.alane q).arrivals = (s.alane q).arrivals.drop 1 ∧
        (t.alane q).words = (s.alane q).words ++ [{ h := x.word, ip := x.ip, win := x.win, queue := [x] }] ∧
        (t.ip x.ip).wait.map (fun r => (r.write, r.addr, r.bytes, r.client)) =
          (s.ip x.ip).wait.map (fun r => (r.write, r.addr, r.bytes, r.client)) ++ [(false, x.word, 8, .atomRead q x.word)] ∧
        KeepsIps [x.ip] s t ∧ t.evts = s.evts) ∧
      ((s.alane q).words.any (fun w => w.h == x.word) = false → 64 ≤ (s.alane q).words.length → (s.alane q).full = false →
        ∃ t, exec (.atomicLaneEntry q) s = .next t ∧ Raised evAtm 5 s t ∧ (t.alane q).arrivals = (s.alane q).arrivals ∧
          (t.alane q).words = (s.alane q).words ∧ exec (.atomicLaneEntry q) t = .next t)) ∧
    (∀ q : QuadId, ∀ w, (s.alane q).words.find? (fun w => w.value.isSome && !w.queue.isEmpty) = some w →
      (s.alane q).words.find? (fun y => y.h == w.h) = some w → ∀ v, w.value = some v → ∀ x, w.queue.head? = some x →
      ∃ t, exec (.atomicApply q) s = .next t ∧ getF t atmCntExec 0 32 = (getF s atmCntExec 0 32 + 1) % 2 ^ 32 ∧
        (w.queue.length = 1 → w.writing = false →
          (t.ip w.ip).wait.map (fun r => (r.write, r.addr, r.bytes, r.data, r.client)) =
            (s.ip w.ip).wait.map (fun r => (r.write, r.addr, r.bytes, r.data, r.client)) ++
              [(true, w.h, 8, bytesOf (leBytes 8 (applyAtom x v).1), .atomWrite q w.h)]) ∧
        (1 < w.queue.length ∨ w.writing = true → t.ips = s.ips ∧ (t.alane q).words.find? (fun y => y.h == w.h) =
          some { w with value := some (applyAtom x v).1, queue := w.queue.drop 1,
                        applied := w.applied ++ [(x, (applyAtom x v).2.1, (applyAtom x v).2.2)] })) ∧
    (∀ (src : BitVec 18) (txid : BitVec 20), ∀ e, chestFind src.toNat txid.toNat s = some e → ∀ f, e.filled = some f →
      (f + effF s atmCtl 0 16 ≤ s.tick → ∃ t, exec (.chestAgeExpiry src txid) s = .next t ∧ chestFind src.toNat txid.toNat t = none ∧
        t.tx.lanes = s.tx.lanes ∧ getF t atmCntExp 0 32 = (getF s atmCntExp 0 32 + 1) % 2 ^ 32) ∧
      (s.tick < f + effF s atmCtl 0 16 → exec (.chestAgeExpiry src txid) s = .next s)) ∧
    (∀ (p : PortId) (b : Bool), ∀ c, firstPkt p (fun c => c.complete && decide (c.hdr.dst = s.die) && c.hdr.opc == opAtomicRelease) s = some c →
      ((c.hdr.dup || c.hdr.part || c.hdr.mirror || c.hdr.cls % 4 != 1 || c.hdr.len != 0) = true → ∃ t, exec (.atomicReleaseRx ⟨p, b⟩) s = .next t ∧
        t.tx = s.tx ∧ t.evts = s.evts ∧ getF t (glbTxCnt 2) 16 16 = min (getF s (glbTxCnt 2) 16 16 + 1) 65535 ∧ KeepsPorts [p.val] s t) ∧
      ((c.hdr.dup || c.hdr.part || c.hdr.mirror || c.hdr.cls % 4 != 1 || c.hdr.len != 0) = false →
        (∀ e, chestFind c.hdr.src c.hdr.txid s = some e →
          (e.filled.isSome = true → ∃ t, exec (.atomicReleaseRx ⟨p, false⟩) s = .next t ∧
            chestFind c.hdr.src c.hdr.txid t = none ∧ t.evts = s.evts ∧ KeepsPorts [p.val] s t) ∧
          (e.filled = none → ∃ t, exec (.atomicReleaseRx ⟨p, false⟩) s = .next t ∧
            chestFind c.hdr.src c.hdr.txid t = some { e with released := true } ∧ t.evts = s.evts ∧ KeepsPorts [p.val] s t) ∧
          (∃ t, exec (.atomicReleaseRx ⟨p, true⟩) s = .next t ∧ chestFind c.hdr.src c.hdr.txid t = none ∧
            (getEvt t evAtm).raw.getLsbD 2 = true ∧ Recorded unitAtm 0x0501 .poisoned s t ∧ KeepsPorts [p.val] s t)) ∧
        (chestFind c.hdr.src c.hdr.txid s = none → ∃ t, exec (.atomicReleaseRx ⟨p, false⟩) s = .next t ∧ t.tx = s.tx ∧ Raised evAtm 3 s t ∧
          KeepsPorts [p.val] s t)))

/-! ### Scheduled deliveries and epochs -/

/-- R252, R253, R388: a timed delivery waits for its cycle, and one presented later counts as SLIP, SCHED_SLIP being raised once a tick; one whose
header slot is uncorrectable is discarded with a record. R255, R256, R440: at cycle 0 of its epoch tick a pending activation exchanges the
banks and brings its epoch and digest into force, with its event; the copy-back makes the staging bank equal to the active one. -/
def Obligations.SchedulesAndEpochs : Prop :=
  ∀ s : State, s.acts = true →
    (∀ (p : PortId) (ws : List (Fin 64)), ∀ c, firstPkt p (fun c => requestFor s c && c.timed) s = some c →
      (∀ b, s.cts < deliverAt p c s → exec (.scheduledDelivery p b ws) s = .next s) ∧
      (deliverAt p c s ≤ s.cts → ∃ t, exec (.scheduledDelivery p true ws) s = .next t ∧ Recorded (unitPort p) 0x0501 .poisoned s t ∧
        t.ips = s.ips ∧ t.tx = s.tx ∧ KeepsPorts [p.val] s t) ∧
      (s.cts = deliverAt p c s → exec (.scheduledDelivery p false ws) s = .next (takeRequest p c false (ws.foldl winUncorr s))) ∧
      (deliverAt p c s < s.cts → ∃ t, exec (.scheduledDelivery p false ws) s = .next t ∧ (t.port p).sc.slipped = true ∧
        getF t (prtSchedCnt p 3) 16 16 = min (getF s (prtSchedCnt p 3) 16 16 + 1) 65535 ∧
        ((s.port p).sc.slipped = false → (getEvt t (evPrt p)).raw.getLsbD 20 = true))) ∧
    (∀ a, s.banks.pend = some a → a.tick = s.tick → s.cyc = 0 → s.banks.copying = false →
      ∀ u, u = activate a s → exec .epochActivation s = .next (settle u) ∧
      u.banks.copying = true ∧ u.banks.abank = !s.banks.abank ∧ u.banks.calAct = s.banks.calStg ∧ u.banks.flowAct = s.banks.flowStg ∧
      u.banks.memAct = s.banks.memStg ∧ getF u mgtEpoch 0 32 = a.epoch % 2 ^ 32 ∧ digestNow u = a.digest % 2 ^ 64 ∧
      (getEvt u evPwr).raw.getLsbD 1 = true) ∧
    (s.banks.copying = true → ∃ t, exec .bankCopyBack s = .next t ∧ t.banks.pend = none ∧ t.banks.copying = false ∧
      t.banks.calStg = s.banks.calAct ∧ t.banks.calAct = s.banks.calAct ∧ t.banks.flowStg = s.banks.flowAct ∧ t.banks.memStg = s.banks.memAct)

/-! ### Workbench and collectives -/

/-- R292, R293, R295, R296: contributions and folds. The contribution that is next is folded and counted, one ahead is held while the
ordering window has room, one seen before changes no segment, and one that finds no room waits on, which is said; the fold that is due
updates the accumulator and advances NEXT, damaged data poisoning the result; a complete segment leaves its unit encoded. R294: a segment
that is incomplete and has not folded for STALL_TICKS raises ORDER_STALL once, and keeps its accumulator and its window entries. -/
def Obligations.WorkbenchUnits : Prop :=
  ∀ (u : WbId) (b : Bool) (s : State), s.acts = true →
    (∀ x, nextContrib (s.wbUnit u) s.cts = some x → (s.wbUnit u).inFree ≤ s.cts → ∀ c, c = { x.1 with poison := x.1.poison || b } →
      (x.2.2 = .fold → ∃ t, exec (.contributionArrival u b) s = .next t ∧ (t.wbUnit u).wait = (s.wbUnit u).wait.erase x.1 ∧
        (t.wbUnit u).inFree = s.cts + (x.1.data.length + 511) / 512 ∧
        (t.wbUnit u).segs = (s.wbUnit u).segs.map (fun k => if k.use = x.2.1.use then
          { k with folding := some (s.cts + (if k.op.rop = ropLse then 28 else 12), c), last := s.tick, stalled := false } else k) ∧
        KeepsWbs [u.val] s t ∧ getF t (wbCntFold u) 0 32 = (getF s (wbCntFold u) 0 32 + 1) % 2 ^ 32) ∧
      (x.2.2 = .hold → ∃ t, exec (.contributionArrival u b) s = .next t ∧ (t.wbUnit u).wait = (s.wbUnit u).wait.erase x.1 ∧
        (t.wbUnit u).segs = (s.wbUnit u).segs.map (fun k => if k.use = x.2.1.use then { k with held := k.held ++ [c] } else k) ∧
        KeepsWbs [u.val] s t) ∧
      (x.2.2 = .dup → ∃ t, exec (.contributionArrival u b) s = .next t ∧ (t.wbUnit u).segs = (s.wbUnit u).segs ∧
        (t.wbUnit u).wait = (s.wbUnit u).wait.erase x.1 ∧ (getEvt t evWb).raw.getLsbD 7 = true ∧ KeepsWbs [u.val] s t) ∧
      (x.2.2 = .full → ∃ t, exec (.contributionArrival u b) s = .next t ∧ (getEvt t evWb).raw.getLsbD 4 = true ∧
        (t.wbUnit u).segs = (s.wbUnit u).segs ∧ (t.wbUnit u).wait.length = (s.wbUnit u).wait.length ∧ KeepsWbs [u.val] s t)) ∧
    (∀ x, foldDue (s.wbUnit u) s.cts = some x → ∃ t, exec (.foldComplete u b) s = .next t ∧
      (∀ k ∈ (t.wbUnit u).segs, k.use = x.1.use → k.next = x.1.next + 1 ∧ (x.2.poison = false → b = false → k.acc = (foldInto x.1 x.2).1) ∧
        (x.1.ncont ≤ x.1.next + 1 → k.ready = some (s.cts + 8 + (x.1.op.bytesIn x.1.op.out + 511) / 512))) ∧
      (x.2.poison = true ∨ b = true → (getEvt t evWb).raw.getLsbD 6 = true) ∧ KeepsWbs [u.val] s t ∧ t.ports = s.ports) ∧
    (∀ x, takeEncoded u s = some x →
      (x.2.2.wbUnit u).segs = (s.wbUnit u).segs.filter (fun k => decide (k.use ≠ x.1.use)) ∧ KeepsWbs [u.val] s x.2.2 ∧
      exec (.segmentEncoded u) s = .next (allProgress (match x.1.use with
        | .col v c sg l => settle (streamSegment v c sg l x.1.gen x.2.1 x.1.poison x.2.2)
        | .chan c n => chanEncoded c n x.2.1 x.1.poison x.2.2))) ∧
    (stalledSeg u s = none → exec (.orderStall u) s = .next s) ∧
    (∀ g, stalledSeg u s = some g → ∃ t, exec (.orderStall u) s = .next t ∧ Raised evWb 5 s t ∧
      (t.wbUnit u).segs = (s.wbUnit u).segs.map (fun k => if k.use = g.use then { k with stalled := true } else k) ∧ KeepsWbs [u.val] s t ∧
      (match g.use with | .col v _ _ _ => (t.stream v).stall.map (·.2) | .chan _ _ => some g.next) = some g.next)

/-- R302, R422: GO reads the descriptor of a stream that is not open, in RUN; else it is out of range. R309: an ABORT of a stream in WAIT or RUN
ends it and goes to every other member; of another it changes nothing. R302, R303, R388: a descriptor that has come puts the stream in WAIT,
or ends it with the code of what is wrong: its READ failed, its form, or its group, a word of which may be uncorrectable. R306: scratch is
reserved where it is free, and with it the tick of RUN is known; a start that is past is said. At cycle 0 of its tick the stream is in RUN. -/
def Obligations.CollectiveControl : Prop :=
  ∀ (u : StreamId) (s : State), s.acts = true →
    (s.mready = true →
      (goRefused u s = true → ∃ t, exec (.colGo u) s = .next t ∧ Raised evGlb 0 s t ∧ t.col = s.col ∧ t.ips = s.ips ∧ Finished s t) ∧
      (goRefused u s = false → ∃ t, exec (.colGo u) s = .next t ∧ (t.stream u).st = .fetch ∧
        (t.ip ((hipPorts s).headD 0)).wait.map (fun r => (r.write, r.bytes, r.addr)) =
          (s.ip ((hipPorts s).headD 0)).wait.map (fun r => (r.write, r.bytes, r.addr)) ++
            [(false, 64, getF s colDaddrLo 6 26 * 64 + getF s colDaddrHi 0 16 * 2 ^ 32)] ∧
        KeepsStreams [u.val] s t ∧ t.evts = s.evts ∧ Finished s t) ∧
      ((s.stream u).st = .wait ∨ (s.stream u).st = .run → ∃ t, exec (.colAbort u) s = .next t ∧ (t.stream u).st = .failed ∧
        (t.stream u).code = 9 ∧ (t.stream u).reserved = none ∧ (getEvt t evWb).raw.getLsbD 9 = true ∧ KeepsStreams [u.val] s t ∧ Finished s t ∧
        t.tx.waiting.length = s.tx.waiting.length + ((List.range (s.stream u).count).filter (fun m => m != (s.stream u).index)).length) ∧
      ((s.stream u).st ≠ .wait → (s.stream u).st ≠ .run → ∃ t, exec (.colAbort u) s = .next t ∧ t.col = s.col ∧ t.evts = s.evts ∧ Finished s t)) ∧
    (∀ a, s.tx.done.find? (fun a => match a.client with
        | .stream v n => v == u.val && (s.stream u).jobs.any (fun w => w.n == n && decide (w.job = .desc)) | _ => false) = some a →
      (s.stream u).st = .fetch → ∀ d, d = ColDesc.ofBytes (nats a.data) → ∀ b s2, s2 = (if b then grpUncorr d.group s else s) →
      ∀ r, r = (if a.resp ≠ 0 then some 4 else if badColDesc (nats a.data) || cidTaken u d.cid s then some 3
        else match groupMembers d.group s2 with
          | none => some 5
          | some ms => if (ms.zipIdx.find? (fun e => e.1 == s.die)).isNone || hasTwice ms || (d.alg == 2 && layersSplit ms) then some 5 else none) →
      (∀ code, r = some code → ∃ t, exec (.colDescriptorRx ⟨u, b⟩) s = .next t ∧ (t.stream u).st = .failed ∧ (t.stream u).code = code ∧
        t.tx.done = s.tx.done.erase a ∧ KeepsStreams [u.val] s t) ∧
      (r = none → ∃ t, exec (.colDescriptorRx ⟨u, b⟩) s = .next t ∧ (t.stream u).st = .wait ∧ (t.stream u).d = d ∧
        some (t.stream u).members = groupMembers d.group s2 ∧ (t.stream u).members[(t.stream u).index]? = some s.die ∧
        t.tx.done = s.tx.done.erase a ∧ KeepsStreams [u.val] s t)) ∧
    ((s.stream u).st = .wait → (s.stream u).reserved = none →
      ∀ late, late = ((s.stream u).d.startEn && decide ((s.tick % 2 ^ 32 + 2 ^ 32 - (s.stream u).d.start) % 2 ^ 32 < 2 ^ 31)) →
      (colReserved s + (s.stream u).d.demand ≤ (wbUnits s).length * wbScratch → ∃ t, exec (.scratchReserved u) s = .next t ∧
        (t.stream u) = { s.stream u with
          reserved := some (s.stream u).d.demand
          runTick := some (if (s.stream u).d.startEn && !late then s.tick + ((s.stream u).d.start + 2 ^ 32 - s.tick % 2 ^ 32) % 2 ^ 32 else s.tick + 1) } ∧
        KeepsStreams [u.val] s t ∧ (late = true → Raised evWb 11 s t) ∧ (late = false → t.evts = s.evts)) ∧
      ((wbUnits s).length * wbScratch < colReserved s + (s.stream u).d.demand → exec (.scratchReserved u) s = .next s)) ∧
    (∀ r, (s.stream u).runTick = some r → (s.stream u).st = .wait → r ≤ s.tick → s.cyc = 0 → ∀ v, v = enterRun u s →
      exec (.colStartTick u) s = .next (progress u v) ∧ (v.stream u).st = .run ∧ (v.stream u).runTick = none ∧ KeepsStreams [u.val] s v)

/-- R307, R308, R309, R316, R317, R388: REDUCE packets, each command taking the first of its phases. A header slot that is uncorrectable
discards the packet, with a record; TEST answers BUSY; one that its pair does not let pass as new is dropped; one that finds no stream is
answered BUSY and counted. Of the others, a FOLD for a stream of another kind is malformed, and one that passes its checks goes to its segment
or is held for it; a PLACE outside its region is malformed, and else its bytes go to the host; one from a die outside the group is answered
DENIED; READY and RESTART reach the stream, and an ABORT ends it. -/
def Obligations.ReducePackets : Prop :=
  ∀ (p : PortId) (s : State), s.acts = true →
    (∀ b, ∀ e ∈ [(Instr.reduceFoldRx p b, fun k => decide (k ≤ 1), false), (Instr.reducePlaceRx p b, fun k => k == 2, false),
        (Instr.reduceReadyRx p b, fun k => k == 3, false), (Instr.reduceRestartRx p b, fun k => k == 4, false),
        (Instr.reduceAbortRx p b, fun k => k == 5, true)], ∀ c, reduceAt p e.2.1 s = some c →
      (b = true → ∃ t, exec e.1 s = .next t ∧ Recorded (unitPort p) 0x0501 .poisoned s t ∧ t.col = s.col ∧ t.tx = s.tx ∧ KeepsPorts [p.val] s t) ∧
      (b = false → s.bnd.adp = .test → exec e.1 s = .next (settle (dropPkt p c (answerOnly c.hdr 4 s)))) ∧
      (b = false → s.bnd.adp ≠ .test → ∀ g, g = gate c.hdr s → (g.1 ≠ .fresh → exec e.1 s = .next (settle (dropPkt p c g.2))) ∧
        (g.1 = .fresh → streamFor (sf (c.slots.getD 1 0) 0 32) e.2.2 s = none → ∀ v, v = noStream p c g.2 →
          exec e.1 s = .next (settle v) ∧ v.col = s.col ∧ v.wb = s.wb ∧ v.ips = s.ips ∧ (getEvt v evWb).raw.getLsbD 12 = true ∧
          getF v (colCnt 2) 16 16 = min (getF s (colCnt 2) 16 16 + 1) 65535))) ∧
    (s.bnd.adp ≠ .test →
      (∀ c, reduceAt p (fun k => decide (k ≤ 1)) s = some c → ∀ r, r = c.slots.getD 1 0 → ∀ u, streamFor (sf r 0 32) false s = some u →
        ∀ g, g = gate c.hdr s → g.1 = .fresh → ∀ x, x = s.stream u →
        (1 < x.d.kind → ∀ v, v = answerReduce p c 8 g.2 → exec (.reduceFoldRx p false) s = .next (settle v) ∧
          v.col = s.col ∧ v.wb = s.wb ∧ getF v (glbTxCnt 2) 16 16 = min (getF g.2 (glbTxCnt 2) 16 16 + 1) 65535) ∧
        (∀ f, (x.plan (sf r 32 32)).2.find? (fun f => f.level == (if redPhase r = 1 then 2 else if x.d.alg = 2 then 1 else 0)) = some f →
          x.d.kind ≤ 1 → sf r 32 32 < x.d.chunks x.d.nelem → sf r 64 16 < x.d.segsOf x.d.nelem (sf r 32 32) →
          redBytes r = x.d.size x.d.step (x.d.segLen x.d.nelem (sf r 32 32) (sf r 64 16)) → sf r 93 13 = f.ncont → sf r 80 13 < f.ncont →
          (x.sender (sf r 32 32) f.level (sf r 80 13)).map (fun m => x.members.getD m 0) = some c.hdr.src → f.own ≠ some (sf r 80 13) →
          x.gen (sf r 32 32) (sf r 64 16) ≤ sf r 109 4 →
          ∀ k : Contrib, k = { use := .col u (sf r 32 32) (sf r 64 16) f.level, gen := sf r 109 4, idx := sf r 80 13, fmt := x.d.step
                               data := reduceData c, poison := reducePoison c, pkt := some (p, c.id, remoteOf c.hdr 0), due := wholeAt p c g.2
                               timed := c.timed, slot := c.lastSlot } →
          ∀ v, v = admitFold p u c k (sf r 32 32) (sf r 64 16) g.2 → exec (.reduceFoldRx p false) s = .next (settle v) ∧
            (∀ w, unitOf k.use s = some w → k.gen = x.gen (sf r 32 32) (sf r 64 16) → x.again.contains (sf r 32 32, sf r 64 16) = false →
              (v.wbUnit w).wait = (s.wbUnit w).wait ++ [k]) ∧
            (unitOf k.use s = none → x.cursor ≤ sf r 32 32 * x.d.segs + sf r 64 16 → (v.stream u).early = x.early ++ [k]))) ∧
      (∀ c, reduceAt p (fun k => k == 2) s = some c → ∀ r, r = c.slots.getD 1 0 → ∀ u, streamFor (sf r 0 32) false s = some u →
        ∀ g, g = gate c.hdr s → g.1 = .fresh → ∀ x, x = s.stream u →
        (x.region (sf r 80 1 == 1) < sf r 32 48 + redBytes r → ∀ v, v = answerReduce p c 8 g.2 → exec (.reducePlaceRx p false) s = .next (settle v) ∧
          v.col = s.col ∧ v.ips = s.ips ∧ getF v (glbTxCnt 2) 16 16 = min (getF g.2 (glbTxCnt 2) 16 16 + 1) 65535) ∧
        (sf r 32 48 + redBytes r ≤ x.region (sf r 80 1 == 1) →
          (x.members.contains c.hdr.src = false → exec (.reducePlaceRx p false) s = .next (settle (answerReduce p c 2 g.2))) ∧
          (x.members.contains c.hdr.src = true → redBytes r ≠ 0 → ∀ v, v = placeRx p c g.2 → exec (.reducePlaceRx p false) s = .next (settle v) ∧
            ∀ i, i = colPort (x.d.turnAt (sf r 32 48) (sf r 80 1 == 1)) s →
            (v.ip i).wait.map (fun q => (q.write, q.addr, q.data)) = (s.ip i).wait.map (fun q => (q.write, q.addr, q.data)) ++
              [(true, ((if sf r 80 1 == 1 then x.d.auxAddr else x.d.outAddr) + sf r 32 48) % 2 ^ 48, reduceData c)]))) ∧
      (∀ e ∈ [(Instr.reduceReadyRx p false, fun k => k == 3, false), (Instr.reduceRestartRx p false, fun k => k == 4, false),
          (Instr.reduceAbortRx p false, fun k => k == 5, true)], ∀ c, reduceAt p e.2.1 s = some c → ∀ r, r = c.slots.getD 1 0 →
        ∀ u, streamFor (sf r 0 32) e.2.2 s = some u → ∀ g, g = gate c.hdr s → g.1 = .fresh →
        ((s.stream u).members.contains c.hdr.src = false → ∀ v, v = answerReduce p c 2 g.2 → exec e.1 s = .next (settle v) ∧ v.col = s.col ∧
          getF v (glbTxCnt 4) 16 16 = min (getF g.2 (glbTxCnt 4) 16 16 + 1) 65535) ∧
        ((s.stream u).members.contains c.hdr.src = true → ∀ v, v = answerReduce p c 0 g.2 → v.col = s.col ∧ v.wb = s.wb ∧
          (e.1 = .reduceReadyRx p false → exec (.reduceReadyRx p false) s = .next (settle (progress u (answerReduce p c 0
            (updStream u (fun x => { x with readyIn := max x.readyIn (sf r 32 32) }) g.2))))) ∧
          (e.1 = .reduceRestartRx p false → exec (.reduceRestartRx p false) s = .next (settle (progress u
            (restartSeg u (sf r 32 32) (sf r 64 16) (sf r 109 4) v)))) ∧
          (e.1 = .reduceAbortRx p false → ∀ w, w = closeStream u .failed 9 v → exec (.reduceAbortRx p false) s = .next (settle w) ∧
            (w.stream u).st = .failed ∧ (w.stream u).code = 9 ∧ KeepsStreams [u] s w))))

/-! ### DMA -/

/-- R7, R335, R339, R341, R343, R347, R422: the eight channel commands, each by the channel's mode and state and the adapter's: what it does where
it is accepted, and RANGE with nothing of the channels changed where it is refused. While MREADY is 0 they do nothing; where the adapter does
not act they answer MRERR. -/
def Obligations.DmaCommands : Prop :=
  ∀ (c : ChanId) (s : State), ∀ img, img = ((List.range 16).flatMap (fun k => leBytes 4 (getReg s (chShd c k)).toNat)) →
    (∀ i ∈ [Instr.dmaStart c, .dmaLoad c, .dmaDoorbell c, .dmaStop c, .dmaResume c, .dmaSkip c, .dmaReset c, .dmaSwedge c],
      (s.mready = false → exec i s = .next s) ∧
      (s.mready = true → s.acts = false → exec i s = .next (finishAccess true s)) ∧
      (s.mready = true → s.acts = true → ∃ t, exec i s = .next t ∧ Finished s t ∧
        ((i = .dmaStart c ∧ (s.bnd.adp ≠ .run ∨ (ringMode c s = true ∧ (s.chan c).st ≠ .idle ∧ (s.chan c).st ≠ .stopped) ∨
            (ringMode c s = false ∧ (s.chan c).st ≠ .stopped))) ∨
          (i = .dmaLoad c ∧ (s.bnd.adp ≠ .run ∨ ringMode c s = true ∨ (s.chan c).shadow = true ∨ (s.chan c).st = .ringWait)) ∨
          (i = .dmaDoorbell c ∧ (ringMode c s = false ∨ (s.bnd.adp ≠ .run ∧ s.bnd.adp ≠ .quiesce))) ∨
          (i = .dmaStop c ∧ ((s.chan c).st = .idle ∨ (s.chan c).st = .stopping ∨ (s.chan c).st = .stopped)) ∨
          (i = .dmaResume c ∧ ((s.chan c).st ≠ .halted ∨ (s.chan c).ovl = true)) ∨
          (i = .dmaSkip c ∧ ((s.chan c).st ≠ .halted ∨ (s.chan c).wbFailed = true)) ∨
          (i = .dmaReset c ∧ (s.chan c).st ≠ .idle ∧ (s.chan c).st ≠ .stopped ∧ (s.chan c).st ≠ .halted) →
        Raised evGlb 0 s t ∧ t.dma = s.dma ∧ t.regs = s.regs))) ∧
    (s.mready = true → s.acts = true →
      (s.bnd.adp = .run → ringMode c s = true → (s.chan c).st = .idle ∨ (s.chan c).st = .stopped → ∃ t, exec (.dmaStart c) s = .next t ∧
        (t.chan c).st = .run ∧ (t.chan c).ask = true ∧ KeepsChans [c.val] s t ∧ t.evts = s.evts) ∧
      (s.bnd.adp = .run → ringMode c s = false → (s.chan c).st = .stopped → (s.chan c).shadow = false → ∃ t, exec (.dmaStart c) s = .next t ∧
        (t.chan c).st = .idle ∧ KeepsChans [c.val] s t ∧ t.evts = s.evts ∧ t.regs = s.regs) ∧
      (∀ i ∈ [Instr.dmaStart c, .dmaLoad c], (i = .dmaStart c ∧ (s.chan c).st = .stopped ∧ (s.chan c).shadow = true) ∨
          (i = .dmaLoad c ∧ (s.chan c).st = .idle ∧ (s.chan c).shadow = false) → s.bnd.adp = .run → ringMode c s = false →
        (badHead img (paceEn c s) = false → ∃ t, exec i s = .next t ∧ (t.chan c).st = .run ∧ (t.chan c).busy = true ∧ (t.chan c).shadow = false ∧
          (t.chan c).cur = img ∧ (t.chan c).piece = some (pieceOf 0 0 img) ∧ (t.chan c).rpos = 0 ∧ (t.chan c).wdone = 0 ∧ KeepsChans [c.val] s t ∧
          t.evts = s.evts) ∧
        (badHead img (paceEn c s) = true → ∃ t, exec i s = .next t ∧ (t.chan c).st = .halting ∧ (t.chan c).fail.map (·.code) = some 1 ∧
          getF t (chCnt0 c) 16 16 = min (getF s (chCnt0 c) 16 16 + 1) 65535 ∧ KeepsChans [c.val] s t ∧ t.evts = s.evts)) ∧
      (s.bnd.adp = .run → ringMode c s = false → (s.chan c).st ≠ .idle → (s.chan c).st ≠ .ringWait → (s.chan c).shadow = false →
        ∃ t, exec (.dmaLoad c) s = .next t ∧ t.chan c = { s.chan c with shadow := true } ∧ KeepsChans [c.val] s t ∧ t.evts = s.evts ∧ t.regs = s.regs) ∧
      (s.bnd.adp = .run ∨ s.bnd.adp = .quiesce → ringMode c s = true → ∃ t, exec (.dmaDoorbell c) s = .next t ∧ (t.chan c).st = (s.chan c).st ∧
        KeepsChans [c.val] s t ∧ t.evts = s.evts ∧ t.regs = s.regs ∧
        ((s.chan c).st = .run → (s.chan c).busy = true → (s.chan c).pre = none → (t.chan c).askPre = true) ∧
        ((s.chan c).st = .ringWait → (t.chan c).ask = true) ∧
        ((s.chan c).st ≠ .run → (s.chan c).st ≠ .ringWait → t.chan c = s.chan c)) ∧
      ((s.chan c).st = .run →
        (((s.chan c).busy || (s.chan c).ask || (s.chan c).waits.any (fun w => decide (w.job = .head))) = true → ∃ t, exec (.dmaStop c) s = .next t ∧
          t.chan c = { s.chan c with st := .stopping } ∧ KeepsChans [c.val] s t ∧ t.evts = s.evts) ∧
        (((s.chan c).busy || (s.chan c).ask || (s.chan c).waits.any (fun w => decide (w.job = .head))) = false → ∃ t, exec (.dmaStop c) s = .next t ∧
          Raised (evDmaCh c) 3 s t ∧ (t.chan c).st = .stopped ∧ KeepsChans [c.val] s t)) ∧
      ((s.chan c).st = .ringWait → ∃ t, exec (.dmaStop c) s = .next t ∧ Raised (evDmaCh c) 3 s t ∧ (t.chan c).st = .stopped ∧ KeepsChans [c.val] s t) ∧
      ((s.chan c).st = .halting ∨ (s.chan c).st = .halted → ∃ t, exec (.dmaStop c) s = .next t ∧ t.chan c = { s.chan c with stopPend := true } ∧
        KeepsChans [c.val] s t ∧ t.evts = s.evts) ∧
      ((s.chan c).st = .halted → (s.chan c).ovl = false →
        ((s.chan c).wbFailed = true → ∃ t, exec (.dmaResume c) s = .next t ∧ (t.chan c).st = .run ∧ (t.chan c).askWb = true ∧
          (t.chan c).piece = (s.chan c).piece ∧ KeepsChans [c.val] s t ∧ t.evts = s.evts) ∧
        ((s.chan c).wbFailed = false → badHead (s.chan c).cur (paceEn c s) = false → ∃ t, exec (.dmaResume c) s = .next t ∧ (t.chan c).st = .run ∧
          (t.chan c).cur = (s.chan c).cur ∧
          (t.chan c).piece = some (pieceOf 0 (if ringMode c s then entryAddr c (headIdx c s) s else 0) (s.chan c).cur) ∧ (t.chan c).rpos = 0 ∧
          (t.chan c).taken = 0 ∧ (t.chan c).credit = (s.chan c).taken + (s.chan c).credit ∧ (t.chan c).fail = none ∧ KeepsChans [c.val] s t ∧
          t.evts = s.evts)) ∧
      (∀ f, (s.chan c).fail = some f → (s.chan c).st = .halted → (s.chan c).wbFailed = false →
        (ringMode c s = true → ∃ t, exec (.dmaSkip c) s = .next t ∧ (t.chan c).askWb = true ∧ (t.chan c).skipped = true ∧ (t.chan c).status = f.code ∧
          KeepsChans [c.val] s t ∧ t.evts = s.evts ∧ t.regs = s.regs) ∧
        (ringMode c s = false → ∃ t, exec (.dmaSkip c) s = .next t ∧ KeepsChans [c.val] s t ∧
          getF t (chCnt0 c) 0 16 = min (getF s (chCnt0 c) 0 16 + 1) 65535 ∧
          ((s.chan c).stopPend = true ∨ hStop (s.chan c).cur = true → (t.chan c).st = .stopped ∧ getF t (chSts c) 24 1 = 1 ∧
            getF t (chSts c) 16 8 = f.code % 256 ∧ (getEvt t (evDmaCh c)).raw.getLsbD 3 = true) ∧
          (hIrq (s.chan c).cur = true → (getEvt t (evDmaCh c)).raw.getLsbD 0 = true) ∧
          ((s.chan c).stopPend = false → hStop (s.chan c).cur = false → (s.chan c).shadow = false → (t.chan c).st = .idle ∧
            getF t (chSts c) 24 1 = 1 ∧ getF t (chSts c) 16 8 = f.code % 256))) ∧
      ((s.chan c).st = .idle ∨ (s.chan c).st = .stopped ∨ (s.chan c).st = .halted → ∃ t, exec (.dmaReset c) s = .next t ∧ (t.chan c).st = .idle ∧
        (t.chan c).shadow = false ∧ (t.chan c).stopPend = false ∧ (t.chan c).fail = none ∧ (t.chan c).busy = false ∧
        FieldSet (chEdges c) 0 16 (bit ((s.chan c).edgeAt == some s.cts)) s t ∧ KeepsChans [c.val] s t ∧ t.evts = s.evts) ∧
      (paceEn c s = true → edges c s < 65535 → ∃ t, exec (.dmaSwedge c) s = .next t ∧ FieldSet (chEdges c) 0 16 (edges c s + 1) s t ∧ t.evts = s.evts ∧
        t.chan c = { s.chan c with edgeAt := some s.cts } ∧ KeepsChans [c.val] s t) ∧
      (paceEn c s = true → edges c s = 65535 → ∃ t, exec (.dmaSwedge c) s = .next t ∧ Raised (evDmaCh c) 5 s t ∧ t.regs = s.regs ∧
        KeepsChans [c.val] s t) ∧
      (paceEn c s = false → ∃ t, exec (.dmaSwedge c) s = .next t ∧ t.regs = s.regs ∧ t.evts = s.evts ∧ t.dma = s.dma))

/-- R328, R330, R332 to R336, R341, R342, R344, R356, R357: descriptors and their ends. The answer taken is the first for the channel, and ends its
wait. A fetched entry that is owned begins; one that is not puts the ring in RING_WAIT with RING_EMPTY; a failing fetch halts; a prefetch that
is owned is kept while the channel runs; a fetch that finds the channel stopping stops it. An extension joins its chain, the HOPMAX-th as its
last; one that fails or is malformed halts. An index out of range refuses the piece, the lowest first, and with none the piece goes on. A
write-back answered OK advances HEAD, completes, and goes on with the prefetched entry, with a fetch, or not at all; one that fails halts.
HALTED is reached when everything outstanding but a prefetch is answered; a stall is raised once, at cycle 0. -/
def Obligations.DmaDescriptors : Prop :=
  ∀ (c : ChanId) (s : State), s.acts = true →
    (∀ f : DmaJob → Bool, ∀ x, takeAnswer c f s = some x → x.1 ∈ s.tx.done ∧ x.1.client = .chan c x.2.1.n ∧ x.2.1 ∈ (s.chan c).waits ∧
      f x.2.1.job = true ∧ x.2.2.tx.done = s.tx.done.erase x.1 ∧ (x.2.2.chan c).waits = (s.chan c).waits.filter (fun k => k.n != x.2.1.n) ∧
      (x.2.2.chan c).stall = 0 ∧ (x.2.2.chan c).stalled = false ∧ KeepsChans [c.val] s x.2.2) ∧
    (∀ x, takeAnswer c (fun j => match j with | .head => true | .prefetch => true | _ => false) s = some x → ∀ img, img = nats x.1.data →
      (x.2.1.job = .head →
        ((s.chan c).st = .stopping → ∃ t, exec (.descriptorFetched c) s = .next t ∧ Raised (evDmaCh c) 3 s t ∧ (t.chan c).st = .stopped ∧
          KeepsChans [c.val] s t) ∧
        ((s.chan c).st = .run ∨ (s.chan c).st = .ringWait →
          (x.1.resp ≠ 0 → ∃ t, exec (.descriptorFetched c) s = .next t ∧ (t.chan c).st = .halting ∧ KeepsChans [c.val] s t ∧ t.evts = s.evts ∧
            ((s.chan c).fail = none → (t.chan c).fail.map (fun k => (k.code, k.dir, k.addr)) = some (if x.1.resp = 7 then 0x10 else 0x11, 2, x.2.1.addr))) ∧
          (x.1.resp = 0 → hOwn img = true → badHead img (paceEn c s) = false →
            ∀ v, v = beginDesc c x.2.1.addr img 0 (updChan c (fun y => { y with st := .run }) x.2.2) →
            exec (.descriptorFetched c) s = .next (chanGo 64 c v) ∧
            (v.chan c).st = .run ∧ (v.chan c).busy = true ∧ (v.chan c).cur = img ∧ (v.chan c).piece = some (pieceOf 0 x.2.1.addr img) ∧
            (v.chan c).extAt = (if hExt img then some (hNext img) else none) ∧ KeepsChans [c.val] s v ∧ v.evts = s.evts) ∧
          (x.1.resp = 0 → hOwn img = false → ∃ t, exec (.descriptorFetched c) s = .next t ∧ Raised (evDmaCh c) 4 s t ∧
            (t.chan c).st = .ringWait ∧ (t.chan c).cur = (s.chan c).cur ∧ KeepsChans [c.val] s t))) ∧
      (x.2.1.job = .prefetch → (s.chan c).st = .run → ∃ t, exec (.descriptorFetched c) s = .next t ∧ (t.chan c).askPre = false ∧ t.evts = s.evts ∧
        (t.chan c).pre = (if x.1.resp = 0 ∧ hOwn img then some img else (s.chan c).pre) ∧ KeepsChans [c.val] s t)) ∧
    (∀ x, takeAnswer c (fun j => decide (j = .ext)) s = some x → (s.chan c).st = .run ∨ (s.chan c).st = .stopping → ∀ img, img = nats x.1.data →
      (x.1.resp ≠ 0 ∨ (x.1.resp = 0 ∧ (badExt img = true ∨ (dw img 0 4 4 = 2 ∧ (s.chan c).moving = true))) → ∃ t,
        exec (.extensionFetched c) s = .next t ∧ (t.chan c).st = .halting ∧ t.evts = s.evts ∧ KeepsChans [c.val] s t ∧
        ((s.chan c).fail = none → (t.chan c).fail.map (fun k => (k.code, k.dir, k.addr)) =
          some (if x.1.resp = 0 then 0x01 else if x.1.resp = 7 then 0x10 else 0x11, 2, x.2.1.addr))) ∧
      (x.1.resp = 0 → badExt img = false → dw img 0 4 4 ≠ 2 ∨ (s.chan c).moving = false →
        ∀ cut, cut = (hExt img && decide (effF s dmaCtl 0 11 ≤ (s.chan c).hops + 1)) →
        ∀ last, last = (if cut then img.zipIdx.map (fun e => if e.2 = 0 then e.1 - 2 else if 56 ≤ e.2 then 0 else e.1) else img) →
        ∀ v, v = updChan c (fun y => { y with ext := some (x.2.1.addr, last), loop := if cut then some (hNext img) else y.loop })
          (updChan c (fun y => { y with hops := (x.2.2.chan c).hops + 1, extAt := none }) x.2.2) →
        exec (.extensionFetched c) s = .next (chanGo 64 c v) ∧ (v.chan c).ext = some (x.2.1.addr, last) ∧ (v.chan c).hops = (s.chan c).hops + 1 ∧
        (cut = true → hExt last = false ∧ (v.chan c).loop = some (hNext img)) ∧ (cut = false → (v.chan c).loop = (s.chan c).loop) ∧
        KeepsChans [c.val] s v ∧ v.regs = s.regs ∧ v.evts = s.evts)) ∧
    (∀ x, takeAnswer c (fun j => decide (j = .writeBack)) s = some x →
      (x.1.resp ≠ 0 → ∃ t, exec (.writeBackAnswer c) s = .next t ∧ (t.chan c).st = .halting ∧ (t.chan c).wbFailed = true ∧ (t.chan c).askWb = false ∧
        headIdx c t = headIdx c s ∧ KeepsChans [c.val] s t) ∧
      (x.1.resp = 0 → ∀ v, v = ringDone c x.2.2 → exec (.writeBackAnswer c) s = .next (chanGo 64 c v) ∧
        headIdx c v = (headIdx c s + 1) % ringSize c s % 65536 ∧ getF v (chCnt0 c) 0 16 = min (getF s (chCnt0 c) 0 16 + 1) 65535 ∧
        getF v (chSts c) 16 8 = (s.chan c).status % 256 ∧ getF v (chSts c) 24 1 = bit (s.chan c).skipped ∧ KeepsChans [c.val] s v ∧
        (hIrq (s.chan c).cur = true → (getEvt v (evDmaCh c)).raw.getLsbD 0 = true) ∧
        ((s.chan c).st = .stopping ∨ (s.chan c).stopPend = true ∨ hStop (s.chan c).cur = true → (v.chan c).st = .stopped ∧ (v.chan c).pre = none ∧
          (getEvt v (evDmaCh c)).raw.getLsbD 3 = true) ∧
        ((s.chan c).st ≠ .stopping → (s.chan c).stopPend = false → hStop (s.chan c).cur = false →
          ((s.chan c).pre = none → (v.chan c).st = .run ∧ (v.chan c).busy = false ∧
            (v.chan c).ask = !(s.chan c).waits.any (fun w => decide (w.job = .prefetch))) ∧
          (∀ img, (s.chan c).pre = some img → badHead img (paceEn c s) = false → (v.chan c).st = .run ∧ (v.chan c).busy = true ∧
            (v.chan c).cur = img ∧ (v.chan c).pre = none)))) ∧
    (∀ k, (s.chan c).piece = some k → (s.chan c).moving = true → (s.chan c).tabOk = false → (s.chan c).st = .run ∨ (s.chan c).st = .stopping →
      k.nidx ≤ (((s.chan c).tab.map (fun t => t.2.length)).foldl (· + ·) 0) →
      (∀ j, ((List.range k.nidx).find? (fun i => (s.chan c).entry i != nullIdx && decide (k.imax ≤ (s.chan c).entry i))) = some j →
        ∃ t, exec (.indexCheckPass c) s = .next t ∧ (t.chan c).st = .halting ∧ KeepsChans [c.val] s t ∧
        ((s.chan c).fail = none → (t.chan c).fail.map (fun f => (f.code, f.dir, f.addr)) = some (4, 3, k.iaddr + 4 * j))) ∧
      (((List.range k.nidx).all (fun i => (s.chan c).entry i == nullIdx || (decide ((s.chan c).entry i < k.imax) &&
          decide ((if hPattern (s.chan c).cur = 3 then k.sAddr else k.dAddr) + (s.chan c).entry i * 2 ^ k.oshift + k.elem ≤ 2 ^ 48)))) = true →
        ∀ v, v = updChan c (fun y => { y with tabOk := true }) s → exec (.indexCheckPass c) s = .next (chanGo 64 c v))) ∧
    ((s.chan c).st = .halting → (s.chan c).waits.all (fun w => decide (w.job = .prefetch)) = true → ∃ t, exec (.halt c) s = .next t ∧
      Raised (evDmaCh c) 1 s t ∧ (t.chan c).st = .halted ∧ (t.chan c).fail = (s.chan c).fail ∧ (t.chan c).piece = none ∧ (t.chan c).space = 0 ∧
      KeepsChans [c.val] s t ∧ t.regs = s.regs) ∧
    ((s.chan c).st ≠ .halting ∨ (s.chan c).waits.all (fun w => decide (w.job = .prefetch)) = false → exec (.halt c) s = .next s) ∧
    (s.cyc = 0 → (s.chan c).busy = true → (s.chan c).st = .run ∨ (s.chan c).st = .stopping → getF s (chStall c) 0 16 ≤ (s.chan c).stall →
      ((s.chan c).stalled = false → ∃ t, exec (.dmaStall c) s = .next t ∧ Raised (evDmaCh c) 2 s t ∧ t.chan c = { s.chan c with stalled := true } ∧
        KeepsChans [c.val] s t ∧ t.regs = s.regs) ∧
      ((s.chan c).stalled = true → exec (.dmaStall c) s = .next s))

/-- R322, R323, R326, R388: the engines. An engine serves, of the channels mapped to it that ask, one of the highest PRIO, and of these the next
after the last; in service, with fewer than 512 outstanding, it grants what that channel asks for, which is outstanding from then; where the
Dresser words of a write are uncorrectable the channel halts with POISON instead, and a record. R330, R336, R342, R357: answers. Read data
is kept by its position, a write answered OK counts, an index part joins its table, and each failure halts with its code. R339: a burst
takes a credited edge, or one counted, and without either it waits. R346: an engine whose self-check fails leaves service at the next tick,
with a record. -/
def Obligations.DmaTransfers : Prop :=
  ∀ (c : ChanId) (e : Fin 16) (s : State), s.acts = true →
    (∀ g, grantee e s = some g →
      (if e.val < 8 then readEng g.1 s = e.val ∧ readAsk g.1 s = some g.2 else writeEng g.1 s = e.val ∧ writeAsk g.1 s = some g.2) ∧
      ((s.dma.map (·.1)).all (fun k =>
        !(if e.val < 8 then readEng k s == e.val && (readAsk k s).isSome else writeEng k s == e.val && (writeAsk k s).isSome) ||
        decide (getF s (chCfg k) 1 2 < getF s (chCfg g.1) 1 2) || (getF s (chCfg k) 1 2 == getF s (chCfg g.1) 1 2 &&
          decide ((g.1 + 127 - tget last0 s.granted e) % 128 ≤ (k + 127 - tget last0 s.granted e) % 128)))) = true) ∧
    (s.bnd.portsLow = false → ∀ u, u = chansGo e s →
      (∀ b, grantee e u = none ∨ engInSvc e u = false ∨ 512 ≤ engOut e u → exec (.dmaEngineGrant e b) s = .next u) ∧
      (∀ g, grantee e u = some g → engInSvc e u = true → engOut e u < 512 →
        (∀ v, v = grantTo e g.1 g.2 u → exec (.dmaEngineGrant e false) s = .next (settle v) ∧ tget last0 v.granted e = g.1 ∧ KeepsChans [g.1] u v ∧
          (v.chan g.1).nextN = (u.chan g.1).nextN + 1 ∧ (v.chan g.1).waits = (u.chan g.1).waits ++
            [{ n := (u.chan g.1).nextN, job := g.2.job, addr := g.2.addr, fab := g.2.fab, die := g.2.die, eng := e }]) ∧
        (∀ pos, (match g.2.job with | .write p _ => some p | _ => none) = some pos → (u.chan g.1).piece ≠ none → ∀ v, v = dresserFail e g.1 pos u →
          exec (.dmaEngineGrant e true) s = .next (settle v) ∧ (v.chan g.1).st = .halting ∧ (v.chan g.1).waits = (u.chan g.1).waits ∧
          ((u.chan g.1).fail = none → (v.chan g.1).fail.map (fun f => (f.code, f.dir)) = some (0x13, 0)) ∧
          Recorded (unitDmaEng (readEng g.1 u)) 0x0501 .poisoned u v ∧ KeepsChans [g.1] u v))) ∧
    (∀ x, takeAnswer c (fun j => match j with | .index _ => true | .read _ _ => true | .write _ _ => true | _ => false) s = some x →
      (x.1.resp = 0 → ∀ v, v = (match x.2.1.job with
          | .index off => indexPart c x.2.1 0 x.1.data off x.2.2 | .read pos n => readAnswered c x.2.1 pos n 0 x.1.data x.2.2
          | .write pos n => writeAnswered c x.2.1 pos n 0 x.2.2 | _ => x.2.2) →
        exec (.dmaTransactionAnswer c) s = .next (chanGo 64 c v) ∧ KeepsChans [c.val] s v ∧ v.regs = s.regs ∧
        (v.chan c).tab = (s.chan c).tab ++ (match x.2.1.job with
          | .index off => [(off / 4, (List.range (x.1.data.length / 4)).map (fun i => leNum (nats ((x.1.data.drop (4 * i)).take 4))))] | _ => []) ∧
        (v.chan c).src = (s.chan c).src ++ (match x.2.1.job with
          | .read pos n => [(pos, if (s.chan c).descending then (x.1.data.take n).reverse else x.1.data.take n)] | _ => []) ∧
        (v.chan c).wdone = (s.chan c).wdone + (match x.2.1.job with | .write _ n => n | _ => 0)) ∧
      (x.1.resp ≠ 0 → ∃ t, exec (.dmaTransactionAnswer c) s = .next t ∧ (t.chan c).st = .halting ∧
        (t.chan c).src = (s.chan c).src ∧ (t.chan c).wdone = (s.chan c).wdone ∧ KeepsChans [c.val] s t ∧
        getF t (chCnt0 c) 16 16 = min (getF s (chCnt0 c) 16 16 + 1) 65535 ∧
        ((s.chan c).fail = none → (t.chan c).fail.map (fun k => (k.code, k.dir, k.addr, k.fab)) =
          some (if x.1.resp = 3 then 0x13 else if x.1.resp = 7 then (if x.2.1.fab ∧ x.2.1.die = s.die then 0x13 else 0x12) else if x.1.resp = 6 then 0x15 else 0x14,
            match x.2.1.job with | .read _ _ => 0 | .write _ _ => 1 | _ => 3, x.2.1.addr, x.2.1.fab)))) ∧
    (∀ k, (s.chan c).piece = some k → hPaced (s.chan c).cur = true → (s.chan c).moving = true → (s.chan c).st = .run ∨ (s.chan c).st = .stopping →
      (s.chan c).allow ≤ (s.chan c).base + (s.chan c).rpos → (s.chan c).allow < (s.chan c).base + k.len →
      (0 < (s.chan c).credit → ∀ v, v = updChan c (fun y => { y with
          credit := y.credit - 1, taken := y.taken + 1, allow := y.allow + burstBytes c s }) s → exec (.burstStart c) s = .next (chanGo 64 c v)) ∧
      ((s.chan c).credit = 0 → 0 < edges c s → ∀ v, v = setF (chEdges c) 0 16 (edges c s - 1) (updChan c (fun y => { y with
          taken := y.taken + 1, allow := y.allow + burstBytes c s }) s) → exec (.burstStart c) s = .next (chanGo 64 c v) ∧
        FieldSet (chEdges c) 0 16 (edges c s - 1) s v) ∧
      ((s.chan c).credit = 0 → edges c s = 0 → exec (.burstStart c) s = .next s)) ∧
    (engInSvc e s = true → s.leaving.all (fun l => l.1 != unitDmaEng e) = true → ∃ t, exec (.dmaEngineLost e) s = .next t ∧
      Recorded (unitDmaEng e) 0x0403 (if (nextEngine e s).isSome then .remap else .unitOut) s t ∧
      t.leaving = s.leaving ++ [(unitDmaEng e, s.tick + 1)] ∧ t.dma = s.dma ∧ t.regs = s.regs)

/-! ### Failover and the fault log -/

/-- R374 to R378, R380, R388, R392, R394: the shadow and the hand-overs of a quad. The shadow attaches, in the marker slot, to the next eligible
port; a dwell over, it exchanges roles. A mismatch stops the port at once and decides by the two verdicts who serves it, from the effective
tick of R376, and what is recorded; a self-check failure is that mismatch at the shadowed port, and else takes the engine out of service: the
shadow takes its port over with a link reset, a lower-numbered port before a higher one that failed in the same cycle, or the port is lost, and
so is one whose next engine fails before its hand-over; an uncorrectable word of the state store poisons as well. At cycle 0 the hand-overs
whose tick has come take effect: who leaves has left, the port goes on under the engine named, and the link reset that belongs to it begins. -/
def Obligations.EngineHandOvers : Prop :=
  ∀ (q : QuadId) (s : State), s.acts = true →
    (s.cyc ≤ 3 → (s.quad q).attached = none → (s.quad q).reset = none → shadowFree q s = true →
      (∀ k : Fin 16, shadowable (16 * q.val + ((s.quad q).next + k.val) % 16) s = true →
        ((List.range k.val).all (fun j => !shadowable (16 * q.val + ((s.quad q).next + j) % 16) s)) = true → ∃ t, exec (.shadowAttach q) s = .next t ∧
        t.quad q = { s.quad q with attached := some (((s.quad q).next + k.val) % 16, s.tick), dwell := effF s (qdShdCtl q) 1 5
                                   next := (((s.quad q).next + k.val) % 16 + 1) % 16 } ∧ KeepsQuads [q.val] s t ∧ t.regs = s.regs ∧ t.evts = s.evts) ∧
      (((List.range 16).all (fun i => !shadowable (16 * q.val + i) s)) = true → exec (.shadowAttach q) s = .next s)) ∧
    (∀ a, (s.quad q).attached = some a → ∀ p, p = 16 * q.val + a.1 → a.1 < 16 →
      (s.cyc = 0 → a.2 + 2 ^ (s.quad q).dwell ≤ s.tick →
        (effF s (qdShdCtl q) 0 1 = 1 → ∃ t, exec (.shadowRotation q) s = .next t ∧ engOf p t = seng q s ∧ seng q t = 31 ∧
          (t.quad q).attached = none ∧ (t.quad q).testing = (s.quad q).testing ++ [engOf p s] ∧
          t.tst.rot = s.tst.rot ++ [(q.val, engOf p s)] ∧ getF t (qdRotCnt q) 0 32 = (getF s (qdRotCnt q) 0 32 + 1) % 2 ^ 32 ∧
          KeepsQuads [q.val] s t ∧ t.ports = s.ports) ∧
        (effF s (qdShdCtl q) 0 1 = 0 → exec (.shadowRotation q) s = .next s)) ∧
      (a.2 < s.tick →
        (∀ eF sF : Bool, ∀ h : HandOver,
          h = ⟨p, s.cts, if eF && sF then 31 else if sF then engOf p s else seng q s, handEff (s.cts + 8), !eF && !sF, eF || !sF,
            (if eF then [engOf p s] else []) ++ (if sF then [seng q s] else []), if !eF && !sF then some (engOf p s) else none⟩ →
          ∃ t, exec (.engMismatch q eF sF) s = .next t ∧ (t.quad q).attached = none ∧ (t.quad q).hand = (s.quad q).hand ++ [h] ∧
          (t.port p).stopped = true ∧ (getEvt t (evQd q)).raw.getLsbD 8 = true ∧ KeepsPorts [p] s t ∧ KeepsQuads [q.val] s t ∧
          Recorded (unitEng q (engOf p s)) 0x0301
            (if eF then (if sF then lostAct p s else .takeover) else (if sF then .resume else .takeoverReset)) s t ∧
          (t.port p).rt.lossDue = (if eF && sF then some .engine else (s.port p).rt.lossDue) ∧
          (eF = true → sF = true → (t.port p).rt.lossTick = s.tick + 1)) ∧
        (∀ (e : EngineId) (b : Bool), engIn q e s = true →
          (e.val = engOf p s → exec (.engSelfcheck q e b false) s = exec (.engMismatch q true false) s) ∧
          (e.val ≠ engOf p s → e.val = seng q s → exec (.engSelfcheck q e b false) s = exec (.engMismatch q false true) s)))) ∧
    (∀ (e : EngineId) (b : Bool),
      (∀ x, engIn q e s = false → exec (.engSelfcheck q e b x) s = .next s) ∧
      (engIn q e s = true → ((s.quad q).attached.all (fun a => decide (s.tick ≤ a.2) || engOf (16 * q.val + a.1) s != e.val)) = true →
        ((s.quad q).hand.all (fun h => h.eng != e.val)) = true →
        (e.val = seng q s → (s.quad q).attached = none → ∃ t, exec (.engSelfcheck q e b false) s = .next t ∧ seng q t = 31 ∧ engIn q e t = false ∧
          (getEvt t (evQd q)).raw.getLsbD 9 = true ∧ (getEvt t (evQd q)).raw.getLsbD 11 = true ∧ Recorded (unitEng q e) 0x0302 .unitOut s t ∧ t.ports = s.ports) ∧
        (∀ p, servedBy q e s = some p → e.val ≠ seng q s →
          (shadowFree q s = true → ∃ t, exec (.engSelfcheck q e b false) s = .next t ∧ (t.quad q).attached = none ∧
            (t.quad q).hand = (s.quad q).hand ++ [{ port := p, since := s.cts, eng := seng q s, eff := handEff s.cts, reset := true, change := true }] ∧
            engIn q e t = false ∧ (t.port p).stopped = true ∧ Raised (evQd q) 9 s t ∧ Recorded (unitEng q e) 0x0302 .takeoverReset s t ∧
            KeepsPorts [p] s t ∧ KeepsQuads [q.val] s t) ∧
          (∀ o, displaced q p s = some o → shadowFree q s = false → ∃ t, exec (.engSelfcheck q e b false) s = .next t ∧
            (t.quad q).hand = (s.quad q).hand.erase o ++
              [{ port := p, since := s.cts, eng := seng q s, eff := handEff s.cts, reset := true, change := true, leave := o.leave }] ∧
            engOf o.port t = 31 ∧ (t.port o.port).rt.lossDue = some .engine ∧ Recorded (unitEng q e) 0x0302 .takeoverReset s t) ∧
          (shadowFree q s = false → displaced q p s = none → ∃ t, exec (.engSelfcheck q e b false) s = .next t ∧ engOf p t = 31 ∧ engIn q e t = false ∧
            (t.port p).stopped = true ∧ (t.port p).rt.lossDue = some .engine ∧ (t.port p).rt.lossTick = s.tick + 1 ∧ t.quads = s.quads ∧
            (getEvt t (evQd q)).raw.getLsbD 12 = true ∧ Recorded (unitEng q e) 0x0302 .unitOut s t ∧ KeepsPorts [p] s t)) ∧
        (servedBy q e s = none → e.val ≠ seng q s → (s.quad q).attached = none → ∃ t, exec (.engSelfcheck q e b false) s = .next t ∧
          engIn q e t = false ∧ (t.quad q).testing = (s.quad q).testing.filter (fun k => k != e.val) ∧ Raised (evQd q) 9 s t ∧
          Recorded (unitEng q e) 0x0302 .unitOut s t ∧ t.ports = s.ports)) ∧
      (∀ h : HandOver, (s.quad q).hand = [h] → h.eng = e.val → engIn q e s = true → (s.quad q).attached = none → ∃ t,
        exec (.engSelfcheck q e b false) s = .next t ∧ (t.quad q).hand = [] ∧ engIn q e t = false ∧
        (h.port / 16 = q.val → engOf h.port t = 31) ∧ (t.port h.port).rt.lossDue = some .engine ∧ (t.port h.port).rt.lossTick = s.tick + 1 ∧
        (getEvt t (evQd q)).raw.getLsbD 11 = true ∧ Recorded (unitEng q e) 0x0302 .unitOut s t ∧ KeepsPorts [h.port] s t) ∧
      (∀ p, servedBy q e s = some p → engIn q e s = true → ∀ u, u = sramUncorr (unitEng q e) (unitPort p) .port 6 .poisoned s →
        exec (.engSelfcheck q e b true) s = exec (.engSelfcheck q e b false) u ∧
        Recorded (unitPort p) 0x0501 .poisoned s u ∧ u.quads = s.quads ∧ u.ports = s.ports ∧ u.regs = s.regs)) ∧
    (s.cyc ≠ 0 → exec (.handoverEffective q) s = .next s) ∧
    (s.cyc = 0 → ((s.quad q).hand.all (fun h => decide (s.tick < h.eff))) = true → exec (.handoverEffective q) s = .next s) ∧
    (∀ h : HandOver, (s.quad q).hand = [h] → s.cyc = 0 → h.eff ≤ s.tick → exec (.handoverEffective q) s = .next (handNow q h s)) ∧
    (∀ h, h ∈ (s.quad q).hand → h.port / 16 = q.val → h.eng < 32 → ∀ t, t = handNow q h s →
      (t.quad q).hand = (s.quad q).hand.erase h ∧ (h.eng = 31 → engOf h.port t = 31 ∧ KeepsPorts [] s t) ∧
      (h.eng ≠ 31 → (t.port h.port).stopped = false) ∧ (h.eng = 31 ∨ h.reset = false ∨ (s.port h.port).ln.training = none →
        seng q t = 31 ∧ engOf h.port t = (if h.change then h.eng else if h.eng = 31 then 31 else engOf h.port s) ∧
        (∀ e ∈ h.leave, engIn q e t = false) ∧ (h.test = none → (getEvt t (evQd q)).raw.getLsbD 11 = true) ∧
        (∀ e, h.test = some e → (t.quad q).testing = (s.quad q).testing ++ [e]) ∧
        (h.reset = false → KeepsPorts [h.port] s t) ∧
        (h.eng ≠ 31 → h.change = true → (getEvt t (evQd q)).raw.getLsbD 10 = true) ∧
        (h.eng ≠ 31 → h.reset = true → (s.port h.port).ln.lstate = .up →
          ((s.port h.port).pw.state ≠ .p2 → (s.port h.port).pw.state ≠ .p3 → (t.port h.port).ln.resetDue.isSome ∧ (t.port h.port).ln.dueTick = s.tick) ∧
          ((s.port h.port).pw.state = .p2 → (t.port h.port).pw.wake.isSome))) ∧
      (∀ tr, (s.port h.port).ln.training = some tr → h.eng ≠ 31 → h.reset = true →
        (tr.cold = false → (t.port h.port).ln.training.map (fun y => (y.cold, y.began, y.phase)) = some (false, s.tick, .cdr)) ∧
        (tr.cold = true → (t.port h.port).ln.coldDue = some (s.port h.port).ln.afterWarm ∧ (t.port h.port).ln.dueTick = s.tick ∧
          KeepsPorts [h.port] s t)))

/-- R17, R43, R238, R295, R382 to R386, R394 to R397: the other units and the fault log. A quad arbiter's failure resets the quad's links
together, in training or up, and poisons its Workbench units; a reset that does not complete loses all its ports. A Workbench unit leaves
service; a central unit's failure enters FAULT; a mismatch of the Lectern restarts the half or halves that its table names, and its recovery
ends once the log holds what was pending. A record is entered in order once it was held for 16 cc, in a full log by its policy. -/
def Obligations.UnitFailures : Prop :=
  ∀ s : State, s.acts = true →
    (∀ q : QuadId,
      ((s.quad q).reset = none → ∀ u, u = updQuad q (fun x => { x with reset := some s.tick }) ((portsOf q).foldl quadResets
          (handOver (unitArb q) (unitArb q) .quad 0x0304 .quadReset 0 (raise (evQd q) 13 s))) →
        exec (.arbSelfcheck q) s = .next (poisonUnit (2 * q.val + 1) (poisonUnit (2 * q.val) u)) ∧
        (u.quad q).reset = some s.tick ∧ Raised (evQd q) 13 s u ∧ Recorded (unitArb q) 0x0304 .quadReset s u ∧ KeepsQuads [q.val] s u ∧
        (∀ p : PortId, p.val / 16 = q.val →
          (∀ x, (s.port p).ln.training = some x →
            (x.cold = true → (u.port p).ln.coldDue = some (s.port p).ln.afterWarm ∧ (u.port p).ln.dueTick = s.tick + 1) ∧
            (x.cold = false → (u.port p).ln.resetDue = some (min ((s.port p).ln.resetDue.getD 7) 7) ∧ (u.port p).ln.dueTick = s.tick + 1)) ∧
          ((s.port p).ln.training = none → (s.port p).ln.lstate = .up →
            (u.port p).ln.resetDue = some (min ((s.port p).ln.resetDue.getD 7) 7) ∧ (u.port p).ln.dueTick = s.tick + 1) ∧
          ((s.port p).ln.training = none → (s.port p).ln.lstate ≠ .up → u.port p = s.port p)) ∧
        (∀ p : PortId, p.val / 16 ≠ q.val → u.port p = s.port p)) ∧
      ((s.quad q).reset.isSome = true → exec (.arbSelfcheck q) s = .next s) ∧
      (∃ t, exec (.quadResetComplete q) s = .next t ∧ t.quad q = { s.quad q with reset := none } ∧ KeepsQuads [q.val] s t ∧ t.ports = s.ports) ∧
      (∀ d, (s.quad q).reset = some d →
        (d + 64 ≤ s.tick → ∃ t, exec (.quadResetTimeout q) s = .next t ∧ (t.quad q).reset = none ∧ KeepsQuads [q.val] s t ∧
          (∀ p : PortId, p.val / 16 = q.val → (t.port p).rt.lossDue = some .engine ∧ (t.port p).rt.lossTick = s.tick + 1) ∧
          (∀ p : PortId, p.val / 16 ≠ q.val → t.port p = s.port p)) ∧
        (s.tick < d + 64 → exec (.quadResetTimeout q) s = .next s))) ∧
    (∀ u : WbId, getF s wbSts u 1 = 1 → (s.leaving.all (fun l => l.1 != unitWb u)) = true → ∃ t, exec (.wbSelfcheck u) s = .next t ∧
      t.leaving = s.leaving ++ [(unitWb u, s.tick + 1)] ∧ Recorded (unitWb u) 0x0305 .unitOut s t ∧ t.wb = s.wb ∧ t.regs = s.regs) ∧
    (s.bnd.adp ≠ .fault → ∀ c : CentralUnit, ∀ n, n = (match (generalizing := false) c with
        | .atomic => unitAtm | .protection => unitProt | .keyStore => unitProt | .crossbar => (takeFree s).1 % 2 ^ 14) →
      ∃ t, exec (.centralSelfcheck c) s = .next t ∧ t.bnd.adp = .fault ∧ t.bnd.cellsDark = true ∧ t.bnd.portsLow = true ∧
      Raised evMgt 2 s t ∧ Recorded n 0x0404 .adapterFault s t) ∧
    ((s.tst.run = none → exec .testControllerSelfcheck s = .next { s with tst := { s.tst with broken := true } }) ∧
      (∀ x, s.tst.run = some x → exec .testControllerSelfcheck s = .next (endSlice x 4 2 { s with tst := { s.tst with broken := true } }))) ∧
    (∀ a b : Bool, s.lect.dead = false →
      (s.lect.mode = .pair → ∀ soon, soon = (s.lect.lockstep && s.lect.ended.any (fun d => decide (s.tick ≤ d / 1024 + 1600))) →
        ∀ m, m = (if a && !b then PairMode.bOnly else if b && !a then .aOnly else if !a && soon then .aOnly else .pair) →
        ∃ t, exec (.lecternMismatch a b) s = .next t ∧
        t.lect.mode = m ∧ t.lect.restart = some s.tick ∧ t.lect.recovery = false ∧ t.lect.lockstep = decide (m = .pair) ∧
        (getEvt t evTb).raw.getLsbD 11 = true ∧
        getF t glbLock 2 2 = (match m with | .pair => 0 | .aOnly => 1 | .bOnly => 2) ∧ getF t glbLock 8 8 = min (getF s glbLock 8 8 + 1) 255 ∧
        Recorded unitLectern 0x0402 .lecternRestart s t ∧ t.plv.armed = none ∧ t.tx.threads = [] ∧ t.banks = s.banks ∧ t.prot = s.prot ∧ t.bnd.adp = s.bnd.adp) ∧
      (s.bnd.adp ≠ .fault → (s.lect.mode = .aOnly ∧ a = true) ∨ (s.lect.mode = .bOnly ∧ b = true) → ∃ t, exec (.lecternMismatch a b) s = .next t ∧
        t.bnd.adp = .fault ∧ t.lect.dead = true ∧ Recorded unitLectern 0x0402 .adapterFault s t) ∧
      ((s.lect.mode = .aOnly ∧ a = false) ∨ (s.lect.mode = .bOnly ∧ b = false) → exec (.lecternMismatch a b) s = .next s)) ∧
    (s.lect.restart.isSome = true →
      (s.bnd.access = none → ∃ t, exec .lecternRestartDone s = .next t ∧ t.lect.restart = none ∧ t.lect.recovery = true ∧
        t.lect.ended = some s.cts ∧ t.regs = s.regs ∧ t.evts = s.evts) ∧
      (∀ x, s.bnd.access = some x → exec .lecternRestartDone s = .next (finishWrite x.agent x.addr x.data
        { (lecternRestarted s) with bnd := { s.bnd with access := none, mready := true } }))) ∧
    ((s.flt.held.all (fun r => decide (s.lect.ended.getD 0 < r.cts))) = true → ∃ t, exec .recoveryEnd s = .next t ∧
      t.lect = { s.lect with recovery := false } ∧ t.evts = s.evts ∧ t.regs = s.regs) ∧
    ((s.flt.held.all (fun r => decide (s.lect.ended.getD 0 < r.cts))) = false → exec .recoveryEnd s = .next s) ∧
    (s.flt.held = [] → exec .faultLogEntry s = .next s) ∧
    (∀ h, s.flt.held.head? = some h → ∀ k, k = leastRec h s.flt.held.tail →
      (∀ r ∈ s.flt.held, r.before k.1 = false) ∧
      (s.cts < k.1.cts + 16 → exec .faultLogEntry s = .next s) ∧
      (k.1.cts + 16 ≤ s.cts → ∀ r, r = { k.1 with recno := (s.flt.recno + 1) % 2 ^ 32 } → ∃ t, exec .faultLogEntry s = .next t ∧
        t.flt.held = k.2 ∧ t.flt.recno = r.recno ∧ t.flt.newest = some r ∧
        (s.flt.count < 1024 → Raised evTb 9 s t ∧ tget rec0 t.flt.ring s.flt.wptr = some r ∧ t.flt.count = s.flt.count + 1 ∧
          t.flt.wptr = (s.flt.wptr + 1) % 1024 ∧ t.regs = s.regs) ∧
        (1024 ≤ s.flt.count → getF s fltCtl 0 1 = 0 → (getEvt t evTb).raw.getLsbD 9 = true ∧ (getEvt t evTb).raw.getLsbD 10 = true ∧
          tget rec0 t.flt.ring s.flt.wptr = some r ∧ t.flt.count = 1024 ∧ getF t fltLost 0 32 = min (getF s fltLost 0 32 + 1) (2 ^ 32 - 1)) ∧
        (1024 ≤ s.flt.count → getF s fltCtl 0 1 = 1 → Raised evTb 10 s t ∧ t.flt.ring = s.flt.ring ∧ t.flt.wptr = s.flt.wptr ∧
          getF t fltLost 0 32 = min (getF s fltLost 0 32 + 1) (2 ^ 32 - 1))))

/-! ### Protection -/

/-- R406 to R408, R410 to R417, R420: the lock, the staging area and the two-party change, as the host security agent sees them. Every request
of R408 needs the agent and the lock; staging is written in IDLE only; an ARM begins a check, which arms the change or refuses it; a COMMIT by
the other party with the same digest and nonce has it applied at cycle 0 of the next tick; an ABORT and an expiry discard it, the status that
the fabric manager's ARM gets whose check an ABORT cuts being free (log 18); of a refused ARM the staged key stays. -/
def Obligations.ProtectionChange : Prop :=
  ∀ (w : Word) (k : Fin 8) (s : State), s.acts = true →
    (s.mready = true →
      (∀ a : Bool, ∀ x, x = (decide (pstate s = 0) && a && lockHeld s) →
        (∀ i ∈ [Instr.proLockRel a, .proStgWrite a w, .proKeyStgWrite a k w, .proCmdArm a, .proCmdCommit a, .proCmdAbort a],
          a = false ∨ lockHeld s = false → ∃ t, exec i s = .next t ∧ Raised evPro 6 s t ∧ t.regs = s.regs ∧ Finished s t ∧
          t.prot = { s.prot with lockTick := if a then s.tick else s.prot.lockTick }) ∧
        (∀ i ∈ [Instr.proStgWrite a w, .proKeyStgWrite a k w], x = false → ∃ t, exec i s = .next t ∧ Raised evPro 6 s t ∧ t.regs = s.regs ∧
          Finished s t ∧ t.prot = { s.prot with lockTick := if a then s.tick else s.prot.lockTick })) ∧
      (∃ t, exec (.proLockAcq false) s = .next t ∧ Raised evPro 6 s t ∧ t.regs = s.regs ∧ Finished s t ∧ t.prot = s.prot) ∧
      (∃ t, exec (.proLockAcq true) s = .next t ∧ FieldSet proSts 5 1 1 s t ∧ t.prot = { s.prot with lockTick := s.tick } ∧ t.evts = s.evts ∧ Finished s t) ∧
      (lockHeld s = true →
        (∃ t, exec (.proLockRel true) s = .next t ∧ FieldSet proSts 5 1 0 s t ∧ t.evts = s.evts ∧ Finished s t) ∧
        (pstate s = 0 → ∃ t, exec (.proStgWrite true w) s = .next t ∧ t.regs = s.regs ∧ t.evts = s.evts ∧ Finished s t ∧
          t.prot = { s.prot with
            lockTick := s.tick
            stg := if getF s proStgIdx 0 11 = 1097 ∨ getF s proStgIdx 0 11 = 1098 then s.prot.stg else tset word0 s.prot.stg (getF s proStgIdx 0 11) w
            stgSeen := true }) ∧
        (pstate s = 0 → ∀ b, b = s.prot.stgKey.getD (List.replicate 32 0) → ∃ t, exec (.proKeyStgWrite true k w) s = .next t ∧ FieldSet proSts 4 1 1 s t ∧
          t.prot.stgKey = some (b.take (4 * k.val) ++ leBytes 4 w.toNat ++ b.drop (4 * k.val + 4)) ∧ t.prot.key = s.prot.key ∧ t.evts = s.evts ∧ Finished s t) ∧
        (armExpired s = false →
          (pstate s ≠ 0 → ∃ t, exec (.proCmdArm true) s = .next t ∧ FieldSet proSts 8 4 5 s t ∧ t.prot.change = s.prot.change ∧ t.evts = s.evts) ∧
          (pstate s = 0 → ∃ t, exec (.proCmdArm true) s = .next t ∧ getF t proSts 8 4 = 1 ∧ pstate t = 1 ∧ t.evts = s.evts ∧
            t.prot.change = some { fm := false, dig := argDig s, nonce := argNonce s, tick := s.tick } ∧ t.prot.stg = s.prot.stg) ∧
          (s.prot.change = none → ∃ t, exec (.proCmdCommit true) s = .next t ∧ FieldSet proSts 8 4 0xA s t ∧ t.prot.applyAt = s.prot.applyAt) ∧
          (∀ c, s.prot.change = some c →
            (pstate s ≠ 2 → ∃ t, exec (.proCmdCommit true) s = .next t ∧ FieldSet proSts 8 4 5 s t ∧ t.prot.applyAt = s.prot.applyAt) ∧
            (pstate s = 2 → c.fm = false ∨ c.dig ≠ argDig s ∨ c.nonce ≠ argNonce s → ∃ t, exec (.proCmdCommit true) s = .next t ∧ FieldSet proSts 8 4 3 s t ∧
              t.prot.applyAt = s.prot.applyAt ∧ t.prot.change = some c) ∧
            (pstate s = 2 → c.fm = true → c.dig = argDig s → c.nonce = argNonce s → ∃ t, exec (.proCmdCommit true) s = .next t ∧ getF t proSts 8 4 = 0 ∧
              pstate t = 3 ∧ t.prot.applyAt = some (s.tick + 1) ∧ t.prot.change = some c)) ∧
          (pstate s = 1 ∨ pstate s = 2 →
            ∀ u, u = setF proSts 8 4 0 (raise evPro 2 (discardChange (touchLock true (finishAccess false s)))) →
            u.prot.change = none ∧ u.prot.stg = s.prot.img ∧ u.prot.img = s.prot.img ∧ u.prot.stgKey = none ∧ pstate u = 0 ∧
            getF u proSts 8 4 = 0 ∧ getF u proSts 4 1 = 0 ∧ Raised evPro 2 s u ∧ u.plv = s.plv ∧ Finished s u ∧
            (pstate s = 2 ∨ s.plv.armed = none → exec (.proCmdAbort true) s = .next u) ∧
            (pstate s = 1 → s.plv.armed.isSome → exec (.proCmdAbort true) s = .next (answerArm ((takeFree u).1 % 13) (takeFree u).2))) ∧
          (pstate s ≠ 1 → pstate s ≠ 2 → ∃ t, exec (.proCmdAbort true) s = .next t ∧ FieldSet proSts 8 4 0xA s t ∧ t.prot.change = s.prot.change)) ∧
        (armExpired s = true → ∃ t, exec (.proCmdCommit true) s = .next t ∧ getF t proSts 8 4 = 0xA ∧ Raised evPro 3 s t ∧ pstate t = 0 ∧
          t.prot.change = none))) ∧
    (lockHeld s = true → s.prot.lockTick + 65536 ≤ s.tick → ∃ t, exec .proLockTimeout s = .next t ∧ FieldSet proSts 5 1 0 s t ∧ t.prot = s.prot) ∧
    (lockHeld s = false ∨ s.tick < s.prot.lockTick + 65536 → exec .proLockTimeout s = .next s) ∧
    (s.prot.change = none ∨ pstate s ≠ 1 → ∀ bad, exec (.armCheckDone bad) s = .next s) ∧
    (∀ c, s.prot.change = some c → pstate s = 1 → ∀ bad : Bool, ∀ x, x = armChecked bad c s →
      exec (.armCheckDone bad) s = .next (if c.fm then answerArm x.1 x.2 else setF proSts 8 4 x.1 x.2) ∧
      (bad = true ∨ (imageOk s.prot.stg s.die && stgDigest s == c.dig) = false → x.1 = (if bad then 9 else 3) ∧ Raised evPro 4 s x.2 ∧ pstate x.2 = 0 ∧
        x.2.prot = { s.prot with change := none, applyAt := none, stg := s.prot.img }) ∧
      (bad = false → (imageOk s.prot.stg s.die && stgDigest s == c.dig) = true → x.1 = 0 ∧ Raised evPro 0 s x.2 ∧
        x.2.prot.change = some { c with tick := s.tick } ∧ x.2.prot.stg = s.prot.stg ∧ x.2.prot.stgKey = s.prot.stgKey ∧
        getF x.2 proArmTick 0 32 = s.tick % 2 ^ 32 ∧ getF x.2 (proArmDig 0) 0 32 = c.dig % 2 ^ 32 ∧ getF x.2 (proArmDig 1) 0 32 = c.dig / 2 ^ 32 % 2 ^ 32 ∧
        getF x.2 proSts 2 1 = bit c.fm ∧
        (s.bnd.adp = .boot → c.fm = false → pstate x.2 = 3 ∧ x.2.prot.applyAt = some (s.tick + 1)) ∧
        (s.bnd.adp ≠ .boot ∨ c.fm = true → pstate x.2 = 2 ∧ x.2.prot.applyAt = none))) ∧
    (∀ d, s.prot.applyAt = some d → ∀ c, s.prot.change = some c →
      (s.cyc = 0 → d ≤ s.tick → ∃ t, exec .protApply s = .next t ∧ t.prot.img = s.prot.stg ∧ t.prot.key = keyAfter s ∧ t.prot.stgKey = none ∧
        t.prot.change = none ∧ t.prot.applyAt = none ∧ pstate t = 0 ∧ getF t (proCurDig 0) 0 32 = c.dig % 2 ^ 32 ∧
        getF t (proCurDig 1) 0 32 = c.dig / 2 ^ 32 % 2 ^ 32 ∧ getF t proSts 4 1 = 0 ∧
        getF t proSts 3 1 = bit (keyAfter s).isSome ∧ getF t proSts 6 1 = 0 ∧ (getEvt t evPro).raw.getLsbD 1 = true ∧
        getF t proCnt 16 16 = min (getF s proCnt 16 16 + 1) 65535) ∧
      (s.cyc ≠ 0 ∨ s.tick < d → exec .protApply s = .next s)) ∧
    (armExpired s = true → ∃ t, exec .armExpiry s = .next t ∧ Raised evPro 3 s t ∧ pstate t = 0 ∧ getF t proSts 4 1 = 0 ∧
      t.prot = { s.prot with change := none, applyAt := none, stg := s.prot.img, stgKey := none } ∧ t.ports = s.ports) ∧
    (armExpired s = false → exec .armExpiry s = .next s)

/-! ### Plovirko -/

/-- R426, R427, R429, R432 to R436: how requests and replies travel. The test port submits one request at a time and captures the last reply;
fragments of a packet are forwarded, reassembled in order within 256 ticks, answered BUSY or discarded with FRAG_DROP; a complete request that
matches a kept reply is answered with that reply again; a request that fails check 1 is answered UNKNOWN_OPCODE; a reply copies OPC, SEQ, UNIT
and NONCE and reaches the one who asked. -/
def Obligations.PlovirkoTransport : Prop :=
  ∀ s : State,
    (∀ bytes : List Byte,
      (s.alive = true → s.plv.tapReq = none → (s.plv.armed.all (fun r => decide (r.path ≠ .tap))) = true → ∀ b, b = tapRequest bytes →
        exec (.plvReqUpdate bytes) s = .next { s with plv := { s.plv with tapReq := some b } } ∧ b.length = 528 ∧
        ∀ k : Fin 528, b.getD k.val 0 = ((bytes[k.val]?).map (·.toNat)).getD 0) ∧
      (s.alive = false ∨ s.plv.tapReq.isSome = true ∨ (s.plv.armed.any (fun r => decide (r.path = .tap))) = true →
        exec (.plvReqUpdate bytes) s = .next s)) ∧
    exec .plvRspCapture s = .next { s with tst := { s.tst with dr := leNum s.plv.tapRsp } } ∧
    (∀ r, nextReq s = some r →
      (unknownOpcode r.bytes = true → exec .unknownOpcodeRequest s = .next (answerPlv r 6 [] (takeUp r s))) ∧
      (unknownOpcode r.bytes = false → exec .unknownOpcodeRequest s = .next s)) ∧
    (nextReq s = none → exec .unknownOpcodeRequest s = .next s) ∧
    (∀ (r : PlvReq) (st : Nat) (pay : List Nat), ∀ v, v = buildReply r.bytes st pay (bump (mgtPlvCnt 0) (if rejectStatus st then 16 else 0) 16 s) →
      plvF v.1 0 8 = 1 ∧ plvF v.1 9 1 = 1 ∧ plvTag v.1 = plvTag r.bytes ∧ plvOpc v.1 = plvOpc r.bytes ∧ plvF v.1 32 16 = plvF r.bytes 32 16 ∧
      plvUnit v.1 = plvUnit r.bytes ∧ plvNonce v.1 = plvNonce r.bytes ∧ plvLen v.1 = pay.length % 65536 ∧ plvF v.1 80 16 = st % 65536 ∧
      plvF v.1 96 8 = s.bnd.adp.code ∧ (v.1.drop 32).take pay.length = pay ∧
      (r.path = .tap → (answerPlv r st pay s).plv = { s.plv with tapReq := none, tapRsp := v.1 } ∧ (answerPlv r st pay s).evts = s.evts) ∧
      (r.path = .mailbox → pay.length ≤ 480 → Raised evMgt 0 s (answerPlv r st pay s) ∧ getF (answerPlv r st pay s) mgtMbxSts 0 2 = 3 ∧
        getF (answerPlv r st pay s) mgtMbxSts 16 16 = st % 65536) ∧
      (∀ src id : Nat, r.path = .remote src id → ∀ k : PlvKept, k = ⟨src, plvOpc r.bytes, plvF r.bytes 32 16, plvNonce r.bytes, v.1⟩ →
        answerPlv r st pay s = sendPacket src id v.1 { v.2 with plv := { v.2.plv with kept := (k :: s.plv.kept.filter (fun e => e.src != src)).take 16 } } ∧
        v.2.ports = s.ports)) ∧
    (∀ p : PortId, s.acts = true → s.lect.dead = false → s.lect.restart = none →
      ((s.port p).rx.hat.find? isFragment = none → exec (.fragmentRx p false) s = .next s) ∧
      exec (.fragmentRx p true) s = .next (hatUncorr p false s) ∧
      (∀ x, (s.port p).rx.hat.find? isFragment = some x → ∀ u, u = updPort p (fun q => { q with
            rx := { q.rx with hat := q.rx.hat.erase x }
            cr := { q.cr with hfreePlv := (q.cr.hfreePlv + 1) % 65536 } }) s →
        exec (.fragmentRx p false) s = .next (takeFragment p x u) ∧ KeepsPorts [p.val] s u ∧
        u.plv = s.plv ∧ u.regs = s.regs ∧ u.evts = s.evts ∧ u.tx = s.tx ∧
        (2 ≤ sf x 60 2 ∨ 65 < sf x 8 7 → Raised evMgt 5 s (takeFragment p x u) ∧ (takeFragment p x u).plv = s.plv) ∧
        (sf x 60 2 < 2 → sf x 8 7 ≤ 65 → sf x 24 18 ≠ s.die → ∀ y, y = forwardPort p { PktHdr.ofSlot 0 with src := sf x 42 18, dst := sf x 24 18 } u →
          ((y.all (fun k => portLost k u)) = true → Raised evMgt 5 s (takeFragment p x u) ∧ (takeFragment p x u).plv = s.plv) ∧
          (∀ k, y = some k → portLost k u = false → (takeFragment p x u).evts = s.evts ∧
            ((takeFragment p x u).port k).tx.hatPlv = (u.port k).tx.hatPlv ++ [x + BitVec.ofNat 128 (2 ^ 60)] ∧
            getF (takeFragment p x u) (mgtPlvCnt 1) 0 16 = min (getF s (mgtPlvCnt 1) 0 16 + 1) 65535)) ∧
        (sf x 60 2 < 2 → sf x 8 7 ≤ 65 → sf x 24 18 = s.die →
          (∀ c, plvCtx (sf x 42 18) (sf x 16 8) s = some c →
            (c.next ≠ sf x 8 7 → (getEvt (takeFragment p x u) evMgt).raw.getLsbD 5 = true ∧
              plvCtx (sf x 42 18) (sf x 16 8) (takeFragment p x u) = none ∧
              getF (takeFragment p x u) (mgtPlvCnt 1) 16 16 = min (getF s (mgtPlvCnt 1) 16 16 + 2) 65535) ∧
            (c.next = sf x 8 7 →
              (sf x 15 1 = 0 → (plvSize (c.bytes ++ leBytes 8 (sf x 64 64)) + 7) / 8 ≠ sf x 8 7 + 1 →
                plvCtx (sf x 42 18) (sf x 16 8) (takeFragment p x u) =
                  some { c with next := sf x 8 7 + 1, bytes := c.bytes ++ leBytes 8 (sf x 64 64), tick := s.tick }) ∧
              (sf x 15 1 = 1 → (plvSize (c.bytes ++ leBytes 8 (sf x 64 64)) + 7) / 8 ≠ sf x 8 7 + 1 → Raised evMgt 5 s (takeFragment p x u) ∧
                plvCtx (sf x 42 18) (sf x 16 8) (takeFragment p x u) = none) ∧
              (sf x 15 1 = 1 → (plvSize (c.bytes ++ leBytes 8 (sf x 64 64)) + 7) / 8 = sf x 8 7 + 1 →
                takeFragment p x u = plvComplete (sf x 42 18) (sf x 16 8)
                  ((c.bytes ++ leBytes 8 (sf x 64 64)).take (plvSize (c.bytes ++ leBytes 8 (sf x 64 64)))) (dropCtx (sf x 42 18) (sf x 16 8) u)))) ∧
          (plvCtx (sf x 42 18) (sf x 16 8) s = none →
            (sf x 8 7 = 0 → sf x 15 1 = 0 → s.plv.ctxs.length < 8 →
              plvCtx (sf x 42 18) (sf x 16 8) (takeFragment p x u) =
                some { src := sf x 42 18, pktid := sf x 16 8, next := 1, bytes := leBytes 8 (sf x 64 64), tick := s.tick }) ∧
            (sf x 8 7 ≠ 0 → Raised evMgt 5 s (takeFragment p x u) ∧ (takeFragment p x u).plv = s.plv) ∧
            (sf x 8 7 = 0 → 8 ≤ s.plv.ctxs.length → Raised evMgt 5 s (takeFragment p x u) ∧
              takeFragment p x u = busyReply (sf x 42 18) (sf x 16 8) (leBytes 8 (sf x 64 64)) (fragDrop u) ∧
              (takeFragment p x u).plv.ctxs = s.plv.ctxs ∧ (takeFragment p x u).plv.queue = s.plv.queue))))) ∧
    (∀ (src id : Nat) (b : List Nat), ∀ o, o = s.plv.kept.find? (fun k => k.src == src && k.opc == plvOpc b && k.seq == plvF b 32 16 && k.nonce == plvNonce b) →
      (o = none ∨ (plvTag b = true ∧ tagRight b s = false) →
        plvComplete src id b s = { s with plv := { s.plv with queue := s.plv.queue ++ [⟨.remote src id, b⟩] } }) ∧
      (∀ k, o = some k → plvTag b = false ∨ tagRight b s = true → plvComplete src id b s = sendPacket src id k.reply
        (bump (mgtPlvCnt 2) 0 16 { s with plv := { s.plv with kept := k :: s.plv.kept.filter (fun e => e.src != src) } }))) ∧
    (∀ (src : BitVec 18) (id : BitVec 8), s.acts = true →
      (plvCtx src.toNat id.toNat s = none → exec (.reassemblyTimeout src id) s = .next s) ∧
      (∀ c, plvCtx src.toNat id.toNat s = some c →
        (c.tick + 256 ≤ s.tick → ∃ t, exec (.reassemblyTimeout src id) s = .next t ∧ Raised evMgt 5 s t ∧ plvCtx src.toNat id.toNat t = none ∧
          getF t (mgtPlvCnt 1) 16 16 = min (getF s (mgtPlvCnt 1) 16 16 + 1) 65535 ∧ t.plv.queue = s.plv.queue) ∧
        (s.tick < c.tick + 256 → exec (.reassemblyTimeout src id) s = .next s))) ∧
    (∀ p : PortId, s.acts = true → ∀ e, (stamps p s).head? = some e →
      (e.2.2 + 64 ≤ s.tick → (s.port p).tx.hatPlv.head? = some e.2.1 → plvRoom (s.port p).cr = 0 → ∃ t, exec (.fragmentCreditTimeout p) s = .next t ∧
        Raised evMgt 5 s t ∧ (t.port p).tx.hatPlv = (s.port p).tx.hatPlv.drop 1 ∧ KeepsPorts [p.val] s t ∧
        getF t (mgtPlvCnt 1) 16 16 = min (getF s (mgtPlvCnt 1) 16 16 + 1) 65535) ∧
      (s.tick < e.2.2 + 64 ∨ plvRoom (s.port p).cr ≠ 0 → exec (.fragmentCreditTimeout p) s = .next s))

/-- R409, R427, R430: the checks of a request, in their order, whatever its opcode. A command whose opcode is not that of the request taken up
next does nothing; a wrong length is answered LENGTH_REJECT, a tag that fails or is missing AUTH_REJECT, an adapter state that is not legal
STATE_REJECT, a unit that the opcode does not accept RANGE_REJECT, each with no payload. -/
def Obligations.PlovirkoChecks : Prop :=
  ∀ (bad : Option (Fin 1024)) (b : Bool) (s : State),
    (∀ x ∈ [((Instr.ident, 0x0100) : Instr × Nat), (.stateGet, 0x0101), (.stateSet, 0x0102), (.dieidSet, 0x0103), (.portMaskSet, 0x0104), (.portStatus, 0x0200),
        (.portTrain, 0x0201), (.portWidth, 0x0202), (.portLose, 0x0203), (.portReturn, 0x0204), (.laneStatus, 0x0205), (.laneReturn, 0x0206),
        (.engineReturn, 0x0207), (.unitReturn, 0x0208), (.calWrite, 0x0300), (.calRead, 0x0301), (.flowWrite, 0x0302), (.flowRead, 0x0303),
        (.groupWrite, 0x0304), (.groupRead, 0x0305), (.memberWrite, 0x0306), (.memberRead, 0x0307), (.protStage, 0x0400), (.protArm, 0x0401),
        (.protCommit, 0x0402), (.protAbort, 0x0403), (.protStatus, 0x0404), (.bistRun, 0x0500), (.bistStatus, 0x0501), (.bistAbort, 0x0502),
        (.repairSoft, 0x0503), (.repairBurn, 0x0504), (.repairRead, 0x0505), (.dcalReq, 0x0600), (.calCfgSet, 0x0601), (.calStatus, 0x0602),
        (.logRead bad, 0x0700), (.logCtl, 0x0701), (.regRead, 0x0702), (.regWrite, 0x0703), (.epochStatus, 0x0800), (.epochSet b, 0x0801),
        (.epochCancel, 0x0802), (.timeStage, 0x0803)],
      ((nextReq s).all (fun r => unknownOpcode r.bytes || plvOpc r.bytes != x.2) = true → exec x.1 s = .next s) ∧
      (∀ r, nextReq s = some r → ∀ o, opRow x.2 = some o → unknownOpcode r.bytes = false → plvOpc r.bytes = x.2 →
        (lengthOk o.len r.bytes = false → exec x.1 s = .next (answerPlv r 0xB [] (takeUp r s))) ∧
        (lengthOk o.len r.bytes = true → tagOk o r s = false → exec x.1 s = .next (answerPlv r 4 [] (authFailed (takeUp r s)))) ∧
        (lengthOk o.len r.bytes = true → tagOk o r s = true →
          (o.legal.contains s.bnd.adp.code = false → exec x.1 s = .next (answerPlv r 2 [] (takenUp r s))) ∧
          (o.legal.contains s.bnd.adp.code = true → unitOk o.units (plvUnit r.bytes) = false → exec x.1 s = .next (answerPlv r 3 [] (takenUp r s)))))) ∧
    (Raised evPro 5 s (authFailed s) ∧ FieldSet proCnt 0 16 (min (getF s proCnt 0 16 + 1) 65535) s (authFailed s))

/-- R8, R90, R399, R420, R430, R431, R443, R447, R454: the requests that read. Each that passes the checks is answered DONE with the bytes its row of
the opcode table names, and changes nothing but what the answer itself does; REG_READ has the effects of a host's reads and reads the MGT
block as zero; a count or a range out of bounds is answered RANGE_REJECT, and a log entry found uncorrectable FAIL, with a record. -/
def Obligations.PlovirkoReads : Prop :=
  ∀ s : State, ∀ r, nextReq s = some r → ∀ u, u = takenUp r s → ∀ p, p = plvPay r.bytes →
    (∀ e ∈ [((Instr.portStatus, 0x0200, [prtLmap (plvUnit r.bytes - 0x200), prtLinkSts (plvUnit r.bytes - 0x200), prtRoute (plvUnit r.bytes - 0x200),
          prtEng (plvUnit r.bytes - 0x200), prtPwrSts (plvUnit r.bytes - 0x200), prtLtrn (plvUnit r.bytes - 0x200), prtSchedSts (plvUnit r.bytes - 0x200)]) :
          Instr × Nat × List Nat),
        (.laneStatus, 0x0205, [lnSts (plvUnit r.bytes), lnErrcnt (plvUnit r.bytes), lnPiloterr (plvUnit r.bytes), lnTune (plvUnit r.bytes),
          lnEye (plvUnit r.bytes)]),
        (.protStatus, 0x0404, [proSts, proCurDig 0, proCurDig 1, proStgDig 0, proStgDig 1, proArmDig 0, proArmDig 1, proArmTick])],
      Admitted e.2.1 r s → exec e.1 s = .next (answerPlv r 0 (e.2.2.flatMap (fun a => leBytes 4 (readReg a u).toNat)) u)) ∧
    (Admitted 0x0100 r s → ∀ x, x = opIdent r.bytes p u → exec .ident s = .next (answerPlv r 0 x.2.1 u) ∧ x.2.1.length = 24 ∧
      payNum x.2.1 0 4 = (readReg 0x2010 u).toNat ∧ payNum x.2.1 4 4 = (readReg 0x2014 u).toNat ∧ payNum x.2.1 8 8 = patchDigest u % 2 ^ 64 ∧
      payNum x.2.1 16 4 = (readReg glbDieid u).toNat ∧ payNum x.2.1 20 4 = (readReg mgtPatch u).toNat) ∧
    (Admitted 0x0101 r s → ∀ x, x = opStateGet r.bytes p u → exec .stateGet s = .next (answerPlv r 0 x.2.1 u) ∧ x.2.1.length = 16 ∧
      payNum x.2.1 0 1 = s.bnd.adp.code ∧ payNum x.2.1 1 1 = s.bnd.prev.code ∧ payNum x.2.1 2 1 = s.tb.state.code ∧ payNum x.2.1 3 5 = 0 ∧
      payNum x.2.1 8 8 = s.cts % 2 ^ 64) ∧
    (Admitted 0x0501 r s → ∀ x, x = opBistStatus r.bytes p u → exec .bistStatus s = .next (answerPlv r 0 x.2.1 u) ∧ x.2.1.length = 8 ∧
      payNum x.2.1 0 1 = getF s tstSts 0 3 ∧ payNum x.2.1 1 1 = 0 ∧ payNum x.2.1 2 2 = getF s tstSts 22 10 ∧ payNum x.2.1 4 2 = getF s tstSts 8 14 ∧
      payNum x.2.1 6 2 = 0) ∧
    (Admitted 0x0602 r s → ∀ x, x = opCalStatus r.bytes p u → exec .calStatus s = .next (answerPlv r 0 x.2.1 u) ∧ x.2.1.length = 28 ∧
      payNum x.2.1 0 4 = (readReg (lnGcalCnt (plvUnit r.bytes)) u).toNat ∧ payNum x.2.1 4 4 = (readReg (lnDcalCnt (plvUnit r.bytes)) u).toNat ∧
      payNum x.2.1 8 8 = (s.lane (plvUnit r.bytes)).gcts % 2 ^ 64 ∧ payNum x.2.1 16 8 = (s.lane (plvUnit r.bytes)).dcts % 2 ^ 64 ∧
      payNum x.2.1 24 4 = (readReg (lnSts (plvUnit r.bytes)) u).toNat) ∧
    (Admitted 0x0800 r s → ∀ x, x = opEpochStatus r.bytes p u → exec .epochStatus s = .next (answerPlv r 0 x.2.1 u) ∧ x.2.1.length = 44 ∧
      payNum x.2.1 0 4 = epochNow s ∧ payNum x.2.1 8 8 = digestNow s ∧ payNum x.2.1 16 8 = stagedDigest u % 2 ^ 64 ∧
      payNum x.2.1 40 1 = bit s.banks.pend.isSome ∧ payNum x.2.1 41 3 = 0 ∧
      (∀ a, s.banks.pend = some a → payNum x.2.1 4 4 = a.epoch % 2 ^ 32 ∧ payNum x.2.1 24 8 = a.tick % 2 ^ 64) ∧
      (∀ k : PortId, payNum x.2.1 32 8 / 2 ^ k.val % 2 = bit (s.port k).sc.skew)) ∧
    (∀ e ∈ [((Instr.calRead, 0x0301, .cal (plvUnit r.bytes - 0x200)) : Instr × Nat × StgTab), (.flowRead, 0x0303, .flow), (.groupRead, 0x0305, .grp),
        (.memberRead, 0x0307, .mem)], Admitted e.2.1 r s →
      (spanOk (payNum p 0 2) (payNum p 2 2) 112 e.2.2.size = true → payNum p 4 1 ≤ 1 → payNum p 5 3 = 0 → exec e.1 s = .next
        (answerPlv r 0 ((List.range (payNum p 2 2)).flatMap (fun k => leBytes 4 (entryOf e.2.2 (payNum p 4 1 == 1) (payNum p 0 2 + k) s).toNat)) u)) ∧
      (spanOk (payNum p 0 2) (payNum p 2 2) 112 e.2.2.size = false ∨ 1 < payNum p 4 1 ∨ payNum p 5 3 ≠ 0 → exec e.1 s = .next (answerPlv r 3 [] u))) ∧
    (Admitted 0x0505 r s →
      (spanOk (payNum p 0 2) (payNum p 2 2) 29 640 = true → payNum p 4 4 = 0 →
        exec .repairRead s = .next (answerPlv r 0 ((List.range (payNum p 2 2)).flatMap (fun k => leBytes 16 (repairRecord (payNum p 0 2 + k) s).toNat)) u)) ∧
      (spanOk (payNum p 0 2) (payNum p 2 2) 29 640 = false ∨ payNum p 4 4 ≠ 0 → exec .repairRead s = .next (answerPlv r 3 [] u))) ∧
    (Admitted 0x0700 r s → ∀ bad : Option (Fin 1024), ∀ ix, ix = (List.range (payNum p 2 1)).map (fun k => (payNum p 0 2 + k) % 1024) →
      (payNum p 0 2 ≤ 1023 → 1 ≤ payNum p 2 1 → payNum p 2 1 ≤ 14 → payNum p 3 1 = 0 →
        ((bad.all (fun i => !ix.contains i.val)) = true → exec (.logRead bad) s = .next (answerPlv r 0
          ([fltSts, fltRecno].flatMap (fun a => leBytes 4 (readReg a u).toNat) ++ ix.flatMap (fun k => logEntry k s)) u)) ∧
        (∀ i, bad = some i → ix.contains i.val = true → ∀ v, v = poisonEntry i u → exec (.logRead bad) s = .next (answerPlv r 9 [] v) ∧
          v.flt.poison.contains i.val = true ∧ v.flt.ring = s.flt.ring ∧
          v.flt.held.map (fun f => (f.unit, f.code, f.cts)) = s.flt.held.map (fun f => (f.unit, f.code, f.cts)) ++ [(unitLectern, 0x0501, s.cts)])) ∧
      (1023 < payNum p 0 2 ∨ payNum p 2 1 < 1 ∨ 14 < payNum p 2 1 ∨ payNum p 3 1 ≠ 0 → exec (.logRead bad) s = .next (answerPlv r 3 [] u))) ∧
    (Admitted 0x0702 r s →
      (addrOk (payNum p 0 4) (payNum p 4 2) p = true → ∀ x, x = opRegRead r.bytes p u → exec .regRead s = .next (answerPlv r 0 x.2.1 x.2.2) ∧
        x.2.1.length = 4 * payNum p 4 2 ∧ (inMgt (payNum p 0 4) = false → payNum x.2.1 0 4 = (readReg (payNum p 0 4) u).toNat) ∧
        (∀ k, k ∈ List.range (payNum p 4 2) → inMgt (payNum p 0 4 + 4 * k) = true → payNum x.2.1 (4 * k) 4 = 0) ∧
        x.2.2.evts = s.evts ∧ KeepsRegs (tbCtsHi :: (List.range 320).flatMap (fun l => [lnGcalCtsHi l, lnDcalCtsHi l])) u x.2.2) ∧
      (addrOk (payNum p 0 4) (payNum p 4 2) p = false → exec .regRead s = .next (answerPlv r 3 [] u)))

/-- R100, R205, R209, R250, R381, R407 to R413, R423, R430, R431: the requests of groups 1 to 4 that change something, with the status of
R430 in each case: the state and identity of the die; a training, a width, a loss or a return ordered, each repair decision executed with its
record; staging writes, all or none, LOCKED while an activation is pending; and the fabric manager's part of the protection change, of which an
ABORT leaves the agent's RESULT free where it cuts the check of the agent's ARM (log 18). -/
def Obligations.PlovirkoOrders : Prop :=
  ∀ s : State, ∀ r, nextReq s = some r → ∀ u, u = takenUp r s → ∀ p, p = plvPay r.bytes → ∀ q, q = plvUnit r.bytes - 0x200 →
    (Admitted 0x0102 r s →
      (AdpState.ofCode (payNum p 0 1) = none ∨ payNum p 1 3 ≠ 0 → exec .stateSet s = .next (answerPlv r 3 [] u)) ∧
      (∀ t, AdpState.ofCode (payNum p 0 1) = some t → payNum p 1 3 = 0 →
        (t = s.bnd.adp → exec .stateSet s = .next (answerPlv r 0 [] u)) ∧
        (t ≠ s.bnd.adp → reachable s.bnd.adp s.bnd.prev t = false → exec .stateSet s = .next (answerPlv r 2 [] u)) ∧
        (t ≠ s.bnd.adp → reachable s.bnd.adp s.bnd.prev t = true →
          (s.bnd.adp = .test → s.tst.run.isSome → exec .stateSet s = .next (answerPlv r 5 [] u)) ∧
          (s.bnd.adp ≠ .test ∨ s.tst.run = none → exec .stateSet s = .next (answerPlv r 0 [] { u with bnd := { u.bnd with nextState := some t } }))))) ∧
    (Admitted 0x0103 r s → ∀ x, x = opDieidSet r.bytes p u → exec .dieidSet s = .next (answerPlv r x.1 [] x.2.2) ∧
      (s.bnd.rwlLocked = true → x.1 = 3 ∧ x.2.2.regs = u.regs) ∧
      (s.bnd.rwlLocked = false → fieldRange ((regFields glbDieid).getD []) (BitVec.ofNat 32 (payNum p 0 4)) = false → s.bumps = [] → x.1 = 0 ∧
        KeepsRegs [glbDieid, mgtDig 0, mgtDig 1] u x.2.2 ∧
        ∀ f ∈ (regFields glbDieid).getD [], f.acc = .rwl → getF x.2.2 glbDieid f.lo f.w = payNum p 0 4 / 2 ^ f.lo % 2 ^ f.w)) ∧
    (Admitted 0x0104 r s → ∀ x, x = opPortMaskSet r.bytes p u → exec .portMaskSet s = .next (answerPlv r x.1 [] x.2.2) ∧
      (s.bnd.rwlLocked = true → x.1 = 3 ∧ x.2.2.regs = u.regs) ∧
      (s.bnd.rwlLocked = false → s.bumps = [] → x.1 = 0 ∧ KeepsRegs [mgtPortMask 0, mgtPortMask 1] u x.2.2 ∧
        getF x.2.2 (mgtPortMask 0) 0 32 = payNum p 0 4 ∧ getF x.2.2 (mgtPortMask 1) 0 32 = payNum p 4 4)) ∧
    (Admitted 0x0201 r s →
      (1 < payNum p 0 1 ∨ payNum p 1 3 ≠ 0 → exec .portTrain s = .next (answerPlv r 3 [] u)) ∧
      (payNum p 0 1 ≤ 1 → payNum p 1 3 = 0 →
        (canTrain q s = false ∨ (payNum p 0 1 = 0 ∧ (s.port q).ln.lstate ≠ .up) → exec .portTrain s = .next (answerPlv r 9 [] u)) ∧
        (canTrain q s = true → payNum p 0 1 = 1 → exec .portTrain s = .next (answerPlv r 1 [] (coldDue q false u))) ∧
        (canTrain q s = true → payNum p 0 1 = 0 → (s.port q).ln.lstate = .up → exec .portTrain s = .next (answerPlv r 1 [] (resetDue q 3 u))))) ∧
    (Admitted 0x0202 r s → ∀ x, x = opPortWidth r.bytes p u → exec .portWidth s = .next (answerPlv r x.1 [] x.2.2) ∧
      (payNum p 0 1 < 1 ∨ 4 < payNum p 0 1 ∨ payNum p 1 3 ≠ 0 → x.1 = 3 ∧ x.2.2 = u) ∧
      (1 ≤ payNum p 0 1 → payNum p 0 1 ≤ 4 → payNum p 1 3 = 0 → x.1 = 0 ∧
        FieldSet (prtLctl q) 0 3 (payNum p 0 1) u x.2.2 ∧ Recorded (plvUnit r.bytes) 0x0601 .none s x.2.2 ∧ KeepsPorts [q] s x.2.2 ∧
        ((s.port q).ln.lstate = .up → (x.2.2.port q).ln.resetDue = some (min ((s.port q).ln.resetDue.getD 3) 3) ∧ (x.2.2.port q).ln.dueTick = s.tick + 1) ∧
        ((s.port q).ln.lstate ≠ .up → x.2.2.ports = s.ports))) ∧
    (Admitted 0x0203 r s → ∀ x, x = opPortLose r.bytes p u → exec .portLose s = .next (answerPlv r x.1 [] x.2.2) ∧
      Recorded (plvUnit r.bytes) 0x0601 .none s x.2.2 ∧ x.2.2.regs = u.regs ∧
      ((s.port q).rt.lost = true ∨ absent q s = true → x.1 = 9 ∧ x.2.2.ports = s.ports) ∧
      ((s.port q).rt.lost = false → absent q s = false → x.1 = 0 ∧ (x.2.2.port q).rt.lossDue.isSome ∧ KeepsPorts [q] s x.2.2 ∧
        ((s.port q).rt.lossDue = none → (x.2.2.port q).rt.lossDue = some .order ∧ (x.2.2.port q).rt.lossTick = s.tick + 1))) ∧
    (Admitted 0x0204 r s → ∀ x, x = opPortReturn r.bytes p u → exec .portReturn s = .next (answerPlv r x.1 [] x.2.2) ∧
      Recorded (plvUnit r.bytes) 0x0601 .returned s x.2.2 ∧ x.2.2.ports = s.ports ∧
      ((s.port q).ln.lstate ≠ .up ∨ (s.port q).rt.rstate = .direct → x.1 = 9 ∧ x.2.2.returning = s.returning) ∧
      ((s.port q).ln.lstate = .up → (s.port q).rt.rstate ≠ .direct → x.1 = 0 ∧
        x.2.2.returning = s.returning.filter (fun e => e.1 != plvUnit r.bytes) ++ [(plvUnit r.bytes, s.tick + 1)])) ∧
    (Admitted 0x0206 r s → ∀ x, x = opLaneReturn r.bytes p u → exec .laneReturn s = .next (answerPlv r x.1 [] x.2.2) ∧
      Recorded (plvUnit r.bytes) 0x0601 .returned s x.2.2 ∧ x.2.2.lanes = s.lanes ∧
      ((s.lane (plvUnit r.bytes)).role ≠ .failed → x.1 = 9 ∧ x.2.2.returning = s.returning) ∧
      ((s.lane (plvUnit r.bytes)).role = .failed → x.1 = 0 ∧
        x.2.2.returning = s.returning.filter (fun e => e.1 != unitLane (plvUnit r.bytes)) ++ [(unitLane (plvUnit r.bytes), s.tick + 1)])) ∧
    (∀ e ∈ [((Instr.engineReturn, 0x0207) : Instr × Nat), (.unitReturn, 0x0208)], Admitted e.2 r s → ∀ x, x = opReturn e.2 r.bytes p u →
      exec e.1 s = .next (answerPlv r x.1 [] x.2.2) ∧
      (payNum p 0 2 < 1 ∨ 1024 < payNum p 0 2 ∨ payNum p 2 2 ≠ 0 → x.1 = 3 ∧ x.2.2 = u) ∧
      (1 ≤ payNum p 0 2 → payNum p 0 2 ≤ 1024 → payNum p 2 2 = 0 →
        (testBusy s = true → x.1 = 5 ∧ x.2.2 = u) ∧
        (testBusy s = false → unitInService (plvUnit r.bytes) s = true ∨ s.tst.broken = true → x.1 = 9 ∧
          Recorded (plvUnit r.bytes) 0x0601 .returned s x.2.2 ∧ x.2.2.tst = s.tst) ∧
        (testBusy s = false → unitInService (plvUnit r.bytes) s = false → s.tst.broken = false → x.1 = 1 ∧
          Recorded (plvUnit r.bytes) 0x0601 .returned s x.2.2 ∧
          x.2.2.tst = { s.tst with request := some { why := .giveBack, unit := plvUnit r.bytes, budget := payNum p 0 2 } }))) ∧
    (∀ e ∈ [((Instr.calWrite, 0x0300, 0) : Instr × Nat × Nat), (.flowWrite, 0x0302, 1), (.groupWrite, 0x0304, 2), (.memberWrite, 0x0306, 3)],
      Admitted e.2.1 r s → ∀ t, t = stgOf e.2.2 r.bytes → ∀ n, n = payNum p 2 2 → ∀ ws, ws = payWords p n →
      ∀ good, good = (List.range n).all (fun k => t.ok (payNum p 0 2 + k) (ws.getD k 0)) →
      (spanOk (payNum p 0 2) n 112 t.size = false ∨ payNum p 4 4 ≠ 0 ∨ good = false → exec e.1 s = .next (answerPlv r 3 [] u)) ∧
      (spanOk (payNum p 0 2) n 112 t.size = true → payNum p 4 4 = 0 → good = true →
        (s.banks.pend.isSome → exec e.1 s = .next (answerPlv r 0xC [] (stageLocked u)) ∧ Raised evPwr 0 u (stageLocked u)) ∧
        (s.banks.pend = none → ∀ x, x = opStage e.2.2 r.bytes p u → exec e.1 s = .next (answerPlv r 0 [] x.2.2) ∧
          x.2.2.regs = u.regs ∧ x.2.2.evts = s.evts ∧
          (∀ k, k < t.size → entryOf t false k x.2.2 = if payNum p 0 2 ≤ k ∧ k < payNum p 0 2 + n then t.mask (ws.getD (k - payNum p 0 2) 0) else entryOf t false k s) ∧
          (∀ k, k < t.size → entryOf t true k x.2.2 = entryOf t true k s)))) ∧
    (Admitted 0x0400 r s → ∀ x, x = opProtStage r.bytes p u → exec .protStage s = .next (answerPlv r x.1 [] x.2.2) ∧
      (spanOk (payNum p 0 2) (payNum p 2 2) 112 1100 = false ∨ payNum p 4 4 ≠ 0 → x.1 = 3 ∧ x.2.2 = u) ∧
      (spanOk (payNum p 0 2) (payNum p 2 2) 112 1100 = true → payNum p 4 4 = 0 →
        (lockHeld s = true ∨ pstate s ≠ 0 → x.1 = 0xC ∧ x.2.2 = u) ∧
        (lockHeld s = false → pstate s = 0 → x.1 = 0 ∧ x.2.2.prot.img = s.prot.img ∧ x.2.2.prot.stgSeen = true ∧
          (∀ j : Nat, tget word0 x.2.2.prot.stg j = if payNum p 0 2 ≤ j ∧ j < payNum p 0 2 + payNum p 2 2 ∧ j ≠ 1097 ∧ j ≠ 1098
            then BitVec.ofNat 32 (payNum p (8 + 4 * (j - payNum p 0 2)) 4) else tget word0 s.prot.stg j)))) ∧
    (armExpired s = false →
      (Admitted 0x0401 r s →
        (pstate s ≠ 0 → exec .protArm s = .next (answerPlv r 5 [] u)) ∧
        (pstate s = 0 → ∃ v, exec .protArm s = .next v ∧ v.plv = { u.plv with armed := some r } ∧ pstate v = 1 ∧
          v.prot = { s.prot with change := some { fm := true, dig := payNum p 0 8, nonce := payNum p 8 8, tick := s.tick } } ∧ v.evts = s.evts)) ∧
      (Admitted 0x0402 r s →
        (s.prot.change = none → exec .protCommit s = .next (answerPlv r 0xA [] u)) ∧
        (∀ c, s.prot.change = some c →
          (pstate s ≠ 2 → exec .protCommit s = .next (answerPlv r 5 [] u)) ∧
          (pstate s = 2 → c.fm = true ∨ c.dig ≠ payNum p 0 8 ∨ c.nonce ≠ payNum p 8 8 → exec .protCommit s = .next (answerPlv r 3 [] u)) ∧
          (pstate s = 2 → c.fm = false → c.dig = payNum p 0 8 → c.nonce = payNum p 8 8 → ∀ x, x = opProtCommit r.bytes p u →
            exec .protCommit s = .next (answerPlv r 0 [] x.2.2) ∧ pstate x.2.2 = 3 ∧ x.2.2.prot = { s.prot with applyAt := some (s.tick + 1) }))) ∧
      (Admitted 0x0403 r s → ∀ x, x = opProtAbort r.bytes p u → exec .protAbort s = .next (answerPlv r x.1 [] x.2.2) ∧
        (pstate s ≠ 1 → pstate s ≠ 2 → x.1 = 0xA ∧ x.2.2 = u) ∧
        (pstate s = 1 ∨ pstate s = 2 → x.1 = 0 ∧ pstate x.2.2 = 0 ∧ Raised evPro 2 s x.2.2 ∧
          x.2.2.prot = { s.prot with change := none, applyAt := none, stg := s.prot.img, stgKey := none })))

/-- R119, R381, R397, R425, R431, R440, R442, R446, R449, R455, R457: the requests of groups 5 to 8 that change something: a slice asked for or
ended, a repair record entered or its burn armed, a deep calibration, the calibration settings, the log's policy, register writes up to the first
one rejected, whose index is answered, an activation pending or cancelled, and the time base's staging. -/
def Obligations.PlovirkoSettings : Prop :=
  ∀ s : State, ∀ r, nextReq s = some r → ∀ u, u = takenUp r s → ∀ p, p = plvPay r.bytes →
    (Admitted 0x0500 r s → ∀ m, m = (payNum p 2 1 == 1) →
      (1 < payNum p 2 1 ∨ (if m then memoryUnit (plvUnit r.bytes) else logicUnit (plvUnit r.bytes)) = false → exec .bistRun s = .next (answerPlv r 3 [] u)) ∧
      (payNum p 2 1 ≤ 1 → (if m then memoryUnit (plvUnit r.bytes) else logicUnit (plvUnit r.bytes)) = true →
        (testState m (plvUnit r.bytes) s = false → exec .bistRun s = .next (answerPlv r 2 [] u)) ∧
        (testState m (plvUnit r.bytes) s = true → payNum p 0 2 < 1 ∨ 1024 < payNum p 0 2 ∨ payNum p 3 1 ≠ 0 → exec .bistRun s = .next (answerPlv r 3 [] u)) ∧
        (testState m (plvUnit r.bytes) s = true → 1 ≤ payNum p 0 2 → payNum p 0 2 ≤ 1024 → payNum p 3 1 = 0 →
          (testBusy s = true → exec .bistRun s = .next (answerPlv r 5 [] u)) ∧
          (testBusy s = false → s.tst.broken = true → exec .bistRun s = .next (answerPlv r 9 [] u)) ∧
          (testBusy s = false → s.tst.broken = false → exec .bistRun s = .next (answerPlv r 1 []
            { u with tst := { u.tst with request := some ⟨.run, plvUnit r.bytes, if m then nextMacro (plvUnit r.bytes) s else none, payNum p 0 2⟩ } }))))) ∧
    (Admitted 0x0502 r s →
      ((s.tst.run.all (fun x => x.stepsDone)) = true → exec .bistAbort s = .next (answerPlv r 0xA [] u)) ∧
      (∀ x, s.tst.run = some x → x.stepsDone = false → exec .bistAbort s = .next (answerPlv r 0 [] (cutSlice x 1 u)))) ∧
    (∀ rec_ : BitVec 128, rec_ = BitVec.ofNat 128 (payNum p 0 16) →
      (Admitted 0x0503 r s → ∀ x, x = opRepairSoft r.bytes p u → exec .repairSoft s = .next (answerPlv r x.1 [] x.2.2) ∧
        (recOk rec_ = false ∨ recKind rec_ = 8 → x.1 = 3 ∧ x.2.2 = u) ∧
        (recOk rec_ = true → recKind rec_ ≠ 8 →
          (128 ≤ s.tst.soft.length → x.1 = 9 ∧ x.2.2.tst = s.tst ∧ Recorded (plvUnit r.bytes) 0x0601 .none s x.2.2) ∧
          (s.tst.soft.length < 128 →
            ((if isSram rec_ then spareUsed rec_ none s else !isOut rec_ s) = true → x.1 = 3 ∧ x.2.2 = u) ∧
            ((if isSram rec_ then spareUsed rec_ none s else !isOut rec_ s) = false → x.1 = 0 ∧
              x.2.2.tst.soft = s.tst.soft ++ [rec_] ∧ x.2.2.tst.queued = (if isSram rec_ then s.tst.queued ++ [rec_] else s.tst.queued) ∧
              Raised evTst 3 s x.2.2 ∧ Recorded (plvUnit r.bytes) 0x0601 .none s x.2.2)))) ∧
      (Admitted 0x0504 r s → ∀ x, x = opRepairBurn r.bytes p u → exec .repairBurn s = .next (answerPlv r x.1 [] x.2.2) ∧
        (plvTag r.bytes = false → x.1 = 9 ∧ x.2.2.tst = s.tst ∧ Recorded (plvUnit r.bytes) 0x0601 .none s x.2.2) ∧
        (plvTag r.bytes = true → rec_ = 0 → s.tst.armed = none → x.1 = 0xA ∧ x.2.2.tst = s.tst ∧ Recorded (plvUnit r.bytes) 0x0601 .none s x.2.2) ∧
        (plvTag r.bytes = true → rec_ = 0 → s.tst.armed.isSome → x.1 = 0 ∧ x.2.2.tst = { s.tst with armed := none } ∧ getF x.2.2 tstBurnSts 0 2 = 0 ∧
          Recorded (plvUnit r.bytes) 0x0601 .none s x.2.2) ∧
        (plvTag r.bytes = true → rec_ ≠ 0 → burnExpired s = false →
          (s.tst.burning.isSome → x.1 = 5 ∧ x.2.2 = u) ∧
          (s.tst.burning = none → s.tst.armed = none →
            ((recOk rec_ && burnRoom rec_ s.efuse && !spareUsed rec_ (some rec_) s) = true → x.1 = 0 ∧
              x.2.2.tst = { s.tst with armed := some (rec_, true, s.tick) } ∧ getF x.2.2 tstBurnSts 0 2 = 1 ∧ Raised evTst 5 s x.2.2 ∧
              Recorded (plvUnit r.bytes) 0x0601 .none s x.2.2) ∧
            ((recOk rec_ && burnRoom rec_ s.efuse && !spareUsed rec_ (some rec_) s) = false → x.1 = 3 ∧ x.2.2 = u)) ∧
          (∀ a, s.tst.armed = some a → s.tst.burning = none →
            (rec_ = a.1 → a.2.1 = false → x.1 = 1 ∧ x.2.2.tst = { s.tst with armed := none, burning := some (rec_, s.tick) } ∧
              getF x.2.2 tstBurnSts 0 2 = 2 ∧ Recorded (plvUnit r.bytes) 0x0601 .none s x.2.2) ∧
            (rec_ ≠ a.1 ∨ a.2.1 = true → x.1 = 3 ∧ x.2.2 = u))))) ∧
    (Admitted 0x0600 r s → exec .dcalReq s = .next (answerPlv r 0 [] (requestDcal (plvUnit r.bytes) u))) ∧
    (Admitted 0x0601 r s → ∀ bad, bad = (fieldRange ((regFields calCfg).getD []) (BitVec.ofNat 32 (payNum p 0 4)) ||
        fieldRange ((regFields calThr).getD []) (BitVec.ofNat 32 (payNum p 4 4))) → ∀ x, x = opCalCfgSet r.bytes p u →
      exec .calCfgSet s = .next (answerPlv r x.1 [] x.2.2) ∧ (bad = true → x.1 = 3 ∧ x.2.2 = u) ∧
      (bad = false → x.1 = 0 ∧ KeepsRegs [calCfg, calThr] u x.2.2 ∧ (s.bumps = [] →
        (∀ f ∈ (regFields calCfg).getD [], f.acc = .rw → getF x.2.2 calCfg f.lo f.w = payNum p 0 4 / 2 ^ f.lo % 2 ^ f.w) ∧
        (∀ f ∈ (regFields calThr).getD [], f.acc = .rw → getF x.2.2 calThr f.lo f.w = payNum p 4 4 / 2 ^ f.lo % 2 ^ f.w)))) ∧
    (Admitted 0x0701 r s → ∀ x, x = opLogCtl r.bytes p u → exec .logCtl s = .next (answerPlv r x.1 [] x.2.2) ∧
      (1 < payNum p 0 1 ∨ 1 < payNum p 1 1 ∨ payNum p 2 2 ≠ 0 → x.1 = 3 ∧ x.2.2 = u) ∧
      (payNum p 0 1 ≤ 1 → payNum p 1 1 ≤ 1 → payNum p 2 2 = 0 → x.1 = 0 ∧ FieldSet fltCtl 0 1 (payNum p 0 1) u x.2.2 ∧
        x.2.2.flt = (if payNum p 1 1 = 1 then { s.flt with ring := [], poison := [], wptr := 0, count := 0 } else s.flt))) ∧
    (Admitted 0x0703 r s → ∀ a, a = payNum p 0 4 → ∀ w0 : Word, w0 = BitVec.ofNat 32 (payNum p 8 4) → ∀ w1 : Word, w1 = BitVec.ofNat 32 (payNum p 12 4) →
      (addrOk a (payNum p 4 2) p = false ∨ (a < 0x3000 ∧ 0x2000 < a + 4 * payNum p 4 2) → exec .regWrite s = .next (answerPlv r 3 [] u)) ∧
      (addrOk a (payNum p 4 2) p = true → 0x3000 ≤ a ∨ a + 4 * payNum p 4 2 ≤ 0x2000 →
        ((softWrite false a w0 u).1 = .rejected → exec .regWrite s = .next (answerPlv r 3 [0, 0, 0, 0] (softWrite false a w0 u).2)) ∧
        (payNum p 4 2 = 1 → (softWrite false a w0 u).1 ≠ .rejected → exec .regWrite s = .next (answerPlv r 0 [] (softWrite false a w0 u).2)) ∧
        (payNum p 4 2 = 2 → (softWrite false a w0 u).1 ≠ .rejected → ∀ y, y = softWrite false (a + 4) w1 (softWrite false a w0 u).2 →
          exec .regWrite s = .next (if y.1 = .rejected then answerPlv r 3 [1, 0, 0, 0] y.2 else answerPlv r 0 [] y.2)) ∧
        exec .regWrite s = .next (answerPlv r (writeWords (payWords p (payNum p 4 2)) 0 a u).1 (writeWords (payWords p (payNum p 4 2)) 0 a u).2.1
          (writeWords (payWords p (payNum p 4 2)) 0 a u).2.2))) ∧
    (Admitted 0x0801 r s →
      exec (.epochSet true) s = .next (answerPlv r 9 [] (sramUncorr unitLectern unitTest .adapter 7 .poisoned u)) ∧
      (∀ d, d = (payNum p 0 4 + 2 ^ 32 - epochNow s) % 2 ^ 32 →
        (payNum p 4 4 ≠ 0 ∨ d = 0 ∨ 2 ^ 31 ≤ d ∨ stagedDigest s ≠ payNum p 16 8 ∨ payNum p 8 8 < s.tick + 2 ∨ 2 ^ 54 ≤ payNum p 8 8 →
          exec (.epochSet false) s = .next (answerPlv r 3 (leBytes 8 (stagedDigest s)) u)) ∧
        (payNum p 4 4 = 0 → d ≠ 0 → d < 2 ^ 31 → stagedDigest s = payNum p 16 8 → s.tick + 2 ≤ payNum p 8 8 → payNum p 8 8 < 2 ^ 54 →
          (s.banks.pend.isSome ∨ pstate s ≠ 0 → exec (.epochSet false) s = .next (answerPlv r 5 [] u)) ∧
          (s.banks.pend = none → pstate s = 0 → exec (.epochSet false) s = .next (answerPlv r 0 (leBytes 8 (stagedDigest s))
            { u with banks := { u.banks with pend := some { tick := payNum p 8 8, epoch := payNum p 0 4, digest := payNum p 16 8 } } }))))) ∧
    (Admitted 0x0802 r s →
      (s.banks.pend = none → exec .epochCancel s = .next (answerPlv r 0xA [] u)) ∧
      (∀ a, s.banks.pend = some a →
        (a.tick ≤ s.tick + 1 → exec .epochCancel s = .next (answerPlv r 9 [] u)) ∧
        (s.tick + 1 < a.tick → exec .epochCancel s = .next (answerPlv r 0 [] { u with banks := { u.banks with pend := none } })))) ∧
    (Admitted 0x0803 r s → ∀ bad, bad = (fieldRange ((regFields tbCfgStg).getD []) (BitVec.ofNat 32 (payNum p 0 4)) ||
        specialRange tbCfgStg (BitVec.ofNat 32 (payNum p 0 4)) u) → ∀ x, x = opTimeStage r.bytes p u →
      exec .timeStage s = .next (answerPlv r x.1 [] x.2.2) ∧ (bad = true → x.1 = 3 ∧ x.2.2 = u) ∧
      (bad = false → x.1 = 0 ∧ KeepsRegs [tbCfgStg] u x.2.2 ∧ (s.bumps = [] →
        ∀ f ∈ (regFields tbCfgStg).getD [], f.acc = .rw → getF x.2.2 tbCfgStg f.lo f.w = payNum p 0 4 / 2 ^ f.lo % 2 ^ f.w)))

/-! ### Self-test, repair and the test port -/

/-- R375, R381, R382, R394, R445 to R448, R451 to R453, R455: slices. The one that waits in the highest place starts; each step advances its run; a
march that found nothing ends PASS, one whose failures the free spares cover ends REPAIRED with their records, and one they do not cover ends
FAIL; a logic slice compares its signature with the reference, which Config leaves open; a budget that has run out makes it INCONCLUSIVE; the
end is shown, counted and acted on. -/
def Obligations.SelfTestSlices : Prop :=
  ∀ s : State, s.acts = true →
    (sliceState s = true → s.tst.run = none → s.tst.broken = false → (s.tst.ended.all (fun d => decide (d < s.tick))) = true →
      (∀ j u, nextSlice s = some (j, u) → ∃ t, exec .sliceStart s = .next t ∧ getF t tstSts 0 3 = 1 ∧ getF t tstSts 5 1 = bit j.mem.isSome ∧
        getF t tstSts 8 14 = j.unit % 2 ^ 14 ∧ (∀ m, j.mem = some m → getF t tstMem 0 4 = m.1 % 16 ∧ getF t tstMem 4 12 = m.2 % 4096) ∧
        t.tst.run = some { job := j, began := s.tick, phase := if j.mem.isSome then 0 else 1, next := s.tick } ∧
        t.tst.rot = u.tst.rot ∧ t.tst.damage = u.tst.damage ∧ t.tst.request = u.tst.request ∧ t.tst.sweep = u.tst.sweep) ∧
      (nextSlice s = none → exec .sliceStart s = .next s)) ∧
    (s.tst.run.isSome = true ∨ s.tst.broken = true ∨ (s.tst.ended.any (fun d => decide (s.tick ≤ d))) = true → exec .sliceStart s = .next s) ∧
    (∀ v, v = (nextSlice s).map (fun x => x.1) →
      (∀ q : QuadId, ∀ e, s.tst.rot.find? (fun r => r.1 == q.val) = some e → (List.range q.val).all (fun k => (s.tst.rot.find? (fun r => r.1 == k)).isNone) = true →
        v = some { why := .rotation q e.2, unit := unitEng q e.2, budget := defBudget s }) ∧
      (∀ m, s.tst.damage.head? = some m → s.tst.rot = [] → v = some { why := .damage, unit := ownerOf m, mem := some m, budget := defBudget s }) ∧
      (∀ j, s.tst.request = some j → s.tst.rot = [] → s.tst.damage = [] → v = some j) ∧
      (∀ m, s.tst.sweep = some m → s.tst.rot = [] → s.tst.damage = [] → s.tst.request = none →
        v = some { why := .sweep, unit := ownerOf m, mem := some m, budget := defBudget s })) ∧
    (∀ (sig : BitVec 64) (fails : List (Fin 1024 × Fin 36)), ∀ x, s.tst.run = some x →
      (s.tick < x.next ∨ x.steps = stepsOf x → exec (.bistStep sig fails) s = .next s) ∧
      (x.next ≤ s.tick → x.steps < stepsOf x →
        (x.job.mem = none → ∃ t, exec (.bistStep sig fails) s = .next t ∧
          t.tst.run = some { x with
            steps := x.steps + 1
            next := s.tick + 1
            verdict := if x.steps + 1 = stepsOf x then some (if sig.toNat = reference x.job.unit then 2 else 3, 0) else x.verdict } ∧
          getF t (tstSig 0) 0 32 = sig.toNat % 2 ^ 32 ∧ getF t (tstSig 1) 0 32 = sig.toNat / 2 ^ 32 ∧
          getF t tstSts 6 1 = (if sig.toNat = reference x.job.unit then 1 else 0) ∧ getF t tstSts 22 10 = min 1023 (s.tick + 1 - x.began) ∧
          t.evts = (arrive 16 s).evts) ∧
        (∀ m, x.job.mem = some m →
          (x.phase = 0 → ∃ t, exec (.bistStep sig fails) s = .next t ∧ t.evts = (arrive 16 s).evts ∧
            (x.steps < 3 → t.tst = { s.tst with run := some { x with
              steps := x.steps + 1
              next := s.tick + 1 } }) ∧
            (x.steps = 3 → t.tst.run = some { x with
                phase := 1
                steps := 0
                next := s.tick + 1 } ∧ getReg t tstSave = BitVec.ofNat 32 (1 + 2 * m.1 + 2 ^ 5 * m.2) ∧
              t.tst.queued = s.tst.queued.filter (fun r => recMacro r != m))) ∧
          (x.phase = 1 → ∀ fs, fs = (x.fails ++ fails.map (fun f => (f.1.val, f.2.val))).eraseDups → ∀ al, al = allocate m fs s →
            ∃ t, exec (.bistStep sig fails) s = .next t ∧ getF t tstMem 16 6 = min 63 fs.length ∧
            (x.steps < 39 → t.tst = { s.tst with run := some { x with
                steps := x.steps + 1
                next := s.tick + 1
                fails := fs } } ∧ t.evts = (arrive 16 s).evts) ∧
            (x.steps = 39 → ∀ c, c = (if fs = [] then 2 else if al.isNone ∨ 128 < s.tst.soft.length + (al.getD []).length then 3 else 5) →
              t.tst = { s.tst with
                run := some { x with
                  phase := 2
                  steps := 0
                  next := s.tick + 1
                  fails := fs
                  verdict := some (c, 0) }
                soft := if c = 5 then s.tst.soft ++ al.getD [] else s.tst.soft } ∧
              (c = 2 → t.evts = (arrive 16 s).evts) ∧ (c = 3 → Raised evTst 4 (arrive 16 s) t) ∧
              (c = 5 → Raised evTst 3 (arrive 16 s) t ∧ getF t tstCnt1 16 16 = min (getF s tstCnt1 16 16 + (al.getD []).length) 65535))) ∧
          (x.phase = 2 → ∀ late, late = (!x.exceeded && decide (x.began + x.job.budget ≤ s.tick)) → ∃ t, exec (.bistStep sig fails) s = .next t ∧
            t.tst = { s.tst with run := some { x with
              steps := x.steps + 1
              next := s.tick + 1
              exceeded := x.exceeded || late } } ∧
            (late = true → Raised evTst 9 (arrive 16 s) t) ∧ (late = false → t.evts = (arrive 16 s).evts))))) ∧
    (∀ x, s.tst.run = some x →
      (x.job.mem = none → x.verdict = none → x.began + x.job.budget ≤ s.tick → exec .sliceBudgetExpiry s = .next (endSlice x 4 0 s)) ∧
      (x.job.mem.isSome → x.phase = 0 → x.began + x.job.budget ≤ s.tick + 5 → exec .sliceBudgetExpiry s = .next (endSlice x 4 0 s)) ∧
      (x.job.mem.isSome → x.phase = 1 → x.began + x.job.budget ≤ s.tick + 5 → ∃ t, exec .sliceBudgetExpiry s = .next t ∧
        t.tst = { s.tst with run := some { x with
          phase := 2
          steps := 0
          verdict := some (4, 0) } } ∧ t.evts = s.evts) ∧
      (s.tick + 5 < x.began + x.job.budget ∨ (x.job.mem.isSome ∧ 2 ≤ x.phase) → exec .sliceBudgetExpiry s = .next s) ∧
      (x.steps = stepsOf x → ∀ c, c = x.verdict.getD (4, 0) →
        (x.job.mem = none → exec .sliceEnd s = .next (endSlice x c.1 c.2 s)) ∧
        (x.job.mem.isSome → x.phase = 2 → exec .sliceEnd s = .next (endSlice x c.1 c.2 (putReg tstSave 0 s)))) ∧
      (x.steps ≠ stepsOf x → exec .sliceEnd s = .next s)) ∧
    (s.tst.run = none → exec .sliceBudgetExpiry s = .next s ∧ exec .sliceEnd s = .next s) ∧
    (∀ x : Slice, ∀ code cause : Nat, ∀ t, t = endSlice x code cause s →
      t.tst.run = none ∧ t.tst.ended = some s.tick ∧
      (x.job.why = .damage ∨ x.job.why = .run ∨ x.job.why = .sweep → getF t tstSts 0 3 = code % 8 ∧ getF t tstSts 3 2 = cause % 4 ∧
        Raised evTst (if code = 3 then 1 else if code = 4 then 2 else 0) s t ∧ t.quads = s.quads ∧ t.returning = s.returning ∧ t.flt = s.flt) ∧
      (x.job.why = .giveBack → t.quads = s.quads ∧ t.returning = (if code = 2 then s.returning ++ [(x.job.unit, s.tick + 1)] else s.returning)) ∧
      (∀ (q : QuadId) (e : EngineId), x.job.why = .rotation q e → engIn q e s = true →
        (code = 2 → seng q t = e.val ∧ engIn q e t = true ∧ t.tst.rot = s.tst.rot) ∧
        (code = 3 → seng q t = 31 ∧ engIn q e t = false ∧ Recorded (unitEng q e) 0x0303 .unitOut s t ∧ t.tst.rot = s.tst.rot) ∧
        (code = 4 → engIn q e t = true ∧ Recorded (unitEng q e) 0x0303 .bistRetry s t ∧ t.tst.rot = s.tst.rot ++ [(q.val, e.val)]))) ∧
    (sliceState s = true → s.tst.broken = false → getF s tstCtl 11 1 = 1 → testBusy s = false → s.tst.sweep = none →
      (s.tst.ended.getD 0 + getF s tstCtl 12 16 ≤ s.tick → ∀ n, n = (match s.tst.swept with | some k => (k + 1) % macroTotal | none => 0) →
        exec .sweepTimer s = .next { s with tst := { s.tst with
          swept := some n
          sweep := some (macroAt 0 n macroCounts) } }) ∧
      (s.tick < s.tst.ended.getD 0 + getF s tstCtl 12 16 → exec .sweepTimer s = .next s)) ∧
    (getF s tstCtl 11 1 = 0 ∨ testBusy s = true → exec .sweepTimer s = .next s)

/-- R54, R408, R418, R433, R454, R457, R458, R460 to R463, R482: burns, and the test port. A burn needs both parties' parts with one record; the
host's part needs the agent and the lock; programming takes the record's place and uses it up; an armed burn expires. The wrapper's WS_EXTEST and
WS_SAFE take effect in BOOT and FROZEN: WS_EXTEST drives the cells shifted in, WS_SAFE values that no rule states (log 110), on the outputs the
wrapper covers, which the adapter drives itself else; TST_ACC takes effect outside FROZEN, MEM_READ and SCAN in FROZEN after a zeroisation; else
BYPASS captures 0. -/
def Obligations.BurnsAndTestPort : Prop :=
  ∀ s : State,
    (s.mready = true → s.acts = true →
      (∀ i ∈ [Instr.burnGo true, .burnAbort true], lockHeld s = false → ∃ t, exec i s = .next t ∧ Raised evPro 6 s t ∧ t.tst = s.tst ∧ t.regs = s.regs ∧ Finished s t) ∧
      (∀ i ∈ [Instr.burnGo false, .burnAbort false], ∃ t, exec i s = .next t ∧ Raised evPro 6 s t ∧ t.tst = s.tst ∧ t.regs = s.regs ∧ Finished s t) ∧
      (lockHeld s = true →
        (burnExpired s = false →
          (s.tst.burning.isSome → ∃ t, exec (.burnGo true) s = .next t ∧ FieldSet tstBurnSts 3 4 5 s t ∧ t.tst = s.tst ∧ t.evts = s.evts) ∧
          (s.tst.burning = none → s.tst.armed = none → ∀ good, good = (recOk (burnRec s) && burnRoom (burnRec s) s.efuse && !spareUsed (burnRec s) (some (burnRec s)) s) →
            (good = true → ∃ t, exec (.burnGo true) s = .next t ∧ t.tst = { s.tst with armed := some (burnRec s, false, s.tick) } ∧
              getF t tstBurnSts 0 2 = 1 ∧ getF t tstBurnSts 2 1 = 0 ∧ getF t tstBurnSts 3 4 = 0 ∧ Raised evTst 5 s t ∧ t.efuse = s.efuse ∧ Finished s t) ∧
            (good = false → ∃ t, exec (.burnGo true) s = .next t ∧ t.tst = s.tst ∧ FieldSet tstBurnSts 3 4 3 s t)) ∧
          (∀ a, s.tst.armed = some a → s.tst.burning = none →
            (burnRec s = a.1 → a.2.1 = true → ∃ t, exec (.burnGo true) s = .next t ∧ t.tst = { s.tst with armed := none, burning := some (a.1, s.tick) } ∧
              getF t tstBurnSts 0 2 = 2 ∧ getF t tstBurnSts 3 4 = 1) ∧
            (burnRec s ≠ a.1 ∨ a.2.1 = false → ∃ t, exec (.burnGo true) s = .next t ∧ t.tst = s.tst ∧ FieldSet tstBurnSts 3 4 3 s t))) ∧
        (burnExpired s = true → s.tst.burning = none →
          (recOk (burnRec s) && burnRoom (burnRec s) s.efuse && !spareUsed (burnRec s) (some (burnRec s)) s) = true → ∃ t, exec (.burnGo true) s = .next t ∧
          t.tst = { s.tst with armed := some (burnRec s, false, s.tick) } ∧ getF t tstBurnSts 0 2 = 1) ∧
        (s.tst.armed.isSome → ∃ t, exec (.burnAbort true) s = .next t ∧ t.tst = { s.tst with armed := none } ∧ getF t tstBurnSts 0 2 = 0 ∧ getF t tstBurnSts 3 4 = 0) ∧
        (s.tst.armed = none → ∃ t, exec (.burnAbort true) s = .next t ∧ t.tst = s.tst ∧ FieldSet tstBurnSts 3 4 0xA s t))) ∧
    (s.acts = true →
      (burnExpired s = true → ∃ t, exec .burnExpiry s = .next t ∧ t.tst = { s.tst with armed := none } ∧ getF t tstBurnSts 0 2 = 0 ∧ t.efuse = s.efuse) ∧
      (burnExpired s = false → exec .burnExpiry s = .next s) ∧
      (s.tst.burning = none → ∀ good, exec (.burnComplete good) s = .next s) ∧
      (∀ b, s.tst.burning = some b → ∀ good : Bool, ∃ t, exec (.burnComplete good) s = .next t ∧ t.tst = { s.tst with burning := none } ∧
        getF t tstBurnSts 0 2 = 0 ∧ getF t tstBurnSts 3 4 = (if good then 0 else 9) ∧ Raised evTst (if good then 6 else 7) s t ∧
        getF t tstEfuse 0 10 = 512 - slotsUsed t.efuse ∧ getF t tstEfuse 18 7 = patchesUsed t.efuse ∧
        (∀ k, freeSlot s.efuse = some k → recKind b.1 ≠ 8 → t.efuse.patches = s.efuse.patches ∧
          (∀ j : Nat, j ≠ k → tget (fun _ => (0 : BitVec 128)) t.efuse.slots j = tget (fun _ => (0 : BitVec 128)) s.efuse.slots j) ∧
          (good = true → tget (fun _ => (0 : BitVec 128)) t.efuse.slots k = b.1 ∧ t.efuse.used = s.efuse.used) ∧
          (good = false → t.efuse.used = s.efuse.used ++ [k])) ∧
        (recKind b.1 = 8 → t.efuse.slots = s.efuse.slots ∧
          (good = true → tget (fun _ => (0 : BitVec 128)) t.efuse.patches (sf b.1 4 6) = b.1 ∧ t.efuse.used = s.efuse.used) ∧
          (good = false → t.efuse.used = s.efuse.used ++ [512 + sf b.1 4 6])))) ∧
    (∀ c : WrapPins,
      exec (.tapWsp ⟨0, c⟩) s = .next { s with tst := { s.tst with wrapper := 0 } } ∧
      (s.bnd.adp = .boot ∨ s.bnd.adp = .frozen →
        (∃ t, exec (.tapWsp ⟨1, c⟩) s = .next t ∧ t.tst = { s.tst with wrapper := 1, cells := c } ∧ hostPins t = c ∧ t.bnd = s.bnd ∧ t.regs = s.regs) ∧
        (∀ f, f = freePins s.free → ∃ t, exec (.tapWsp ⟨2, c⟩) s = .next t ∧ t.tst = { s.tst with wrapper := 2, cells := f } ∧ hostPins t = f ∧ t.bnd = s.bnd ∧
          t.regs = s.regs)) ∧
      (∀ w ∈ [(1 : Fin 3), 2], s.bnd.adp ≠ .boot → s.bnd.adp ≠ .frozen → exec (.tapWsp ⟨w, c⟩) s = .next { s with tst := { s.tst with dr := 0 } })) ∧
    (s.tst.wrapper = 0 ∨ (s.bnd.adp ≠ .boot ∧ s.bnd.adp ≠ .frozen) → hostPins s = ownPins s) ∧
    (∀ (off : BitVec 16) (data : Word), ∀ a, a = 0x50000 + off.toNat / 4 * 4 →
      (s.alive = false → ∀ b, exec (.tapTstAcc off b data) s = .next { s with tst := { s.tst with dr := 0 } }) ∧
      (s.alive = true → exec (.tapTstAcc off false data) s =
        .next { s with tst := { s.tst with dr := off.toNat + 2 ^ 17 * (readReg a s).toNat } }) ∧
      (s.alive = true → ∃ t, exec (.tapTstAcc off true data) s = .next t ∧ t.regs = (softWrite false a data s).2.regs ∧ t.evts = (softWrite false a data s).2.evts)) ∧
    (∀ (ar : Fin 16) (inst : Fin 4096) (row : Fin 1024) (sv : Bool),
      (∀ i ∈ [Instr.tapMemRead ar inst row sv, .tapScan],
        (s.bnd.adp ≠ .frozen → exec i s = .next { s with tst := { s.tst with dr := 0 } }) ∧
        (s.bnd.adp = .frozen → s.tst.zeroed = false → ∃ t, exec i s = .next t ∧ t.prot = {} ∧ t.tst.zeroed = true ∧ Raised evPro 7 s t ∧ getF t proSts 6 1 = 1 ∧
          getF t proSts 3 1 = 0 ∧ t.efuse = s.efuse ∧ t.flt = s.flt ∧ t.tst.soft = s.tst.soft) ∧
        (s.bnd.adp = .frozen → s.tst.zeroed = true → ∃ t, exec i s = .next t ∧ t.prot = s.prot ∧ t.regs = s.regs ∧ t.evts = s.evts ∧ t.flt = s.flt ∧
          t.efuse = s.efuse ∧ t.tst.soft = s.tst.soft)) ∧
      (s.bnd.adp = .frozen → ∃ t, exec (.tapMemRead ar inst row sv) s = .next t ∧
        t.tst.dr % 2 ^ 27 = ar.val + 2 ^ 4 * inst.val + 2 ^ 16 * row.val + 2 ^ 26 * bit sv ∧ t.tst.dr / 2 ^ 27 % 32 = 0 ∧
        (ar.val = 8 → t.tst.dr / 2 ^ 32 = 0) ∧
        (ar.val = 9 → inst.val < 2 → sv = false → t.tst.dr / 2 ^ 32 % 2 ^ 128 =
          leNum (((logEntry ((inst.val * 1024 + row.val) / 2) s).drop (16 * (row.val % 2))).take 16) ∧
          t.tst.dr / 2 ^ 160 = if s.flt.poison.contains ((inst.val * 1024 + row.val) / 2) then 3 else 0))) ∧
    exec .tapBypass s = .next { s with tst := { s.tst with dr := 0 } }

/-! ### Forms on the wire -/

/-- R31, R73, R103, R111, R130, R174, R178, R187, R191: what is packed is read back. A flit header, a packet header, a lane-control message,
a marker, a ledger, a training message and an inner-port header whose fields fit their places are read from their bits as they
were; the header beat's parity holds; a response code and TXID_LAST are read from the ADDR field they share. -/
def Obligations.FormsReadBack : Prop :=
  (∀ h : FlitHdr, h.kind < 16 → h.seq < 65536 → h.ack < 65536 → h.cpool < 16 → h.cred < 512 → h.nslot < 16 → h.hslot < 16 → h.low < 8 →
    FlitHdr.ofWord h.word = h ∧ h.word < 2 ^ 64) ∧
  (∀ h : PktHdr, h.opc < 256 → h.len < 256 → h.src < 2 ^ 18 → h.dst < 2 ^ 18 → h.cls < 8 → h.txid < 2 ^ 20 → h.addr < 2 ^ 48 →
    PktHdr.ofSlot h.slot = h) ∧
  (∀ m : LaneMsg, m.lane < 8 → m.sub < 8 → m.eff < 65536 → LaneMsg.ofSlot m.slot = some m ∧ isControl m.slot = true) ∧
  (∀ m : Marker, m.ctsTx < 2 ^ 64 → m.gmid < 2 ^ 18 → m.stratum < 16 → m.tq < 8 → m.calph < 64 → m.pwr < 65536 → Marker.ofSlot m.slot = m) ∧
  (∀ m : TrainMsg, m.phase < 16 → m.pass < 32 → m.active < 32 → m.wmax < 8 → m.tref < 2 ^ 32 → m.echo < 2 ^ 32 → m.turn < 2 ^ 32 →
    TrainMsg.ofSlot m.slot = m) ∧
  (∀ l : Ledger, l.valid = true → l.rtick < 65536 → l.epoch < 2 ^ 32 → l.digest < 2 ^ 64 → l.hfreeCtl < 65536 → l.hfreePlv < 65536 →
    l.counts.length = 9 → (∀ c ∈ l.counts, c.1 < 2 ^ 32 ∧ c.2.1 < 2 ^ 32 ∧ c.2.2 < 2 ^ 32) → l.summary.length = 3 → l.cfg.vcmap < 2 ^ 24 →
    l.cfg.limits.length = 8 → (∀ n ∈ l.cfg.limits, n < 8192) → (l.cfg.priv = false → l.cfg.vcmap = 0 ∧ ∀ n ∈ l.cfg.limits, n = 0) →
    Ledger.ofSlots l.slots = l ∧ l.slots.length = 15) ∧
  (∀ l : Ledger, l.valid = false → (Ledger.ofSlots l.slots).valid = false) ∧
  (∀ h : IpHdr, h.kind < 256 → h.tag < 1024 → h.bytes < 8192 → h.addr < 2 ^ 48 → h.die < 2 ^ 18 → h.resp < 16 →
    IpHdr.ofBeat h.beat = h ∧ headerParOk h.beat = true) ∧
  (∀ (h : PktHdr) (last : Nat) (r : Resp), h.addr = respAddr last r → h.resp = r.code ∧ h.txidLast = last % 2 ^ 20 ∧ Resp.ofCode h.resp = some r)

/-- R129 to R134: a flit that is sent is read back. Of the 272 bytes of a flit, interleaved, with CRC and the parity of both codewords, the
receiver's FEC finds nothing to correct, the CRC matches, and the header and every payload slot are those that were sent. -/
def Obligations.FlitsReadBack : Prop :=
  ∀ f : Flit, f.slots.length = 15 → f.hdr.kind < 16 → f.hdr.seq < 65536 → f.hdr.ack < 65536 → f.hdr.cpool < 16 → f.hdr.cred < 512 →
    f.hdr.nslot < 16 → f.hdr.hslot < 16 → f.hdr.low < 8 → f.wire.length = 272 ∧ readFlit f.wire = .good f []
end

