-- ==== Sys2Proof/Laws/Frame.lean ====
section
/-!
SUPPORT. What each operation leaves alone: one lemma per operation, which says that every part of the state beside the
parts it may change, and the queue, come through it as they were. A part may change only if it is not asked about:
`Off P p` says that `P` leaves part `p` out.
-/
namespace Sys2Proof.Machine
open Host

/-- `s` with the parts outside `P` blanked. -/
def mask (P : Part → Bool) (s : State) : State where
  pending := s.pending
  free := bif P .free then s.free else 0
  cts := bif P .cts then s.cts else 0
  regs := bif P .regs then s.regs else []
  inForce := bif P .inForce then s.inForce else []
  bumps := bif P .bumps then s.bumps else []
  evts := bif P .evts then s.evts else []
  bnd := bif P .bnd then s.bnd else {}
  flt := bif P .flt then s.flt else {}
  efuse := bif P .efuse then s.efuse else {}
  blsb := bif P .blsb then s.blsb else {}
  tb := bif P .tb then s.tb else {}
  lanes := bif P .lanes then s.lanes else []
  ports := bif P .ports then s.ports else []
  banks := bif P .banks then s.banks else {}
  ips := bif P .ips then s.ips else []
  tx := bif P .tx then s.tx else {}
  wb := bif P .wb then s.wb else []
  col := bif P .col then s.col else []
  dma := bif P .dma then s.dma else []
  granted := bif P .granted then s.granted else []
  prot := bif P .prot then s.prot else {}
  lect := bif P .lect then s.lect else {}
  quads := bif P .quads then s.quads else []
  leaving := bif P .leaving then s.leaving else []
  returning := bif P .returning then s.returning else []
  plv := bif P .plv then s.plv else {}
  tst := bif P .tst then s.tst else {}
  bring := bif P .bring then s.bring else {}

/-- Part `p` lies outside `P`. -/
class Off (P : Part → Bool) (p : Part) : Prop where
  eq : P p = false

variable {P : Part → Bool}

@[simp] theorem mask_free [Off P .free] (s : State) (x : Nat) : mask P { s with free := x } = mask P s := by
  simp [mask, Off.eq (P := P) (p := .free)]
@[simp] theorem mask_cts [Off P .cts] (s : State) (x : Nat) : mask P { s with cts := x } = mask P s := by
  simp [mask, Off.eq (P := P) (p := .cts)]
@[simp] theorem mask_regs [Off P .regs] (s : State) (x : Tab Word) : mask P { s with regs := x } = mask P s := by
  simp [mask, Off.eq (P := P) (p := .regs)]
@[simp] theorem mask_inForce [Off P .inForce] (s : State) (x : Tab Word) : mask P { s with inForce := x } = mask P s := by
  simp [mask, Off.eq (P := P) (p := .inForce)]
@[simp] theorem mask_bumps [Off P .bumps] (s : State) (x : List Bump) : mask P { s with bumps := x } = mask P s := by
  simp [mask, Off.eq (P := P) (p := .bumps)]
@[simp] theorem mask_evts [Off P .evts] (s : State) (x : Tab EvtBlock) : mask P { s with evts := x } = mask P s := by
  simp [mask, Off.eq (P := P) (p := .evts)]
@[simp] theorem mask_bnd [Off P .bnd] (s : State) (x : Boundary) : mask P { s with bnd := x } = mask P s := by
  simp [mask, Off.eq (P := P) (p := .bnd)]
@[simp] theorem mask_flt [Off P .flt] (s : State) (x : FaultLog) : mask P { s with flt := x } = mask P s := by
  simp [mask, Off.eq (P := P) (p := .flt)]
@[simp] theorem mask_efuse [Off P .efuse] (s : State) (x : EFuse) : mask P { s with efuse := x } = mask P s := by
  simp [mask, Off.eq (P := P) (p := .efuse)]
@[simp] theorem mask_blsb [Off P .blsb] (s : State) (x : Blsb) : mask P { s with blsb := x } = mask P s := by
  simp [mask, Off.eq (P := P) (p := .blsb)]
@[simp] theorem mask_tb [Off P .tb] (s : State) (x : TimeBase) : mask P { s with tb := x } = mask P s := by
  simp [mask, Off.eq (P := P) (p := .tb)]
@[simp] theorem mask_lanes [Off P .lanes] (s : State) (x : Tab Lane) : mask P { s with lanes := x } = mask P s := by
  simp [mask, Off.eq (P := P) (p := .lanes)]
@[simp] theorem mask_ports [Off P .ports] (s : State) (x : Tab Port) : mask P { s with ports := x } = mask P s := by
  simp [mask, Off.eq (P := P) (p := .ports)]
@[simp] theorem mask_banks [Off P .banks] (s : State) (x : Banks) : mask P { s with banks := x } = mask P s := by
  simp [mask, Off.eq (P := P) (p := .banks)]
@[simp] theorem mask_ips [Off P .ips] (s : State) (x : Tab InnerPort) : mask P { s with ips := x } = mask P s := by
  simp [mask, Off.eq (P := P) (p := .ips)]
@[simp] theorem mask_tx [Off P .tx] (s : State) (x : Transact) : mask P { s with tx := x } = mask P s := by
  simp [mask, Off.eq (P := P) (p := .tx)]
@[simp] theorem mask_wb [Off P .wb] (s : State) (x : Tab WbUnit) : mask P { s with wb := x } = mask P s := by
  simp [mask, Off.eq (P := P) (p := .wb)]
@[simp] theorem mask_col [Off P .col] (s : State) (x : Tab Stream) : mask P { s with col := x } = mask P s := by
  simp [mask, Off.eq (P := P) (p := .col)]
@[simp] theorem mask_dma [Off P .dma] (s : State) (x : Tab Chan) : mask P { s with dma := x } = mask P s := by
  simp [mask, Off.eq (P := P) (p := .dma)]
@[simp] theorem mask_granted [Off P .granted] (s : State) (x : Tab Nat) : mask P { s with granted := x } = mask P s := by
  simp [mask, Off.eq (P := P) (p := .granted)]
@[simp] theorem mask_prot [Off P .prot] (s : State) (x : Protect) : mask P { s with prot := x } = mask P s := by
  simp [mask, Off.eq (P := P) (p := .prot)]
@[simp] theorem mask_lect [Off P .lect] (s : State) (x : Lectern) : mask P { s with lect := x } = mask P s := by
  simp [mask, Off.eq (P := P) (p := .lect)]
@[simp] theorem mask_quads [Off P .quads] (s : State) (x : Tab Quad) : mask P { s with quads := x } = mask P s := by
  simp [mask, Off.eq (P := P) (p := .quads)]
@[simp] theorem mask_leaving [Off P .leaving] (s : State) (x : List (Nat × Nat)) : mask P { s with leaving := x } = mask P s := by
  simp [mask, Off.eq (P := P) (p := .leaving)]
@[simp] theorem mask_returning [Off P .returning] (s : State) (x : List (Nat × Nat)) : mask P { s with returning := x } = mask P s := by
  simp [mask, Off.eq (P := P) (p := .returning)]
@[simp] theorem mask_plv [Off P .plv] (s : State) (x : Plovirko) : mask P { s with plv := x } = mask P s := by
  simp [mask, Off.eq (P := P) (p := .plv)]
@[simp] theorem mask_tst [Off P .tst] (s : State) (x : TestCtl) : mask P { s with tst := x } = mask P s := by
  simp [mask, Off.eq (P := P) (p := .tst)]
@[simp] theorem mask_bring [Off P .bring] (s : State) (x : Bringup) : mask P { s with bring := x } = mask P s := by
  simp [mask, Off.eq (P := P) (p := .bring)]

@[simp] theorem ite_mask (c : Prop) [Decidable c] (a b : State) : mask P (if c then a else b) = if c then mask P a else mask P b := by
 split <;> rfl

@[simp] theorem foldl_mask {β : Type} (f : State → β → State) (l : List β) (s : State) (h : ∀ t e, mask P (f t e) = mask P t) : mask P (l.foldl f s) = mask P s := by
  induction l generalizing s with
  | nil => rfl
  | cons e l ih => simp [ih, h]

@[simp] theorem putReg_mask [Off P .regs] (a : Nat) (v : Word) (s : State) : mask P (putReg a v s) = mask P s := by
  unfold putReg; simp

@[simp] theorem setF_mask [Off P .regs] (a : Nat) (lo : Nat) (w : Nat) (x : Nat) (s : State) : mask P (setF a lo w x s) = mask P s := by
  unfold setF; simp

@[simp] theorem bumpN_mask [Off P .regs] [Off P .bumps] (a : Nat) (lo : Nat) (w : Nat) (n : Nat) (s : State) : mask P (bumpN a lo w n s) = mask P s := by
  unfold bumpN; simp

@[simp] theorem bump_mask [Off P .regs] [Off P .bumps] (a : Nat) (lo : Nat) (w : Nat) (s : State) : mask P (bump a lo w s) = mask P s := by
  unfold bump; simp

@[simp] theorem bumpWrap_mask [Off P .regs] [Off P .bumps] (a : Nat) (n : Nat) (s : State) : mask P (bumpWrap a n s) = mask P s := by
  unfold bumpWrap; simp

@[simp] theorem peak_mask [Off P .regs] [Off P .bumps] (a : Nat) (lo : Nat) (w : Nat) (u : Nat) (s : State) : mask P (peak a lo w u s) = mask P s := by
  unfold peak; simp

@[simp] theorem finishAccess_mask [Off P .bnd] (err : Bool) (s : State) : mask P (finishAccess err s) = mask P s := by
  unfold finishAccess; simp

@[simp] theorem hostWrite_mask [Off P .bnd] (f : State → State) (s : State) (h_f : ∀ v0, mask P (f v0) = mask P v0) : mask P (hostWrite f s) = mask P s := by
  unfold hostWrite; (try dsimp only); (repeat' split) <;> simp [*]

@[simp] theorem hostRead_mask [Off P .bnd] (v : Word) (s : State) : mask P (hostRead v s) = mask P s := by
  unfold hostRead; simp

@[simp] theorem takeFree_mask [Off P .free] (s : State) : mask P (takeFree s).2 = mask P s := by
  unfold takeFree; simp

@[simp] theorem raise_mask [Off P .evts] (b : Nat) (e : Nat) (s : State) : mask P (raise b e s) = mask P s := by
  unfold raise; simp

@[simp] theorem latchEvents_mask [Off P .bumps] [Off P .evts] (s : State) : mask P (latchEvents s) = mask P s := by
  simp [latchEvents, mask, Off.eq (P := P) (p := .bumps), Off.eq (P := P) (p := .evts)]; done

@[simp] theorem arrive_mask [Off P .cts] [Off P .bumps] [Off P .evts] (c : Nat) (s : State) : mask P (arrive c s) = mask P s := by
  unfold arrive; simp

@[simp] theorem handOver_mask [Off P .flt] (src : Nat) (unit : Nat) (lvl : FaultLevel) (code : Nat) (act : FaultAct) (detail : Nat) (s : State) : mask P (handOver src unit lvl code act detail s) = mask P s := by
  unfold handOver; simp

@[simp] theorem wantMacro_mask [Off P .tst] (array : Nat) (inst : Nat) (s : State) : mask P (wantMacro array inst s) = mask P s := by
  unfold wantMacro; simp

@[simp] theorem sramUncorr_mask [Off P .free] [Off P .flt] [Off P .tst] (src : Nat) (owner : Nat) (lvl : FaultLevel) (array : Nat) (act : FaultAct) (s : State) : mask P (sramUncorr src owner lvl array act s) = mask P s := by
  unfold sramUncorr; simp

@[simp] theorem endTrainings_mask [Off P .regs] [Off P .lanes] [Off P .ports] (s : State) : mask P (endTrainings s) = mask P s := by
  simp [endTrainings, mask, Off.eq (P := P) (p := .regs), Off.eq (P := P) (p := .lanes), Off.eq (P := P) (p := .ports)]; done

@[simp] theorem enterFault_mask [Off P .regs] [Off P .evts] [Off P .bnd] [Off P .lanes] [Off P .ports] (s : State) : mask P (enterFault s) = mask P s := by
  unfold enterFault; simp

@[simp] theorem blsbPump_mask [Off P .blsb] (s : State) : mask P (blsbPump s) = mask P s := by
  unfold blsbPump; (try dsimp only); (repeat' split) <;> simp

@[simp] theorem blsbSend_mask [Off P .blsb] (owner : BlsbOwner) (kind : Nat) (cell : Nat) (value : Nat) (s : State) : mask P (blsbSend owner kind cell value s) = mask P s := by
  unfold blsbSend; simp

@[simp] theorem laserReport_mask [Off P .regs] [Off P .evts] [Off P .blsb] (v : Nat) (s : State) : mask P (laserReport v s) = mask P s := by
  unfold laserReport; simp

@[simp] theorem ringFrames_mask [Off P .free] [Off P .blsb] [Off P .lanes] (r : BlsbReq) (s : State) : mask P (ringFrames r s) = mask P s := by
  unfold ringFrames; simp

@[simp] theorem blsbAnswer_mask [Off P .free] [Off P .regs] [Off P .evts] [Off P .blsb] [Off P .lanes] (r : BlsbReq) (value : Nat) (s : State) : mask P (blsbAnswer r value s) = mask P s := by
  unfold blsbAnswer; simp

theorem execBlsbFrameRx_mask [Off P .free] [Off P .regs] [Off P .evts] [Off P .blsb] [Off P .lanes] (f : BitVec 64) (s : State) : ∀ z, execBlsbFrameRx f s = .next z → mask P z = mask P s := by
  intro r h; unfold execBlsbFrameRx at h; (try dsimp only at h); (repeat' split at h) <;> cases h <;> simp

theorem execBlsbRequestTimeout_mask [Off P .regs] [Off P .evts] [Off P .blsb] (seq : BitVec 8) (s : State) : ∀ z, execBlsbRequestTimeout seq s = .next z → mask P z = mask P s := by
  intro r h; unfold execBlsbRequestTimeout at h; (try dsimp only at h); (repeat' split at h) <;> cases h <;> simp

theorem execLaserStatusRead_mask [Off P .blsb] (s : State) : ∀ z, execLaserStatusRead s = .next z → mask P z = mask P s := by
  intro r h; unfold execLaserStatusRead at h; (try dsimp only at h); (repeat' split at h) <;> cases h <;> simp

theorem execLaserUnknown_mask [Off P .regs] (s : State) : ∀ z, execLaserUnknown s = .next z → mask P z = mask P s := by
  intro r h; unfold execLaserUnknown at h; (try dsimp only at h); (repeat' split at h) <;> cases h <;> simp

@[simp] theorem updPort_mask [Off P .ports] (p : Nat) (f : Port → Port) (s : State) : mask P (updPort p f s) = mask P s := by
  unfold updPort; simp

@[simp] theorem updLane_mask [Off P .lanes] (l : Nat) (f : Lane → Lane) (s : State) : mask P (updLane l f s) = mask P s := by
  unfold updLane; simp

@[simp] theorem updLn_mask [Off P .ports] (p : Nat) (f : PortLane → PortLane) (s : State) : mask P (updLn p f s) = mask P s := by
  unfold updLn; simp

@[simp] theorem setRole_mask [Off P .lanes] (l : Nat) (r : LaneRole) (s : State) : mask P (setRole l r s) = mask P s := by
  unfold setRole; simp

@[simp] theorem sendCtl_mask [Off P .ports] (p : Nat) (m : LaneMsg) (s : State) : mask P (sendCtl p m s) = mask P s := by
  unfold sendCtl; simp

@[simp] theorem laneRecord_mask [Off P .flt] (l : Nat) (c : RepairCause) (act : FaultAct) (s : State) : mask P (laneRecord l c act s) = mask P s := by
  unfold laneRecord; simp

@[simp] theorem resetDue_mask [Off P .ports] (p : Nat) (cause : Nat) (s : State) : mask P (resetDue p cause s) = mask P s := by
  unfold resetDue; simp

@[simp] theorem failNext_mask [Off P .ports] (l : Nat) (c : RepairCause) (s : State) : mask P (failNext l c s) = mask P s := by
  unfold failNext; simp

@[simp] theorem recallHeater_mask [Off P .blsb] (p : Nat) (sub : Nat) (abort : Bool) (s : State) : mask P (recallHeater p sub abort s) = mask P s := by
  unfold recallHeater; split <;> simp

@[simp] theorem planSwap_mask [Off P .blsb] [Off P .ports] (p : Nat) (lane : Nat) (sub : Nat) (abort : Bool) (c : RepairCause) (s : State) : mask P (planSwap p lane sub abort c s) = mask P s := by
  unfold planSwap; simp

@[simp] theorem failAndReset_mask [Off P .ports] (l : Nat) (c : RepairCause) (s : State) : mask P (failAndReset l c s) = mask P s := by
  unfold failAndReset; simp

@[simp] theorem repair_mask [Off P .evts] [Off P .blsb] [Off P .ports] (l : Nat) (c : RepairCause) (s : State) : mask P (repair l c s) = mask P s := by
  unfold repair; (try dsimp only); (repeat' split) <;> simp

@[simp] theorem requestRepair_mask [Off P .evts] [Off P .blsb] [Off P .ports] (l : Nat) (c : RepairCause) (s : State) : mask P (requestRepair l c s) = mask P s := by
  unfold requestRepair; (try dsimp only); (repeat' split) <;> simp

theorem execLossOfLight_mask [Off P .regs] [Off P .bumps] [Off P .evts] [Off P .blsb] [Off P .lanes] [Off P .ports] (l : LaneId) (s : State) : ∀ z, execLossOfLight l s = .next z → mask P z = mask P s := by
  intro r h; unfold execLossOfLight at h; (try dsimp only at h); (repeat' split at h) <;> cases h <;> simp

theorem execCdrUnlock_mask [Off P .evts] [Off P .blsb] [Off P .lanes] [Off P .ports] (l : CdrLoss) (s : State) : ∀ z, execCdrUnlock l s = .next z → mask P z = mask P s := by
  intro r h; unfold execCdrUnlock at h; (try dsimp only at h); (repeat' split at h) <;> cases h <;> simp

theorem execLaneErrWindow_mask [Off P .evts] [Off P .blsb] [Off P .ports] (l : LaneId) (s : State) : ∀ z, execLaneErrWindow l s = .next z → mask P z = mask P s := by
  intro r h; unfold execLaneErrWindow at h; (try dsimp only at h); (repeat' split at h) <;> cases h <;> simp

@[simp] theorem endCal_mask [Off P .evts] [Off P .lanes] [Off P .ports] (p : Nat) (w : SwapPlan) (s : State) : mask P (endCal p w s) = mask P s := by
  unfold endCal; simp

@[simp] theorem swapNow_mask [Off P .regs] [Off P .bumps] [Off P .evts] [Off P .flt] [Off P .lanes] [Off P .ports] (p : Nat) (w : SwapPlan) (s : State) : mask P (swapNow p w s) = mask P s := by
  unfold swapNow; simp

theorem execLaneSwapEffective_mask [Off P .regs] [Off P .bumps] [Off P .evts] [Off P .flt] [Off P .lanes] [Off P .ports] (p : PortId) (s : State) : ∀ z, execLaneSwapEffective p s = .next z → mask P z = mask P s := by
  intro r h; unfold execLaneSwapEffective at h; (try dsimp only at h); (repeat' split at h) <;> cases h <;> simp

theorem takeCtl_mask [Off P .ports] (p : Nat) (k : LKind) (s : State) : ∀ a z, takeCtl p k s = some (a, z) → mask P z = mask P s := by
  intro a r h; unfold takeCtl at h; (try dsimp only at h); (repeat' split at h) <;> cases h <;> simp

@[simp] theorem hatUncorr_mask [Off P .free] [Off P .evts] [Off P .flt] [Off P .ports] [Off P .tst] (p : Nat) (ctl : Bool) (s : State) : mask P (hatUncorr p ctl s) = mask P s := by
  unfold hatUncorr; split <;> simp

@[simp] theorem onCtl_mask [Off P .free] [Off P .evts] [Off P .flt] [Off P .ports] [Off P .tst] (p : Nat) (k : LKind) (bad : Bool) (f : LaneMsg → State → State) (s : State) (h_f : ∀ v0 v1, mask P (f v0 v1) = mask P v1) : mask P (onCtl p k bad f s) = mask P s := by
  unfold onCtl
  split
  · next m t h => have := takeCtl_mask (P := P) _ _ _ _ _ h; split <;> simp [h_f, this]
  · rfl

@[simp] theorem acceptSwap_mask [Off P .free] [Off P .blsb] [Off P .ports] (p : Nat) (m : LaneMsg) (s : State) : mask P (acceptSwap p m s) = mask P s := by
  unfold acceptSwap; (try dsimp only); (repeat' split) <;> simp

theorem execSwapReq_mask [Off P .free] [Off P .evts] [Off P .flt] [Off P .blsb] [Off P .ports] [Off P .tst] (p : PortId) (bad : Bool) (s : State) : ∀ z, execSwapReq p bad s = .next z → mask P z = mask P s := by
  intro r h; unfold execSwapReq at h; cases h; simp

theorem execSwapAck_mask [Off P .free] [Off P .evts] [Off P .flt] [Off P .ports] [Off P .tst] (p : PortId) (bad : Bool) (s : State) : ∀ z, execSwapAck p bad s = .next z → mask P z = mask P s := by
  intro r h; unfold execSwapAck at h; cases h; simp

@[simp] theorem gapStep_mask [Off P .free] [Off P .regs] [Off P .bumps] [Off P .blsb] [Off P .lanes] (l : Nat) (bias : Nat) (heater : Option Nat) (s : State) : mask P (gapStep l bias heater s) = mask P s := by
  unfold gapStep; (try dsimp only); (repeat' split) <;> simp

theorem execGapCalStep_mask [Off P .free] [Off P .regs] [Off P .bumps] [Off P .evts] [Off P .blsb] [Off P .lanes] [Off P .ports] (l : LaneId) (bias : BitVec 12) (heater : Option (BitVec 16)) (atEnd : Bool) (s : State) : ∀ z, execGapCalStep l bias heater atEnd s = .next z → mask P z = mask P s := by
  intro r h; unfold execGapCalStep at h; (try dsimp only at h); (repeat' split at h) <;> cases h <;> simp

@[simp] theorem becomeDue_mask [Off P .evts] [Off P .lanes] (l : Nat) (r : DueReason) (s : State) : mask P (becomeDue l r s) = mask P s := by
  unfold becomeDue; simp

@[simp] theorem dueFallback_mask [Off P .evts] [Off P .lanes] (p : Nat) (s : State) : mask P (dueFallback p s) = mask P s := by
  unfold dueFallback; simp

theorem execDcalDue_mask [Off P .regs] [Off P .evts] [Off P .lanes] (l : LaneId) (temp : BitVec 16) (s : State) : ∀ z, execDcalDue l temp s = .next z → mask P z = mask P s := by
  intro r h; unfold execDcalDue at h; (try dsimp only at h); (repeat' split at h) <;> cases h <;> simp

@[simp] theorem requestDcal_mask [Off P .evts] [Off P .lanes] (l : Nat) (s : State) : mask P (requestDcal l s) = mask P s := by
  unfold requestDcal; simp

@[simp] theorem startDcal_mask [Off P .ports] (l : Nat) (sub : Nat) (s : State) : mask P (startDcal l sub s) = mask P s := by
  unfold startDcal; simp

theorem execDcalStart_mask [Off P .ports] (s : State) : ∀ z, execDcalStart s = .next z → mask P z = mask P s := by
  intro r h; unfold execDcalStart at h; (try dsimp only at h); (repeat' split at h) <;> cases h <;> simp

@[simp] theorem acceptCalOut_mask [Off P .ports] (p : Nat) (m : LaneMsg) (s : State) : mask P (acceptCalOut p m s) = mask P s := by
  unfold acceptCalOut; (try dsimp only); (repeat' split) <;> simp

theorem execCalOutReq_mask [Off P .free] [Off P .evts] [Off P .flt] [Off P .ports] [Off P .tst] (p : PortId) (bad : Bool) (s : State) : ∀ z, execCalOutReq p bad s = .next z → mask P z = mask P s := by
  intro r h; unfold execCalOutReq at h; cases h; simp

@[simp] theorem ackDcal_mask [Off P .ports] (p : Nat) (s : State) : mask P (ackDcal p s) = mask P s := by
  unfold ackDcal; simp

theorem execCalOutAck_mask [Off P .free] [Off P .evts] [Off P .flt] [Off P .ports] [Off P .tst] (p : PortId) (bad : Bool) (s : State) : ∀ z, execCalOutAck p bad s = .next z → mask P z = mask P s := by
  intro r h; unfold execCalOutAck at h; cases h; simp

theorem execCalInAck_mask [Off P .free] [Off P .evts] [Off P .flt] [Off P .ports] [Off P .tst] (p : PortId) (bad : Bool) (s : State) : ∀ z, execCalInAck p bad s = .next z → mask P z = mask P s := by
  intro r h; unfold execCalInAck at h; cases h; simp

theorem execCalRefuse_mask [Off P .free] [Off P .evts] [Off P .flt] [Off P .ports] [Off P .tst] (p : PortId) (bad : Bool) (s : State) : ∀ z, execCalRefuse p bad s = .next z → mask P z = mask P s := by
  intro r h; unfold execCalRefuse at h; cases h; simp

theorem execDcalRetry_mask [Off P .ports] (p : PortId) (s : State) : ∀ z, execDcalRetry p s = .next z → mask P z = mask P s := by
  intro r h; unfold execDcalRetry at h; (try dsimp only at h); (repeat' split at h) <;> cases h <;> simp

@[simp] theorem calOutNow_mask [Off P .evts] [Off P .lanes] [Off P .ports] (p : Nat) (d : Dcal) (s : State) : mask P (calOutNow p d s) = mask P s := by
  unfold calOutNow; simp

@[simp] theorem calInNow_mask [Off P .regs] [Off P .bumps] [Off P .evts] [Off P .lanes] [Off P .ports] (p : Nat) (d : Dcal) (s : State) : mask P (calInNow p d s) = mask P s := by
  unfold calInNow; simp

theorem execCalHandoverEffective_mask [Off P .regs] [Off P .bumps] [Off P .evts] [Off P .lanes] [Off P .ports] (p : PortId) (s : State) : ∀ z, execCalHandoverEffective p s = .next z → mask P z = mask P s := by
  intro r h; unfold execCalHandoverEffective at h; (try dsimp only at h); (repeat' split at h) <;> cases h <;> simp

@[simp] theorem calPhaseEnd_mask [Off P .ports] (p : Nat) (done : BitVec 5) (s : State) : mask P (calPhaseEnd p done s) = mask P s := by
  unfold calPhaseEnd; simp

theorem execDcalConverged_mask [Off P .lanes] [Off P .ports] (p : PortId) (heater : BitVec 16) (rbias : BitVec 12) (s : State) : ∀ z, execDcalConverged p heater rbias s = .next z → mask P z = mask P s := by
  intro r h; unfold execDcalConverged at h; (try dsimp only at h); (repeat' split at h) <;> cases h <;> simp

theorem execCalInReq_mask [Off P .free] [Off P .evts] [Off P .flt] [Off P .ports] [Off P .tst] (p : PortId) (bad : Bool) (s : State) : ∀ z, execCalInReq p bad s = .next z → mask P z = mask P s := by
  intro r h; unfold execCalInReq at h; cases h; simp

theorem execDcalTimeout_mask [Off P .evts] [Off P .flt] [Off P .lanes] [Off P .ports] (p : PortId) (s : State) : ∀ z, execDcalTimeout p s = .next z → mask P z = mask P s := by
  intro r h; unfold execDcalTimeout at h; (try dsimp only at h); (repeat' split at h) <;> cases h <;> simp

theorem execCalOverdue_mask [Off P .evts] [Off P .lanes] (l : LaneId) (s : State) : ∀ z, execCalOverdue l s = .next z → mask P z = mask P s := by
  intro r h; unfold execCalOverdue at h; (try dsimp only at h); (repeat' split at h) <;> cases h <;> simp

@[simp] theorem abortDcal_mask [Off P .evts] [Off P .lanes] [Off P .ports] (p : Nat) (s : State) : mask P (abortDcal p s) = mask P s := by
  unfold abortDcal; split <;> simp

@[simp] theorem toTime_mask [Off P .tb] (st : TimeState) (s : State) : mask P (toTime st s) = mask P s := by
  unfold toTime; simp

@[simp] theorem servo_mask [Off P .tb] (e : Int) (s : State) : mask P (servo e s) = mask P s := by
  unfold servo; simp

@[simp] theorem servoLate_mask [Off P .tb] (s : State) : mask P (servoLate s) = mask P s := by
  unfold servoLate; split <;> simp

@[simp] theorem servoTick_mask [Off P .tb] (s : State) : mask P (servoTick s) = mask P s := by
  unfold servoTick; split <;> simp

@[simp] theorem noteMarker_mask [Off P .regs] [Off P .tb] (m : MarkerTime) (e : Int) (s : State) : mask P (noteMarker m e s) = mask P s := by
  unfold noteMarker; simp

@[simp] theorem acquireStep_mask [Off P .cts] [Off P .tb] [Off P .ports] (p : Nat) (m : MarkerTime) (s : State) : mask P (acquireStep p m s) = mask P s := by
  simp [acquireStep, mask, Off.eq (P := P) (p := .cts), Off.eq (P := P) (p := .tb), Off.eq (P := P) (p := .ports)]; done

@[simp] theorem upstreamMarker_mask [Off P .cts] [Off P .regs] [Off P .evts] [Off P .tb] [Off P .ports] (p : Nat) (m : MarkerTime) (s0 : State) : mask P (upstreamMarker p m s0) = mask P s0 := by
  unfold upstreamMarker; split <;> simp

@[simp] theorem notePeer_mask [Off P .regs] [Off P .tb] (p : Nat) (m : MarkerTime) (s : State) : mask P (notePeer p m s) = mask P s := by
  unfold notePeer; simp

@[simp] theorem markerTime_mask [Off P .cts] [Off P .regs] [Off P .evts] [Off P .tb] [Off P .ports] (p : Nat) (m : MarkerTime) (s : State) : mask P (markerTime p m s) = mask P s := by
  unfold markerTime; simp

@[simp] theorem markerLost_mask [Off P .evts] [Off P .tb] (s : State) : mask P (markerLost s) = mask P s := by
  unfold markerLost; (try dsimp only); (repeat' split) <;> simp

theorem execMarkerLost_mask [Off P .cts] [Off P .bumps] [Off P .evts] [Off P .tb] (s : State) : ∀ z, execMarkerLost s = .next z → mask P z = mask P s := by
  intro r h; unfold execMarkerLost at h; (try dsimp only at h); (repeat' split at h) <;> cases h <;> simp

theorem execHoldoverExpired_mask [Off P .evts] [Off P .tb] (s : State) : ∀ z, execHoldoverExpired s = .next z → mask P z = mask P s := by
  intro r h; unfold execHoldoverExpired at h; (try dsimp only at h); (repeat' split at h) <;> cases h <;> simp

@[simp] theorem takeRole_mask [Off P .tb] (s : State) : mask P (takeRole s) = mask P s := by
  unfold takeRole; simp

theorem execTbCtsLoRead_mask [Off P .regs] [Off P .bnd] (s : State) : ∀ z, execTbCtsLoRead s = .next z → mask P z = mask P s := by
  intro r h; unfold execTbCtsLoRead at h; (try dsimp only at h); (repeat' split at h) <;> cases h <;> simp

@[simp] theorem updTx_mask [Off P .ports] (p : Nat) (f : PortTx → PortTx) (s : State) : mask P (updTx p f s) = mask P s := by
  unfold updTx; simp

@[simp] theorem updRx_mask [Off P .ports] (p : Nat) (f : PortRx → PortRx) (s : State) : mask P (updRx p f s) = mask P s := by
  unfold updRx; simp

@[simp] theorem updCr_mask [Off P .ports] (p : Nat) (f : PortCredit → PortCredit) (s : State) : mask P (updCr p f s) = mask P s := by
  unfold updCr; simp

@[simp] theorem applyPool_mask [Off P .regs] [Off P .evts] [Off P .ports] (p : Nat) (s : State) : mask P (applyPool p s) = mask P s := by
  unfold applyPool; simp

@[simp] theorem warmLink_mask [Off P .ports] (p : Nat) (s : State) : mask P (warmLink p s) = mask P s := by
  unfold warmLink; simp

@[simp] theorem coldLink_mask [Off P .regs] [Off P .evts] [Off P .ports] (p : Nat) (s : State) : mask P (coldLink p s) = mask P s := by
  unfold coldLink; simp

@[simp] theorem enterTraining_mask [Off P .blsb] [Off P .lanes] (p : Nat) (cold : Bool) (s : State) : mask P (enterTraining p cold s) = mask P s := by
  unfold enterTraining; simp

@[simp] theorem settleRepairs_mask [Off P .flt] [Off P .lanes] [Off P .ports] (p : Nat) (s : State) : mask P (settleRepairs p s) = mask P s := by
  unfold settleRepairs; (try dsimp only); (repeat' split) <;> simp

@[simp] theorem failLanes_mask [Off P .flt] [Off P .lanes] [Off P .ports] (p : Nat) (s : State) : mask P (failLanes p s) = mask P s := by
  unfold failLanes; simp

@[simp] theorem linkDown_mask [Off P .evts] (p : Nat) (s : State) : mask P (linkDown p s) = mask P s := by
  unfold linkDown; simp

@[simp] theorem beginTraining_mask [Off P .regs] [Off P .bumps] [Off P .evts] [Off P .flt] [Off P .blsb] [Off P .lanes] [Off P .ports] (p : Nat) (cold : Bool) (s0 : State) : mask P (beginTraining p cold s0) = mask P s0 := by
  unfold beginTraining; simp

@[simp] theorem linkResetRecord_mask [Off P .flt] (p : Nat) (cause : Nat) (s : State) : mask P (linkResetRecord p cause s) = mask P s := by
  unfold linkResetRecord; simp

theorem execLinkReset_mask [Off P .regs] [Off P .bumps] [Off P .evts] [Off P .flt] [Off P .blsb] [Off P .lanes] [Off P .ports] (p : PortId) (s : State) : ∀ z, execLinkReset p s = .next z → mask P z = mask P s := by
  intro z h; unfold execLinkReset at h
  split at h
  · (repeat' split at h) <;> simp only [Outcome.next.injEq] at h <;> subst h
    · exact (beginTraining_mask (P := P) ..).trans (linkResetRecord_mask (P := P) ..)
    · rfl
  · simp only [Outcome.next.injEq] at h; subst h; rfl

@[simp] theorem failTraining_mask [Off P .regs] [Off P .evts] [Off P .flt] [Off P .lanes] [Off P .ports] (p : Nat) (ph : TPhase) (s : State) : mask P (failTraining p ph s) = mask P s := by
  unfold failTraining; split <;> simp

@[simp] theorem abortTraining_mask [Off P .regs] [Off P .lanes] [Off P .ports] (p : Nat) (s : State) : mask P (abortTraining p s) = mask P s := by
  unfold abortTraining; split <;> simp

@[simp] theorem takeDown_mask [Off P .regs] [Off P .evts] [Off P .flt] [Off P .lanes] [Off P .ports] (p : Nat) (s : State) : mask P (takeDown p s) = mask P s := by
  unfold takeDown; simp

@[simp] theorem storeDelay_mask [Off P .regs] [Off P .evts] [Off P .ports] (p : Nat) (t : Training) (s : State) : mask P (storeDelay p t s) = mask P s := by
  unfold storeDelay; simp

@[simp] theorem storeSkews_mask [Off P .regs] [Off P .evts] (p : Nat) (skews : List (BitVec 8)) (s : State) : mask P (storeSkews p skews s) = mask P s := by
  unfold storeSkews; simp

@[simp] theorem dropLanes_mask [Off P .evts] [Off P .lanes] (p : Nat) (gone : BitVec 5) (s : State) : mask P (dropLanes p gone s) = mask P s := by
  unfold dropLanes; simp

@[simp] theorem lanePassed_mask [Off P .free] [Off P .regs] [Off P .lanes] (ph : TPhase) (l : Nat) (s : State) : mask P (lanePassed ph l s) = mask P s := by
  unfold lanePassed; split <;> simp

@[simp] theorem nextPhase_mask [Off P .free] [Off P .regs] [Off P .evts] [Off P .lanes] [Off P .ports] (p : Nat) (t : Training) (lanes : BitVec 5) (s : State) : mask P (nextPhase p t lanes s) = mask P s := by
  unfold nextPhase; simp

@[simp] theorem endPhase_mask [Off P .free] [Off P .regs] [Off P .evts] [Off P .flt] [Off P .lanes] [Off P .ports] (p : Nat) (t : Training) (left : BitVec 5) (skews : List (BitVec 8)) (s : State) : mask P (endPhase p t left skews s) = mask P s := by
  unfold endPhase; split <;> simp

@[simp] theorem wakePhaseEnd_mask [Off P .ports] (p : Nat) (done : BitVec 5) (s : State) : mask P (wakePhaseEnd p done s) = mask P s := by
  unfold wakePhaseEnd; split <;> simp

theorem execTrainingPhaseEnd_mask [Off P .free] [Off P .regs] [Off P .evts] [Off P .flt] [Off P .lanes] [Off P .ports] (p : PortId) (done : BitVec 5) (skews : List (BitVec 8)) (s : State) : ∀ z, execTrainingPhaseEnd p done skews s = .next z → mask P z = mask P s := by
  intro r h; unfold execTrainingPhaseEnd at h; (try dsimp only at h); (repeat' split at h) <;> cases h <;> simp

@[simp] theorem trainMsg_mask [Off P .ports] (p : Nat) (m : TrainMsg) (ref : Nat) (s : State) : mask P (trainMsg p m ref s) = mask P s := by
  unfold trainMsg; simp

@[simp] theorem wakeMsg_mask [Off P .ports] (p : Nat) (m : TrainMsg) (ref : Nat) (s : State) : mask P (wakeMsg p m ref s) = mask P s := by
  unfold wakeMsg; simp

@[simp] theorem countCold_mask [Off P .regs] [Off P .bumps] [Off P .lanes] (p : Nat) (i : Nat) (s : State) : mask P (countCold p i s) = mask P s := by
  unfold countCold; simp

@[simp] theorem replayAtUp_mask [Off P .regs] [Off P .bumps] [Off P .evts] [Off P .ports] (p : Nat) (s : State) : mask P (replayAtUp p s) = mask P s := by
  unfold replayAtUp; simp

@[simp] theorem enterSel_mask [Off P .regs] [Off P .bumps] [Off P .evts] [Off P .ports] (p : Nat) (s : State) : mask P (enterSel p s) = mask P s := by
  unfold enterSel; simp

@[simp] theorem selAtUp_mask [Off P .regs] [Off P .bumps] [Off P .evts] [Off P .ports] (p : Nat) (s : State) : mask P (selAtUp p s) = mask P s := by
  unfold selAtUp; simp

@[simp] theorem bringUp_mask [Off P .regs] [Off P .bumps] [Off P .evts] [Off P .lanes] [Off P .ports] (p : Nat) (t : Training) (s : State) : mask P (bringUp p t s) = mask P s := by
  unfold bringUp
  dsimp only
  simp only [replayAtUp_mask, selAtUp_mask, updPort_mask, setF_mask]
  split
  · rw [foldl_mask (P := P) (h := by intro t i; simp)]
    exact foldl_mask (P := P) (h := by intro t i; split <;> simp) ..
  · exact foldl_mask (P := P) (h := by intro t i; split <;> simp) ..

theorem execLinkUp_mask [Off P .regs] [Off P .bumps] [Off P .evts] [Off P .lanes] [Off P .ports] (p : PortId) (s : State) : ∀ z, execLinkUp p s = .next z → mask P z = mask P s := by
  intro r h; unfold execLinkUp at h; (try dsimp only at h); (repeat' split at h) <;> cases h <;> simp

@[simp] theorem coldDue_mask [Off P .ports] (p : Nat) (afterWarm : Bool) (s : State) : mask P (coldDue p afterWarm s) = mask P s := by
  unfold coldDue; simp

theorem execNoFlitTimeout_mask [Off P .ports] (p : PortId) (s : State) : ∀ z, execNoFlitTimeout p s = .next z → mask P z = mask P s := by
  intro r h; unfold execNoFlitTimeout at h; (try dsimp only at h); (repeat' split at h) <;> cases h <;> simp

theorem execPeerTrainingJoin_mask [Off P .ports] (p : PortId) (light : Bool) (s : State) : ∀ z, execPeerTrainingJoin p light s = .next z → mask P z = mask P s := by
  intro r h; unfold execPeerTrainingJoin at h; (try dsimp only at h); (repeat' split at h) <;> cases h <;> simp

theorem execPrtRetrain_mask [Off P .bnd] [Off P .ports] (p : PortId) (s : State) : ∀ z, execPrtRetrain p s = .next z → mask P z = mask P s := by
  intro r h; unfold execPrtRetrain at h; cases h; simp

theorem execPrtCold_mask [Off P .bnd] [Off P .ports] (p : PortId) (s : State) : ∀ z, execPrtCold p s = .next z → mask P z = mask P s := by
  intro r h; unfold execPrtCold at h; cases h; simp

theorem execLnDcalReq_mask [Off P .evts] [Off P .bnd] [Off P .lanes] (l : LaneId) (s : State) : ∀ z, execLnDcalReq l s = .next z → mask P z = mask P s := by
  intro r h; unfold execLnDcalReq at h; cases h; simp

@[simp] theorem clearLaneCounters_mask [Off P .regs] (l : Nat) (s : State) : mask P (clearLaneCounters l s) = mask P s := by
  unfold clearLaneCounters; simp

theorem execLnCntClr_mask [Off P .regs] [Off P .bnd] (l : LaneId) (s : State) : ∀ z, execLnCntClr l s = .next z → mask P z = mask P s := by
  intro r h; unfold execLnCntClr at h; cases h; simp

theorem execLnCtsLoRead_mask [Off P .regs] [Off P .bnd] (l : LaneId) (dcal : Bool) (s : State) : ∀ z, execLnCtsLoRead l dcal s = .next z → mask P z = mask P s := by
  intro r h; unfold execLnCtsLoRead at h; (try dsimp only at h); (repeat' split at h) <;> cases h <;> simp

@[simp] theorem setOut_mask [Off P .lanes] (l : Nat) (o : LaneOut) (s : State) : mask P (setOut l o s) = mask P s := by
  unfold setOut; simp

@[simp] theorem sendWords_mask [Off P .lanes] (p : Nat) (i : Nat) (t : Nat) (ws : List (Bool × Nat)) (s : State) : mask P (sendWords p i t ws s) = mask P s := by
  unfold sendWords; simp

@[simp] theorem sendStriped_mask [Off P .lanes] (p : Nat) (k : Nat) (ls : List Nat) (marker : Bool) (raw : List Byte) (s : State) : mask P (sendStriped p k ls marker raw s) = mask P s := by
  unfold sendStriped; simp

@[simp] theorem sendTwin_mask [Off P .lanes] (p : Nat) (k : Nat) (ls : List Nat) (i : Nat) (marker : Bool) (raw : List Byte) (s : State) : mask P (sendTwin p k ls i marker raw s) = mask P s := by
  unfold sendTwin; simp

@[simp] theorem sendFrame_mask [Off P .free] [Off P .lanes] (p : Nat) (k : Nat) (phase : Nat) (i : Nat) (s : State) : mask P (sendFrame p k phase i s) = mask P s := by
  unfold sendFrame; simp

@[simp] theorem sendPhase_mask [Off P .free] [Off P .lanes] (p : Nat) (k : Nat) (ph : TPhase) (s : State) (i : Nat) : mask P (sendPhase p k ph s i) = mask P s := by
  unfold sendPhase; split <;> simp

@[simp] theorem darken_mask [Off P .lanes] (p : Nat) (ls : List Nat) (s : State) : mask P (darken p ls s) = mask P s := by
  unfold darken; simp

@[simp] theorem driveTraining_mask [Off P .free] [Off P .lanes] (p : Nat) (k : Nat) (t : Training) (s : State) : mask P (driveTraining p k t s) = mask P s := by
  unfold driveTraining; (try dsimp only); (repeat' split) <;> simp

@[simp] theorem driveUp_mask [Off P .free] [Off P .lanes] (p : Nat) (k : Nat) (s : State) : mask P (driveUp p k s) = mask P s := by
  unfold driveUp; (try dsimp only); (repeat' split) <;> simp

@[simp] theorem driveWake_mask [Off P .free] [Off P .lanes] (p : Nat) (k : Nat) (w : Wake) (s : State) : mask P (driveWake p k w s) = mask P s := by
  unfold driveWake; (try dsimp only); (repeat' split) <;> simp

@[simp] theorem creditReturn_mask [Off P .evts] [Off P .ports] (p : Nat) (cpool : Nat) (cred : Nat) (s : State) : mask P (creditReturn p cpool cred s) = mask P s := by
  unfold creditReturn; simp

@[simp] theorem freeCells_mask [Off P .ports] (p : Nat) (k : Nat) (n : Nat) (s : State) : mask P (freeCells p k n s) = mask P s := by
  unfold freeCells; simp

@[simp] theorem updPkt_mask [Off P .ports] (p : Nat) (id : Nat) (f : CupPkt → CupPkt) (s : State) : mask P (updPkt p id f s) = mask P s := by
  unfold updPkt; simp

@[simp] theorem freeOf_mask [Off P .ports] (p : Nat) (c : CupPkt) (n : Nat) (s : State) : mask P (freeOf p c n s) = mask P s := by
  unfold freeOf; simp

@[simp] theorem freePkt_mask [Off P .ports] (p : Nat) (c : CupPkt) (n : Nat) (s : State) : mask P (freePkt p c n s) = mask P s := by
  unfold freePkt; simp

@[simp] theorem dropPkt_mask [Off P .ports] (p : Nat) (c : CupPkt) (s : State) : mask P (dropPkt p c s) = mask P s := by
  unfold dropPkt; simp

@[simp] theorem dropNumbered_mask [Off P .ports] (p : Nat) (id : Nat) (s : State) : mask P (dropNumbered p id s) = mask P s := by
  unfold dropNumbered; split <;> simp

@[simp] theorem buryDead_mask [Off P .ports] (p : Nat) (id : Nat) (s : State) : mask P (buryDead p id s) = mask P s := by
  unfold buryDead; split <;> simp

@[simp] theorem countLate_mask [Off P .regs] [Off P .bumps] (p : Nat) (late : Bool) (whole : Bool) (h : PktHdr) (s : State) : mask P (countLate p late whole h s) = mask P s := by
  unfold countLate; simp

@[simp] theorem placeSlot_mask [Off P .regs] [Off P .bumps] [Off P .ports] (p : Nat) (late : Bool) (bad : Bool) (when_ : Nat) (x : Slot) (s : State) : mask P (placeSlot p late bad when_ x s) = mask P s := by
  unfold placeSlot placeSlot.newPkt
  dsimp only
  (repeat' split) <;> simp

@[simp] theorem placeSlot.newPkt_mask [Off P .regs] [Off P .bumps] [Off P .ports] (p : Nat) (late : Bool) (bad : Bool) (when_ : Nat) (x : Slot) (s : State) : mask P (placeSlot.newPkt p late bad when_ x s) = mask P s := by
  unfold placeSlot.newPkt; simp

@[simp] theorem buildLedger_mask [Off P .ports] (p : Nat) (s : State) : mask P (buildLedger p s) = mask P s := by
  unfold buildLedger; simp

@[simp] theorem overrunLedger_mask [Off P .ports] (p : Nat) (s : State) : mask P (overrunLedger p s) = mask P s := by
  unfold overrunLedger; simp

@[simp] theorem correct_mask [Off P .regs] [Off P .bumps] [Off P .evts] [Off P .ports] (p : Nat) (l : Ledger) (window : Nat) (latch : Tab Nat) (s : State) : mask P (correct p l window latch s) = mask P s := by
  unfold correct; (try dsimp only); (repeat' split) <;> simp

@[simp] theorem ledgerCredit_mask [Off P .regs] [Off P .bumps] [Off P .evts] [Off P .ports] (p : Nat) (l : Ledger) (s : State) : mask P (ledgerCredit p l s) = mask P s := by
  unfold ledgerCredit; (try dsimp only); (repeat' split) <;> simp

@[simp] theorem latchReturns_mask [Off P .ports] (p : Nat) (peerTick : Nat) (s : State) : mask P (latchReturns p peerTick s) = mask P s := by
  unfold latchReturns; simp

@[simp] theorem countFixed_mask [Off P .regs] [Off P .bumps] [Off P .lanes] (p : Nat) (k : Nat) (fixed : List Nat) (s : State) : mask P (countFixed p k fixed s) = mask P s := by
  unfold countFixed
  dsimp only
  rw [foldl_mask (P := P) (h := by intro t b; split <;> simp)]
  split <;> simp

@[simp] theorem countPilots_mask [Off P .regs] [Off P .bumps] (p : Nat) (raw : List Byte) (s : State) : mask P (countPilots p raw s) = mask P s := by
  unfold countPilots
  exact foldl_mask (P := P) (h := by intro t i; dsimp only; split <;> simp) ..

@[simp] theorem countSpare_mask [Off P .regs] [Off P .bumps] (p : Nat) (raw : List Byte) (s : State) : mask P (countSpare p raw s) = mask P s := by
  unfold countSpare; split <;> simp

@[simp] theorem nakForDiscard_mask [Off P .ports] (p : Nat) (k : Nat) (s : State) : mask P (nakForDiscard p k s) = mask P s := by
  unfold nakForDiscard; simp

@[simp] theorem noteAccepted_mask [Off P .regs] [Off P .bumps] [Off P .ports] (p : Nat) (n : Nat) (s : State) : mask P (noteAccepted p n s) = mask P s := by
  unfold noteAccepted; simp

@[simp] theorem noteDuplicate_mask [Off P .regs] [Off P .bumps] [Off P .ports] (p : Nat) (s : State) : mask P (noteDuplicate p s) = mask P s := by
  unfold noteDuplicate; simp

@[simp] theorem releaseHat_mask [Off P .evts] [Off P .ports] (p : Nat) (x : Slot) (s : State) : mask P (releaseHat p x s) = mask P s := by
  unfold releaseHat; simp

@[simp] theorem releaseFlit_mask [Off P .regs] [Off P .bumps] [Off P .evts] [Off P .ports] (p : Nat) (k : Nat) (hslot : Nat) (slots : List Slot) (late : Bool) (s : State) : mask P (releaseFlit p k hslot slots late s) = mask P s := by
  unfold releaseFlit; simp

@[simp] theorem acceptHeld_mask [Off P .regs] [Off P .bumps] [Off P .evts] [Off P .ports] (a0 : Nat) (a1 : Nat) (a2 : State) : mask P (acceptHeld a0 a1 a2) = mask P a2 := by
  induction a0 generalizing a1 a2 <;> first | rfl | (simp [acceptHeld, *]; done) | (unfold acceptHeld; (try dsimp only); (repeat' split) <;> simp [*])

@[simp] theorem nakNextGap_mask [Off P .ports] (p : Nat) (s : State) : mask P (nakNextGap p s) = mask P s := by
  unfold nakNextGap; simp

@[simp] theorem handleData_mask [Off P .regs] [Off P .bumps] [Off P .evts] [Off P .ports] (p : Nat) (k : Nat) (f : Flit) (s : State) : mask P (handleData p k f s) = mask P s := by
  unfold handleData; (try dsimp only); (repeat' split) <;> simp

@[simp] theorem startReplay_mask [Off P .regs] [Off P .bumps] [Off P .evts] [Off P .ports] (p : Nat) (n : Seq) (counts : Bool) (s : State) : mask P (startReplay p n counts s) = mask P s := by
  unfold startReplay; simp

@[simp] theorem nakReplay_mask [Off P .regs] [Off P .bumps] [Off P .evts] [Off P .ports] (p : Nat) (n : Seq) (old : Option Nat) (s : State) : mask P (nakReplay p n old s) = mask P s := by
  unfold nakReplay; simp

@[simp] theorem queueSel_mask [Off P .ports] (p : Nat) (n : Seq) (s : State) : mask P (queueSel p n s) = mask P s := by
  unfold queueSel; simp

@[simp] theorem releaseAcked_mask [Off P .ports] (p : Nat) (a : Seq) (s : State) : mask P (releaseAcked p a s) = mask P s := by
  unfold releaseAcked; simp

@[simp] theorem ackFields_mask [Off P .regs] [Off P .bumps] [Off P .evts] [Off P .ports] (p : Nat) (h : FlitHdr) (s : State) : mask P (ackFields p h s) = mask P s := by
  unfold ackFields; simp

theorem execAckTimerExpiry_mask [Off P .ports] (p : PortId) (s : State) : ∀ z, execAckTimerExpiry p s = .next z → mask P z = mask P s := by
  intro r h; unfold execAckTimerExpiry at h; (try dsimp only at h); (repeat' split at h) <;> cases h <;> simp

theorem execDarkEntry_mask [Off P .ports] (p : PortId) (s : State) : ∀ z, execDarkEntry p s = .next z → mask P z = mask P s := by
  intro r h; unfold execDarkEntry at h; (try dsimp only at h); (repeat' split at h) <;> cases h <;> simp

@[simp] theorem expiry_mask [Off P .regs] [Off P .bumps] [Off P .evts] (p : Nat) (s : State) : mask P (expiry p s) = mask P s := by
  unfold expiry; simp

theorem execReplayTimeout_mask [Off P .regs] [Off P .bumps] [Off P .evts] [Off P .ports] (p : PortId) (s : State) : ∀ z, execReplayTimeout p s = .next z → mask P z = mask P s := by
  intro r h; unfold execReplayTimeout at h; (try dsimp only at h); (repeat' split at h) <;> cases h <;> simp

theorem execSelEnter_mask [Off P .cts] [Off P .bumps] [Off P .evts] [Off P .ports] (p : PortId) (s : State) : ∀ z, execSelEnter p s = .next z → mask P z = mask P s := by
  intro r h; unfold execSelEnter at h; (try dsimp only at h); (repeat' split at h) <;> cases h <;> simp

theorem execSelExit_mask [Off P .ports] (p : PortId) (s : State) : ∀ z, execSelExit p s = .next z → mask P z = mask P s := by
  intro r h; unfold execSelExit at h; (try dsimp only at h); (repeat' split at h) <;> cases h <;> simp

@[simp] theorem noteGood_mask [Off P .regs] [Off P .bumps] [Off P .evts] [Off P .lanes] [Off P .ports] (p : Nat) (s : State) : mask P (noteGood p s) = mask P s := by
  unfold noteGood; simp

@[simp] theorem fill_mask [Off P .ports] (p : Nat) (s : State) : mask P (fill p s) = mask P s := by
  unfold fill; simp

@[simp] theorem cross_mask [Off P .ports] (p : Nat) (n : Nat) (s : State) : mask P (cross p n s) = mask P s := by
  unfold cross; split <;> simp

@[simp] theorem startPacket_mask [Off P .ports] (p : Nat) (k : Nat) (q : Packet) (s : State) : mask P (startPacket p k q s) = mask P s := by
  unfold startPacket; simp

theorem execFlushTimer_mask [Off P .ports] (p : PortId) (s : State) : ∀ z, execFlushTimer p s = .next z → mask P z = mask P s := by
  intro r h; unfold execFlushTimer at h; (try dsimp only at h); (repeat' split at h) <;> cases h <;> simp

@[simp] theorem noteBlock_mask [Off P .evts] [Off P .ports] (p : Nat) (blocked : Bool) (s : State) : mask P (noteBlock p blocked s) = mask P s := by
  unfold noteBlock; simp

@[simp] theorem sentHdr_mask [Off P .regs] [Off P .bumps] [Off P .ports] (p : Nat) (h : FlitHdr) (s : State) : mask P (sentHdr p h s) = mask P s := by
  unfold sentHdr; simp

@[simp] theorem emit_mask [Off P .regs] [Off P .bumps] [Off P .ports] (p : Nat) (h : FlitHdr) (slots : List Slot) (s : State) : mask P (emit p h slots s) = mask P s := by
  unfold emit; simp

@[simp] theorem sendData_mask [Off P .regs] [Off P .bumps] [Off P .ports] (p : Nat) (hats : List Slot) (pks : List TxSlot) (s : State) : mask P (sendData p hats pks s) = mask P s := by
  unfold sendData; simp

@[simp] theorem exhaust_mask [Off P .regs] [Off P .bumps] [Off P .evts] [Off P .flt] [Off P .ports] (p : Nat) (s : State) : mask P (exhaust p s) = mask P s := by
  unfold exhaust; simp

@[simp] theorem sendCopy_mask [Off P .regs] [Off P .bumps] [Off P .evts] [Off P .flt] [Off P .ports] (p : Nat) (e : SbEntry) (sel : Bool) (s : State) : mask P (sendCopy p e sel s) = mask P s := by
  unfold sendCopy; simp

@[simp] theorem endReplay_mask [Off P .ports] (p : Nat) (s : State) : mask P (endReplay p s) = mask P s := by
  unfold endReplay; simp

@[simp] theorem actOnStarts_mask [Off P .ports] (p : Nat) (s : State) : mask P (actOnStarts p s) = mask P s := by
  unfold actOnStarts; simp

@[simp] theorem claimCopy_mask [Off P .ports] (p : Nat) (s0 : State) : mask P (claimCopy p s0).2 = mask P s0 := by
  unfold claimCopy
  dsimp only
  (repeat' split) <;> simp

@[simp] theorem sbUncorr_mask [Off P .free] [Off P .evts] [Off P .flt] [Off P .ports] [Off P .tst] (p : Nat) (s : State) : mask P (sbUncorr p s) = mask P s := by
  unfold sbUncorr; simp

@[simp] theorem countWaits_mask [Off P .evts] [Off P .ports] (p : Nat) (s : State) : mask P (countWaits p s) = mask P s := by
  unfold countWaits
  exact foldl_mask (P := P) (h := by intro t i; split <;> simp) ..

@[simp] theorem sendHats_mask [Off P .regs] [Off P .bumps] [Off P .ports] (p : Nat) (blocked : Bool) (s : State) : mask P (sendHats p blocked s) = mask P s := by
  unfold sendHats; simp

@[simp] theorem sendAsm_mask [Off P .regs] [Off P .bumps] [Off P .evts] [Off P .ports] (p : Nat) (s : State) : mask P (sendAsm p s) = mask P s := by
  unfold sendAsm; simp

@[simp] theorem sendUnscheduled_mask [Off P .regs] [Off P .bumps] [Off P .evts] [Off P .ports] (p : Nat) (s : State) : mask P (sendUnscheduled p s) = mask P s := by
  unfold sendUnscheduled; simp

@[simp] theorem calUncorr_mask [Off P .free] [Off P .flt] [Off P .banks] [Off P .tst] (p : Nat) (s : State) (e : Fin 256) : mask P (calUncorr p s e) = mask P s := by
  unfold calUncorr; simp

@[simp] theorem flowUncorr_mask [Off P .free] [Off P .flt] [Off P .banks] [Off P .tst] (p : Nat) (s : State) (f : Fin 4096) : mask P (flowUncorr p s f) = mask P s := by
  unfold flowUncorr; simp

theorem execCalendarRead_mask [Off P .free] [Off P .flt] [Off P .ports] [Off P .banks] [Off P .tst] (p : PortId) (bad : List (Fin 256)) (badFlows : List (Fin 4096)) (s : State) : ∀ z, execCalendarRead p bad badFlows s = .next z → mask P z = mask P s := by
  intro r h; unfold execCalendarRead at h; (try dsimp only at h); (repeat' split at h) <;> cases h <;> simp

theorem execSchedModeChange_mask [Off P .evts] [Off P .ports] (p : PortId) (s : State) : ∀ z, execSchedModeChange p s = .next z → mask P z = mask P s := by
  intro r h; unfold execSchedModeChange at h; (try dsimp only at h); (repeat' split at h) <;> cases h <;> simp

@[simp] theorem phaseCheck_mask [Off P .evts] [Off P .ports] (p : Nat) (m : Marker) (s : State) : mask P (phaseCheck p m s) = mask P s := by
  unfold phaseCheck; simp

@[simp] theorem startFlow_mask [Off P .ports] (p : Nat) (k : Nat) (f : Nat) (q : Packet) (s : State) : mask P (startFlow p k f q s) = mask P s := by
  unfold startFlow; simp

@[simp] theorem demoteStaged_mask [Off P .regs] [Off P .bumps] [Off P .ports] (p : Nat) (s : State) : mask P (demoteStaged p s) = mask P s := by
  unfold demoteStaged; simp

@[simp] theorem demoteStarted_mask [Off P .regs] [Off P .bumps] [Off P .ports] (p : Nat) (s : State) : mask P (demoteStarted p s) = mask P s := by
  unfold demoteStarted; split <;> simp

theorem execPacketHandoff_mask [Off P .regs] [Off P .bumps] [Off P .ports] (p : PortId) (crossed : Nat) (s0 : State) : ∀ z, execPacketHandoff p crossed s0 = .next z → mask P z = mask P s0 := by
  intro r h; unfold execPacketHandoff at h; (try dsimp only at h); (repeat' split at h) <;> cases h <;> simp

@[simp] theorem sealFlow_mask [Off P .ports] (p : Nat) (pks : List TxSlot) (s : State) : mask P (sealFlow p pks s).2 = mask P s := by
  unfold sealFlow; simp

@[simp] theorem missed_mask [Off P .regs] [Off P .bumps] (p : Nat) (s : State) : mask P (missed p s) = mask P s := by
  unfold missed; simp

@[simp] theorem sendFlow_mask [Off P .regs] [Off P .bumps] [Off P .evts] [Off P .ports] (p : Nat) (pks : List TxSlot) (s : State) : mask P (sendFlow p pks s) = mask P s := by
  unfold sendFlow; simp

@[simp] theorem displace_mask [Off P .regs] [Off P .bumps] [Off P .ports] (p : Nat) (pks : List TxSlot) (s : State) : mask P (displace p pks s) = mask P s := by
  unfold displace; simp

theorem sendDisplaced_mask [Off P .regs] [Off P .bumps] [Off P .evts] [Off P .ports] (p : Nat) (s : State) : ∀ z, sendDisplaced p s = some z → mask P z = mask P s := by
  intro r h; unfold sendDisplaced at h; (try dsimp only at h); (repeat' split at h) <;> cases h <;> simp

@[simp] theorem updPw_mask [Off P .ports] (p : Nat) (f : PortPower → PortPower) (s : State) : mask P (updPw p f s) = mask P s := by
  unfold updPw; simp

@[simp] theorem decideEntry_mask [Off P .ports] (p : Nat) (s : State) : mask P (decideEntry p s) = mask P s := by
  unfold decideEntry; (try dsimp only); (repeat' split) <;> simp

theorem execPowerTask_mask [Off P .cts] [Off P .bumps] [Off P .evts] [Off P .ports] (p : PortId) (s0 : State) : ∀ z, execPowerTask p s0 = .next z → mask P z = mask P s0 := by
  intro r h; unfold execPowerTask at h; (try dsimp only at h); (repeat' split at h) <;> cases h <;> simp

@[simp] theorem powerOverrun_mask [Off P .ports] (p : Nat) (s : State) : mask P (powerOverrun p s) = mask P s := by
  unfold powerOverrun; simp

@[simp] theorem markerPower_mask [Off P .ports] (p : Nat) (pwr : Nat) (s : State) : mask P (markerPower p pwr s) = mask P s := by
  unfold markerPower; simp

@[simp] theorem stirPort_mask [Off P .ports] (p : Nat) (s : State) : mask P (stirPort p s) = mask P s := by
  unfold stirPort; simp

@[simp] theorem parkHeaters_mask [Off P .lanes] (p : Nat) (s : State) : mask P (parkHeaters p s) = mask P s := by
  unfold parkHeaters; simp

@[simp] theorem keepRepair_mask [Off P .ports] (p : Nat) (s : State) : mask P (keepRepair p s) = mask P s := by
  unfold keepRepair; split <;> simp

@[simp] theorem dropRepairs_mask [Off P .flt] [Off P .ports] (p : Nat) (s : State) : mask P (dropRepairs p s) = mask P s := by
  unfold dropRepairs; simp

@[simp] theorem stopTimers_mask [Off P .ports] (p : Nat) (s : State) : mask P (stopTimers p s) = mask P s := by
  unfold stopTimers; simp

@[simp] theorem enterState_mask [Off P .regs] [Off P .bumps] [Off P .flt] [Off P .lanes] [Off P .ports] (p : Nat) (st : PState) (since : Nat) (s : State) : mask P (enterState p st since s) = mask P s := by
  unfold enterState; split <;> simp

theorem execPowerEntry_mask [Off P .regs] [Off P .bumps] [Off P .flt] [Off P .lanes] [Off P .ports] (p : PortId) (s : State) : ∀ z, execPowerEntry p s = .next z → mask P z = mask P s := by
  intro r h; unfold execPowerEntry at h; (try dsimp only at h); (repeat' split at h) <;> cases h <;> simp

theorem execPowerEntryLate_mask [Off P .regs] [Off P .bumps] [Off P .flt] [Off P .lanes] [Off P .ports] (p : PortId) (s : State) : ∀ z, execPowerEntryLate p s = .next z → mask P z = mask P s := by
  intro r h; unfold execPowerEntryLate at h; (try dsimp only at h); (repeat' split at h) <;> cases h <;> simp

@[simp] theorem standingRepair_mask [Off P .evts] [Off P .blsb] [Off P .ports] (p : Nat) (s : State) : mask P (standingRepair p s) = mask P s := by
  unfold standingRepair; simp

@[simp] theorem holdForSwap_mask [Off P .ports] (p : Nat) (s : State) : mask P (holdForSwap p s) = mask P s := by
  unfold holdForSwap; simp

theorem execP1Wake_mask [Off P .regs] [Off P .bumps] [Off P .evts] [Off P .blsb] [Off P .ports] (p : PortId) (s : State) : ∀ z, execP1Wake p s = .next z → mask P z = mask P s := by
  intro r h; unfold execP1Wake at h; (try dsimp only at h); (repeat' split at h) <;> cases h <;> simp

@[simp] theorem forceWake_mask [Off P .ports] (p : Nat) (s : State) : mask P (forceWake p s) = mask P s := by
  unfold forceWake; simp

theorem execForceWake_mask [Off P .bnd] [Off P .ports] (p : PortId) (s : State) : ∀ z, execForceWake p s = .next z → mask P z = mask P s := by
  intro r h; unfold execForceWake at h; cases h; simp

@[simp] theorem startWake_mask [Off P .ports] (p : Nat) (u : Nat) (t : Nat) (own : Bool) (s : State) : mask P (startWake p u t own s) = mask P s := by
  unfold startWake; simp

theorem execWakeStart_mask [Off P .regs] [Off P .bumps] [Off P .ports] (p : PortId) (s : State) : ∀ z, execWakeStart p s = .next z → mask P z = mask P s := by
  intro r h; unfold execWakeStart at h; (try dsimp only at h); (repeat' split at h) <;> cases h <;> simp

theorem execLightWatch_mask [Off P .ports] (p : PortId) (s : State) : ∀ z, execLightWatch p s = .next z → mask P z = mask P s := by
  intro r h; unfold execLightWatch at h; (try dsimp only at h); (repeat' split at h) <;> cases h <;> simp

@[simp] theorem wakeDone_mask [Off P .evts] [Off P .blsb] [Off P .ports] (p : Nat) (s : State) : mask P (wakeDone p s) = mask P s := by
  unfold wakeDone; simp

theorem execWakeComplete_mask [Off P .evts] [Off P .blsb] [Off P .ports] (p : PortId) (s : State) : ∀ z, execWakeComplete p s = .next z → mask P z = mask P s := by
  intro r h; unfold execWakeComplete at h; (try dsimp only at h); (repeat' split at h) <;> cases h <;> simp

theorem execWakeFail_mask [Off P .evts] [Off P .flt] [Off P .ports] (p : PortId) (s : State) : ∀ z, execWakeFail p s = .next z → mask P z = mask P s := by
  intro r h; unfold execWakeFail at h; (try dsimp only at h); (repeat' split at h) <;> cases h <;> simp

@[simp] theorem relayUncorr_mask [Off P .free] [Off P .flt] [Off P .prot] [Off P .tst] (p : Nat) (s : State) : mask P (relayUncorr p s) = mask P s := by
  unfold relayUncorr; simp

@[simp] theorem setRoute_mask [Off P .evts] [Off P .ports] (p : Nat) (st : RState) (site : Nat) (s : State) : mask P (setRoute p st site s) = mask P s := by
  unfold setRoute; simp

@[simp] theorem stage_mask [Off P .regs] [Off P .bumps] [Off P .ports] (p : Nat) (relay : Bool) (q : Packet) (s : State) : mask P (stage p relay q s) = mask P s := by
  unfold stage; simp

@[simp] theorem sendResponse_mask [Off P .regs] [Off P .bumps] [Off P .ports] (q : Packet) (merges : Bool) (s : State) : mask P (sendResponse q merges s) = mask P s := by
  unfold sendResponse; split <;> simp

@[simp] theorem countAnswer_mask [Off P .regs] [Off P .bumps] [Off P .evts] (opc : Nat) (r : Nat) (s : State) : mask P (countAnswer opc r s) = mask P s := by
  unfold countAnswer; simp

@[simp] theorem respond_mask [Off P .regs] [Off P .bumps] [Off P .evts] [Off P .ports] (q : RemoteReq) (r : Nat) (data : List Byte) (s : State) : mask P (respond q r data s) = mask P s := by
  unfold respond; simp

@[simp] theorem updT_mask [Off P .tx] (f : Transact → Transact) (s : State) : mask P (updT f s) = mask P s := by
  unfold updT; simp

@[simp] theorem setTgt_mask [Off P .tx] (src : Nat) (k : Option TgtPair) (s : State) : mask P (setTgt src k s) = mask P s := by
  unfold setTgt; simp

@[simp] theorem setTxid_mask [Off P .tx] (src : Nat) (txid : Nat) (st : TxState) (s : State) : mask P (setTxid src txid st s) = mask P s := by
  unfold setTxid; split <;> simp

@[simp] theorem settleTxid_mask [Off P .tx] (src : Nat) (txid : Nat) (r : Nat) (s : State) : mask P (settleTxid src txid r s) = mask P s := by
  unfold settleTxid; split <;> simp

theorem createTgt_mask [Off P .tx] (src : Nat) (txid : Nat) (s : State) : ∀ z, createTgt src txid s = some z → mask P z = mask P s := by
  intro r h; unfold createTgt at h; (try dsimp only at h); (repeat' split at h) <;> first | (cases h; simp) | (simp at h; subst h; simp) | (simp at h; obtain ⟨-, rfl⟩ := h; simp) | (simp at h; obtain ⟨-, -, rfl⟩ := h; simp) | simp_all

@[simp] theorem setSrc_mask [Off P .tx] (dst : Nat) (k : Option SrcPair) (s : State) : mask P (setSrc dst k s) = mask P s := by
  unfold setSrc; simp

theorem srcEntry_mask [Off P .tx] (dst : Nat) (s : State) : ∀ a b z, srcEntry dst s = some (a, b, z) → mask P z = mask P s := by
  intro a b r h; unfold srcEntry at h
  repeat' split at h
  · simp at h; obtain ⟨-, -, rfl⟩ := h; rfl
  · simp at h; obtain ⟨-, -, rfl⟩ := h; rfl
  · simp only [Option.map_eq_some_iff, Prod.mk.injEq] at h; obtain ⟨_, -, -, -, rfl⟩ := h; simp

@[simp] theorem commitTo_mask [Off P .regs] [Off P .bumps] [Off P .ports] [Off P .tx] (q : NewReq) (p : Nat) (relay : Bool) (s : State) : mask P (commitTo q p relay s) = mask P s := by
  unfold commitTo
  split
  · rfl
  · next k new s1 h => have := srcEntry_mask (P := P) _ _ _ _ _ h; simp [this]

@[simp] theorem updReq_mask [Off P .tx] (dst : Nat) (txid : Nat) (f : SrcReq → SrcReq) (s : State) : mask P (updReq dst txid f s) = mask P s := by
  unfold updReq; split <;> simp

@[simp] theorem dropReq_mask [Off P .tx] (dst : Nat) (txid : Nat) (s : State) : mask P (dropReq dst txid s) = mask P s := by
  unfold dropReq; split <;> simp

theorem resend_mask [Off P .regs] [Off P .bumps] [Off P .ports] [Off P .tx] (dst : Nat) (r : SrcReq) (retry : Bool) (s : State) : ∀ z, resend dst r retry s = some z → mask P z = mask P s := by
  intro t h; unfold resend at h
  dsimp only at h
  split at h
  · cases h; split <;> simp
  · cases h

@[simp] theorem noteSent_mask [Off P .ports] [Off P .tx] (p : Nat) (s : State) : mask P (noteSent p s) = mask P s := by
  unfold noteSent
  dsimp only
  rw [updTx_mask]
  exact foldl_mask (P := P) (h := by intro t k; (repeat' split) <;> simp) ..

@[simp] theorem updIp_mask [Off P .ips] (i : Nat) (f : InnerPort → InnerPort) (s : State) : mask P (updIp i f s) = mask P s := by
  unfold updIp; simp

@[simp] theorem hostAccess_mask [Off P .ips] (ip : Nat) (r : HostReq) (s : State) : mask P (hostAccess ip r s) = mask P s := by
  unfold hostAccess; simp

@[simp] theorem updALane_mask [Off P .tx] (q : Nat) (f : AtomLane → AtomLane) (s : State) : mask P (updALane q f s) = mask P s := by
  unfold updALane; simp

@[simp] theorem freeAccess_mask [Off P .ports] (r : HostReq) (n : Nat) (s : State) : mask P (freeAccess r n s) = mask P s := by
  unfold freeAccess; (try dsimp only); (repeat' split) <;> simp

@[simp] theorem presentHeader_mask [Off P .free] [Off P .ips] (ip : Nat) (s : State) : mask P (presentHeader ip s) = mask P s := by
  unfold presentHeader; (try dsimp only); (repeat' split) <;> simp

@[simp] theorem lateDelivery_mask [Off P .regs] [Off P .bumps] [Off P .evts] [Off P .ports] (p : Nat) (s : State) : mask P (lateDelivery p s) = mask P s := by
  unfold lateDelivery; simp

@[simp] theorem hreqHeader_mask [Off P .regs] [Off P .bumps] [Off P .evts] [Off P .ports] [Off P .ips] (ip : Nat) (s : State) : mask P (hreqHeader ip s) = mask P s := by
  unfold hreqHeader; split <;> simp

@[simp] theorem presentBeat_mask [Off P .ips] (ip : Nat) (s : State) : mask P (presentBeat ip s) = mask P s := by
  unfold presentBeat; split <;> simp

@[simp] theorem hreqData_mask [Off P .free] [Off P .regs] [Off P .bumps] [Off P .evts] [Off P .flt] [Off P .ports] [Off P .ips] [Off P .tst] (ip : Nat) (bad : BitVec 17) (s : State) : mask P (hreqData ip bad s) = mask P s := by
  unfold hreqData; (try dsimp only); (repeat' split) <;> simp

@[simp] theorem presentFrsp_mask [Off P .ips] (ip : Nat) (s : State) : mask P (presentFrsp ip s) = mask P s := by
  unfold presentFrsp; simp

@[simp] theorem present_mask [Off P .free] [Off P .ips] (ip : Nat) (s : State) : mask P (present ip s) = mask P s := by
  unfold present; simp

@[simp] theorem presentAll_mask [Off P .free] [Off P .ips] (s : State) : mask P (presentAll s) = mask P s := by
  unfold presentAll; simp

theorem execHreqTransfer_mask [Off P .free] [Off P .regs] [Off P .bumps] [Off P .evts] [Off P .flt] [Off P .ports] [Off P .ips] [Off P .tst] (ip : IpId) (data : Bool) (bad : BitVec 17) (s : State) : ∀ z, execHreqTransfer ip data bad s = .next z → mask P z = mask P s := by
  intro r h; unfold execHreqTransfer at h; (try dsimp only at h); (repeat' split at h) <;> cases h <;> simp

theorem execQuarantineExpiry_mask [Off P .ips] (ip : IpId) (tag : Tag) (s : State) : ∀ z, execQuarantineExpiry ip tag s = .next z → mask P z = mask P s := by
  intro r h; unfold execQuarantineExpiry at h; (try dsimp only at h); (repeat' split at h) <;> cases h <;> simp

theorem execIpStall_mask [Off P .evts] [Off P .ips] (ip : IpId) (ch : IpWait) (s : State) : ∀ z, execIpStall ip ch s = .next z → mask P z = mask P s := by
  intro r h; unfold execIpStall at h; (try dsimp only at h); (repeat' split at h) <;> cases h <;> simp

@[simp] theorem chestFree_mask [Off P .tx] (src : Nat) (txid : Nat) (s : State) : mask P (chestFree src txid s) = mask P s := by
  unfold chestFree; simp

theorem chestReserve_mask [Off P .regs] [Off P .bumps] [Off P .tx] (src : Nat) (txid : Nat) (s : State) : ∀ z, chestReserve src txid s = some z → mask P z = mask P s := by
  intro r h; unfold chestReserve at h; (try dsimp only at h); (repeat' split at h) <;> cases h <;> simp

@[simp] theorem chestSettle_mask [Off P .regs] [Off P .bumps] [Off P .tx] (src : Nat) (txid : Nat) (r : Nat) (data : List Byte) (s : State) : mask P (chestSettle src txid r data s) = mask P s := by
  unfold chestSettle; split <;> simp

theorem execChestAgeExpiry_mask [Off P .regs] [Off P .bumps] [Off P .tx] (src : BitVec 18) (txid : BitVec 20) (s : State) : ∀ z, execChestAgeExpiry src txid s = .next z → mask P z = mask P s := by
  intro r h; unfold execChestAgeExpiry at h; (try dsimp only at h); (repeat' split at h) <;> cases h <;> simp

@[simp] theorem sendRelease_mask [Off P .regs] [Off P .bumps] [Off P .ports] (dst : Nat) (txid : Nat) (cls : Nat) (s : State) : mask P (sendRelease dst txid cls s) = mask P s := by
  unfold sendRelease; split <;> simp

@[simp] theorem pushFrsp_mask [Off P .ips] (ip : Nat) (x : FrspXfer) (s : State) : mask P (pushFrsp ip x s) = mask P s := by
  unfold pushFrsp; simp

@[simp] theorem freqAnswer_mask [Off P .ips] (ip : Nat) (tag : Nat) (part : Nat) (r : Nat) (data : List Byte) (rel : Option (Nat × Nat × Nat)) (s : State) : mask P (freqAnswer ip tag part r data rel s) = mask P s := by
  unfold freqAnswer; split <;> simp

@[simp] theorem frspEnds_mask [Off P .regs] [Off P .bumps] [Off P .ports] [Off P .ips] (ip : Nat) (x : FrspXfer) (s : State) : mask P (frspEnds ip x s) = mask P s := by
  unfold frspEnds; split <;> simp

@[simp] theorem frspHeader_mask [Off P .regs] [Off P .bumps] [Off P .ports] [Off P .ips] (ip : Nat) (s : State) : mask P (frspHeader ip s) = mask P s := by
  unfold frspHeader; (try dsimp only); (repeat' split) <;> simp

@[simp] theorem frspData_mask [Off P .regs] [Off P .bumps] [Off P .ports] [Off P .ips] (ip : Nat) (s : State) : mask P (frspData ip s) = mask P s := by
  unfold frspData; (try dsimp only); (repeat' split) <;> simp

theorem execFrspDelivery_mask [Off P .free] [Off P .regs] [Off P .bumps] [Off P .ports] [Off P .ips] (ip : FrspBeat) (s : State) : ∀ z, execFrspDelivery ip s = .next z → mask P z = mask P s := by
  intro r h; unfold execFrspDelivery at h; (try dsimp only at h); (repeat' split at h) <;> cases h <;> simp

@[simp] theorem setThread_mask [Off P .tx] (t : Nat) (x : LThread) (s : State) : mask P (setThread t x s) = mask P s := by
  unfold setThread; simp

@[simp] theorem threadAnswer_mask [Off P .regs] [Off P .bumps] [Off P .ports] [Off P .tx] (t : Nat) (r : Nat) (data : List Byte) (rel : Option (Nat × Nat × Nat)) (s : State) : mask P (threadAnswer t r data rel s) = mask P s := by
  unfold threadAnswer; split <;> simp

@[simp] theorem finish_mask [Off P .regs] [Off P .bumps] [Off P .evts] [Off P .ports] [Off P .ips] [Off P .tx] (c : Client) (r : Nat) (data : List Byte) (rel : Option (Nat × Nat × Nat)) (s : State) : mask P (finish c r data rel s) = mask P s := by
  unfold finish; split <;> simp

@[simp] theorem freeBytes_mask [Off P .free] (n : Nat) (s : State) : mask P (freeBytes n s).2 = mask P s := by
  unfold freeBytes; simp

@[simp] theorem submit_mask [Off P .tx] (q : NewReq) (s : State) : mask P (submit q s) = mask P s := by
  unfold submit; simp

@[simp] theorem mirrorCopy_mask [Off P .tx] (w : Nat) (off : Nat) (data : List Byte) (hold : Option Nat) (s : State) : mask P (mirrorCopy w off data hold s) = mask P s := by
  unfold mirrorCopy; simp

@[simp] theorem holdAnswers_mask [Off P .tx] (as : List Answer) (s : State) : mask P (holdAnswers as s).2 = mask P s := by
  unfold holdAnswers; simp

@[simp] theorem answerMirrored_mask [Off P .regs] [Off P .bumps] [Off P .evts] [Off P .ports] [Off P .ips] [Off P .tx] (w : Nat) (host : Nat) (data : List Byte) (as : List Answer) (s : State) : mask P (answerMirrored w host data as s) = mask P s := by
  unfold answerMirrored; simp

@[simp] theorem mirrorAnswered_mask [Off P .regs] [Off P .bumps] [Off P .evts] [Off P .flt] [Off P .ports] [Off P .ips] [Off P .tx] (w : Nat) (hold : Option Nat) (r : Nat) (s : State) : mask P (mirrorAnswered w hold r s) = mask P s := by
  unfold mirrorAnswered; (try dsimp only); (repeat' split) <;> simp

@[simp] theorem atLane_mask [Off P .tx] (x : Atom) (s : State) : mask P (atLane x s) = mask P s := by
  unfold atLane; simp

@[simp] theorem updWord_mask [Off P .tx] (q : Nat) (h : Nat) (f : LiveWord → LiveWord) (s : State) : mask P (updWord q h f s) = mask P s := by
  unfold updWord; simp

theorem execAtomicLaneEntry_mask [Off P .regs] [Off P .bumps] [Off P .evts] [Off P .ips] [Off P .tx] (q : QuadId) (s : State) : ∀ z, execAtomicLaneEntry q s = .next z → mask P z = mask P s := by
  intro r h; unfold execAtomicLaneEntry at h; (try dsimp only at h); (repeat' split at h) <;> cases h <;> simp

@[simp] theorem coverWrite_mask [Off P .ips] [Off P .tx] (q : Nat) (h : Nat) (s : State) : mask P (coverWrite q h s) = mask P s := by
  unfold coverWrite; (try dsimp only); (repeat' split) <;> simp

theorem execAtomicApply_mask [Off P .regs] [Off P .bumps] [Off P .ips] [Off P .tx] (q : QuadId) (s : State) : ∀ z, execAtomicApply q s = .next z → mask P z = mask P s := by
  intro r h; unfold execAtomicApply at h; (try dsimp only at h); (repeat' split at h) <;> cases h <;> simp

@[simp] theorem poisonAtoms_mask [Off P .regs] [Off P .bumps] [Off P .evts] [Off P .ports] [Off P .ips] [Off P .tx] (xs : List Atom) (s : State) : mask P (poisonAtoms xs s) = mask P s := by
  unfold poisonAtoms; simp

@[simp] theorem dropWord_mask [Off P .tx] (q : Nat) (h : Nat) (s : State) : mask P (dropWord q h s) = mask P s := by
  unfold dropWord; simp

@[simp] theorem wordRead_mask [Off P .regs] [Off P .bumps] [Off P .evts] [Off P .ports] [Off P .ips] [Off P .tx] (q : Nat) (h : Nat) (r : Nat) (data : List Byte) (s : State) : mask P (wordRead q h r data s) = mask P s := by
  unfold wordRead; split <;> simp

@[simp] theorem endWord_mask [Off P .tx] (q : Nat) (w : LiveWord) (s : State) : mask P (endWord q w s) = mask P s := by
  unfold endWord; simp

@[simp] theorem wordWritten_mask [Off P .regs] [Off P .bumps] [Off P .evts] [Off P .ports] [Off P .ips] [Off P .tx] (q : Nat) (h : Nat) (r : Nat) (data : List Byte) (s : State) : mask P (wordWritten q h r data s) = mask P s := by
  unfold wordWritten; split <;> simp

@[simp] theorem writeDone_mask [Off P .regs] [Off P .bumps] [Off P .evts] [Off P .ports] [Off P .ips] [Off P .tx] (r : HostReq) (code : Nat) (s : State) : mask P (writeDone r code s) = mask P s := by
  unfold writeDone; split <;> simp

@[simp] theorem complete_mask [Off P .free] [Off P .regs] [Off P .bumps] [Off P .evts] [Off P .ports] [Off P .ips] [Off P .tx] (r : HostReq) (code : Nat) (data : List Byte) (s : State) : mask P (complete r code data s) = mask P s := by
  unfold complete; split <;> simp

@[simp] theorem retire_mask [Off P .ips] (ip : Nat) (r : HostReq) (s : State) : mask P (retire ip r s) = mask P s := by
  unfold retire; simp

@[simp] theorem timeOut_mask [Off P .free] [Off P .regs] [Off P .bumps] [Off P .evts] [Off P .ports] [Off P .ips] [Off P .tx] (ip : Nat) (r : HostReq) (s : State) : mask P (timeOut ip r s) = mask P s := by
  unfold timeOut; simp

theorem coreHreqTimeout_mask [Off P .free] [Off P .regs] [Off P .bumps] [Off P .evts] [Off P .ports] [Off P .ips] [Off P .tx] (ip : IpId) (tag : Tag) (s : State) : ∀ z, coreHreqTimeout ip tag s = .next z → mask P z = mask P s := by
  intro r h; unfold coreHreqTimeout at h; (try dsimp only at h); (repeat' split at h) <;> cases h <;> simp

@[simp] theorem ipParity_mask [Off P .regs] [Off P .bumps] [Off P .evts] (ip : Nat) (e : Nat) (s : State) : mask P (ipParity ip e s) = mask P s := by
  unfold ipParity; simp

@[simp] theorem ipMalformed_mask [Off P .regs] [Off P .bumps] [Off P .evts] (ip : Nat) (s : State) : mask P (ipMalformed ip s) = mask P s := by
  unfold ipMalformed; simp

@[simp] theorem ipLate_mask [Off P .regs] [Off P .bumps] [Off P .evts] (ip : Nat) (e : Nat) (s : State) : mask P (ipLate ip e s) = mask P s := by
  unfold ipLate; simp

@[simp] theorem hrspFor_mask [Off P .free] [Off P .regs] [Off P .bumps] [Off P .evts] [Off P .ports] [Off P .ips] [Off P .tx] (ip : Nat) (r : HostReq) (h : IpHdr) (beats : List Beat) (s : State) : mask P (hrspFor ip r h beats s) = mask P s := by
  unfold hrspFor; simp

@[simp] theorem hrspEnds_mask [Off P .free] [Off P .regs] [Off P .bumps] [Off P .evts] [Off P .ports] [Off P .ips] [Off P .tx] (ip : Nat) (beat : BitVec 128) (beats : List Beat) (s : State) : mask P (hrspEnds ip beat beats s) = mask P s := by
  unfold hrspEnds; (try dsimp only); (repeat' split) <;> simp

@[simp] theorem hrspHeader_mask [Off P .free] [Off P .regs] [Off P .bumps] [Off P .evts] [Off P .ports] [Off P .ips] [Off P .tx] (ip : Nat) (beat : BitVec 128) (s0 : State) : mask P (hrspHeader ip beat s0) = mask P s0 := by
  unfold hrspHeader; (try dsimp only); (repeat' split) <;> simp

@[simp] theorem hrspBeat_mask [Off P .free] [Off P .regs] [Off P .bumps] [Off P .evts] [Off P .ports] [Off P .ips] [Off P .tx] (ip : Nat) (s : State) (b : Beat) : mask P (hrspBeat ip s b) = mask P s := by
  unfold hrspBeat; split <;> simp

@[simp] theorem hrsp_mask [Off P .free] [Off P .regs] [Off P .bumps] [Off P .evts] [Off P .ports] [Off P .ips] [Off P .tx] (ip : Nat) (hdr : Option (BitVec 128)) (beats : List Beat) (s : State) : mask P (hrsp ip hdr beats s) = mask P s := by
  unfold hrsp; split <;> simp

@[simp] theorem localAccess_mask [Off P .regs] [Off P .bumps] [Off P .evts] [Off P .ports] [Off P .ips] [Off P .tx] (c : Client) (opc : Nat) (addr : Nat) (bytes : Nat) (data : List Byte) (mirror : Bool) (s : State) : mask P (localAccess c opc addr bytes data mirror s) = mask P s := by
  unfold localAccess; (try dsimp only); (repeat' split) <;> simp

@[simp] theorem freqRefuse_mask [Off P .ips] (ip : Nat) (h : IpHdr) (r : Nat) (s : State) : mask P (freqRefuse ip h r s) = mask P s := by
  unfold freqRefuse; simp

@[simp] theorem freqAccept_mask [Off P .regs] [Off P .bumps] [Off P .evts] [Off P .ports] [Off P .ips] [Off P .tx] (ip : Nat) (h : IpHdr) (data : List Byte) (s : State) : mask P (freqAccept ip h data s) = mask P s := by
  unfold freqAccept; simp

@[simp] theorem freq_mask [Off P .regs] [Off P .bumps] [Off P .evts] [Off P .ports] [Off P .ips] [Off P .tx] (ip : Nat) (beat : BitVec 128) (beats : List Beat) (s : State) : mask P (freq ip beat beats s) = mask P s := by
  unfold freq; simp

@[simp] theorem freqHeader_mask [Off P .regs] [Off P .bumps] [Off P .evts] [Off P .ports] [Off P .ips] [Off P .tx] (ip : Nat) (beat : BitVec 128) (s0 : State) : mask P (freqHeader ip beat s0) = mask P s0 := by
  unfold freqHeader; simp

@[simp] theorem freqBeat_mask [Off P .regs] [Off P .bumps] [Off P .evts] [Off P .ports] [Off P .ips] [Off P .tx] (ip : Nat) (s : State) (b : Beat) : mask P (freqBeat ip s b) = mask P s := by
  unfold freqBeat; split <;> simp

theorem execFreqTransfer_mask [Off P .regs] [Off P .bumps] [Off P .evts] [Off P .ports] [Off P .ips] [Off P .tx] (ip : IpId) (hdr : Option (BitVec 128)) (beats : List Beat) (s : State) : ∀ z, execFreqTransfer ip hdr beats s = .next z → mask P z = mask P s := by
  intro z h; unfold execFreqTransfer at h
  split at h
  · simp only [Outcome.next.injEq] at h; subst h; rfl
  · simp only [Outcome.next.injEq] at h; subst h
    rw [foldl_mask (P := P) (h := fun t b => freqBeat_mask (P := P) ..)]
    (repeat' split) <;> first | rfl | simp

@[simp] theorem setFence_mask [Off P .tx] (i : Nat) (f : Fence) (s : State) : mask P (setFence i f s) = mask P s := by
  unfold setFence; simp

@[simp] theorem startFence_mask [Off P .tx] (i : Nat) (d : Nat) (s : State) : mask P (startFence i d s) = mask P s := by
  unfold startFence; split <;> simp

@[simp] theorem noteFences_mask [Off P .tx] (d : Nat) (txid : Nat) (r : Nat) (s : State) : mask P (noteFences d txid r s) = mask P s := by
  unfold noteFences; simp

@[simp] theorem endFence_mask [Off P .tx] (i : Nat) (s : State) : mask P (endFence i s) = mask P s := by
  unfold endFence; simp

@[simp] theorem fenceGo_mask [Off P .regs] [Off P .evts] [Off P .tx] (ip : Nat) (d : Nat) (s : State) : mask P (fenceGo ip d s) = mask P s := by
  unfold fenceGo; simp

theorem execFenceGo_mask [Off P .regs] [Off P .evts] [Off P .bnd] [Off P .tx] (ip : IpId) (dst : BitVec 18) (s : State) : ∀ z, execFenceGo ip dst s = .next z → mask P z = mask P s := by
  intro r h; unfold execFenceGo at h; cases h; simp

theorem execFenceComplete_mask [Off P .tx] (ip : IpId) (s : State) : ∀ z, execFenceComplete ip s = .next z → mask P z = mask P s := by
  intro r h; unfold execFenceComplete at h; (try dsimp only at h); (repeat' split at h) <;> cases h <;> simp

@[simp] theorem answerTold_mask [Off P .regs] [Off P .bumps] [Off P .evts] [Off P .flt] [Off P .ports] [Off P .ips] [Off P .tx] (d : Nat) (q : SrcReq) (r : Nat) (told : Nat) (data : List Byte) (s : State) : mask P (answerTold d q r told data s) = mask P s := by
  unfold answerTold; (try dsimp only); (repeat' split) <;> simp

@[simp] theorem answerReq_mask [Off P .regs] [Off P .bumps] [Off P .evts] [Off P .flt] [Off P .ports] [Off P .ips] [Off P .tx] (d : Nat) (q : SrcReq) (r : Nat) (data : List Byte) (s : State) : mask P (answerReq d q r data s) = mask P s := by
  unfold answerReq; simp

@[simp] theorem busyAnswer_mask [Off P .regs] [Off P .bumps] [Off P .evts] [Off P .flt] [Off P .ports] [Off P .ips] [Off P .tx] (d : Nat) (q : SrcReq) (s : State) : mask P (busyAnswer d q s) = mask P s := by
  unfold busyAnswer; simp

@[simp] theorem presentFrom_mask [Off P .ips] (c : Client) (due : Nat) (s : State) : mask P (presentFrom c due s) = mask P s := by
  unfold presentFrom; split <;> simp

@[simp] theorem takeResponse_mask [Off P .regs] [Off P .bumps] [Off P .evts] [Off P .flt] [Off P .ports] [Off P .ips] [Off P .tx] (h : PktHdr) (slots : List Slot) (bad : Bool) (due : Nat) (s : State) : mask P (takeResponse h slots bad due s) = mask P s := by
  unfold takeResponse
  dsimp only
  split
  · simp
  · split
    · simp
    · exact foldl_mask (P := P) (h := by intro t x; (repeat' split) <;> simp) ..

@[simp] theorem responseRx_mask [Off P .free] [Off P .regs] [Off P .bumps] [Off P .evts] [Off P .flt] [Off P .ports] [Off P .ips] [Off P .tx] [Off P .tst] (p : Nat) (bad : Bool) (s : State) : mask P (responseRx p bad s) = mask P s := by
  unfold responseRx; split <;> simp

@[simp] theorem loopRequest_mask [Off P .regs] [Off P .bumps] [Off P .evts] [Off P .ports] [Off P .ips] [Off P .tx] (q : NewReq) (s : State) : mask P (loopRequest q s) = mask P s := by
  unfold loopRequest; simp

@[simp] theorem countRre_mask [Off P .regs] [Off P .bumps] [Off P .ips] (q : NewReq) (s : State) : mask P (countRre q s) = mask P s := by
  unfold countRre; split <;> simp

@[simp] theorem unreachable_mask [Off P .regs] [Off P .bumps] [Off P .evts] [Off P .flt] [Off P .ports] [Off P .ips] [Off P .tx] (q : NewReq) (s : State) : mask P (unreachable q s) = mask P s := by
  unfold unreachable; split <;> simp

@[simp] theorem relayRead_mask [Off P .free] [Off P .flt] [Off P .prot] [Off P .tst] (bad : Bool) (d : Nat) (s : State) : mask P (relayRead bad d s) = mask P s := by
  unfold relayRead; (repeat' split) <;> simp

theorem coreRequestCommit_mask [Off P .free] [Off P .regs] [Off P .bumps] [Off P .evts] [Off P .flt] [Off P .ports] [Off P .ips] [Off P .tx] [Off P .prot] [Off P .tst] (s : State) : ∀ z, coreRequestCommit s = .next z → mask P z = mask P s := by
  intro r h; unfold coreRequestCommit at h; (try dsimp only at h); (repeat' split at h) <;> cases h <;> simp

@[simp] theorem again_mask [Off P .regs] [Off P .bumps] [Off P .evts] [Off P .flt] [Off P .ports] [Off P .ips] [Off P .tx] (d : Nat) (q : SrcReq) (retry : Bool) (s : State) : mask P (again d q retry s) = mask P s := by
  unfold again
  split
  · next t h => exact resend_mask (P := P) _ _ _ _ _ h
  · simp

theorem coreRspTimeout_mask [Off P .regs] [Off P .bumps] [Off P .evts] [Off P .flt] [Off P .ports] [Off P .ips] [Off P .tx] (dst : BitVec 18) (txid : BitVec 20) (s : State) : ∀ z, coreRspTimeout dst txid s = .next z → mask P z = mask P s := by
  intro r h; unfold coreRspTimeout at h; (try dsimp only at h); (repeat' split at h) <;> cases h <;> simp

theorem coreBusyResend_mask [Off P .regs] [Off P .bumps] [Off P .evts] [Off P .flt] [Off P .ports] [Off P .ips] [Off P .tx] (dst : BitVec 18) (txid : BitVec 20) (s : State) : ∀ z, coreBusyResend dst txid s = .next z → mask P z = mask P s := by
  intro r h; unfold coreBusyResend at h; (try dsimp only at h); (repeat' split at h) <;> cases h <;> simp

@[simp] theorem dropTransit_mask [Off P .regs] [Off P .bumps] [Off P .ports] (h : PktHdr) (s : State) : mask P (dropTransit h s) = mask P s := by
  unfold dropTransit; simp

theorem execRelayForward_mask [Off P .regs] [Off P .bumps] [Off P .ports] (p : PortId) (s : State) : ∀ z, execRelayForward p s = .next z → mask P z = mask P s := by
  intro r h; unfold execRelayForward at h; (try dsimp only at h); (repeat' split at h) <;> cases h <;> simp

@[simp] theorem resendAll_mask [Off P .regs] [Off P .bumps] [Off P .evts] [Off P .flt] [Off P .ports] [Off P .ips] [Off P .tx] (d : Nat) (s : State) : mask P (resendAll d s) = mask P s := by
  unfold resendAll; simp

@[simp] theorem forwardAgain_mask [Off P .regs] [Off P .bumps] [Off P .ports] (q : Packet) (s : State) : mask P (forwardAgain q s) = mask P s := by
  unfold forwardAgain; split <;> simp

@[simp] theorem handBack_mask [Off P .regs] [Off P .bumps] [Off P .evts] [Off P .flt] [Off P .ports] [Off P .ips] [Off P .tx] (p : Nat) (ds : List Nat) (s : State) : mask P (handBack p ds s) = mask P s := by
  unfold handBack
  dsimp only
  rw [foldl_mask (P := P) (h := by intro t q; (repeat' split) <;> simp)]
  simp

@[simp] theorem emptyPort_mask [Off P .ports] (p : Nat) (s : State) : mask P (emptyPort p s) = mask P s := by
  unfold emptyPort; simp

@[simp] theorem losePort_mask [Off P .regs] [Off P .bumps] [Off P .evts] [Off P .flt] [Off P .ports] [Off P .ips] [Off P .tx] (p : Nat) (s : State) : mask P (losePort p s) = mask P s := by
  unfold losePort; simp

theorem corePortLost_mask [Off P .free] [Off P .regs] [Off P .bumps] [Off P .evts] [Off P .flt] [Off P .lanes] [Off P .ports] [Off P .ips] [Off P .tx] [Off P .prot] [Off P .tst] (p : Checked PortId) (s : State) : ∀ z, corePortLost p s = .next z → mask P z = mask P s := by
  intro r h; unfold corePortLost at h
  dsimp only at h
  split at h
  · split at h
    · simp only [Outcome.next.injEq] at h; subst h; simp
    · simp only [Outcome.next.injEq] at h; subst h; simp
  · simp only [Outcome.next.injEq] at h; subst h; rfl

theorem coreColdTraining_mask [Off P .regs] [Off P .bumps] [Off P .evts] [Off P .flt] [Off P .blsb] [Off P .lanes] [Off P .ports] [Off P .ips] [Off P .tx] (p : PortId) (s : State) : ∀ z, coreColdTraining p s = .next z → mask P z = mask P s := by
  intro r h; unfold coreColdTraining at h; (try dsimp only at h); (repeat' split at h) <;> cases h <;> simp

@[simp] theorem toDirect_mask [Off P .evts] [Off P .ports] (p : Nat) (s : State) : mask P (toDirect p s) = mask P s := by
  unfold toDirect; simp

theorem execDrainComplete_mask [Off P .evts] [Off P .ports] (p : PortId) (s : State) : ∀ z, execDrainComplete p s = .next z → mask P z = mask P s := by
  intro r h; unfold execDrainComplete at h; (try dsimp only at h); (repeat' split at h) <;> cases h <;> simp

theorem coreDrainTimeout_mask [Off P .regs] [Off P .bumps] [Off P .evts] [Off P .flt] [Off P .ports] [Off P .ips] [Off P .tx] (p : PortId) (s : State) : ∀ z, coreDrainTimeout p s = .next z → mask P z = mask P s := by
  intro r h; unfold coreDrainTimeout at h; (try dsimp only at h); (repeat' split at h) <;> cases h <;> simp

theorem execLecternRemoteAccess_mask [Off P .tx] (t : ThreadId) (kind : AccessKind) (dst : BitVec 18) (addr : BitVec 48) (bytes : BitVec 13) (data : List Byte) (s : State) : ∀ z, execLecternRemoteAccess t kind dst addr bytes data s = .next z → mask P z = mask P s := by
  intro r h; unfold execLecternRemoteAccess at h; (try dsimp only at h); (repeat' split at h) <;> cases h <;> simp

@[simp] theorem answerOnly_mask [Off P .regs] [Off P .bumps] [Off P .evts] [Off P .ports] (h : PktHdr) (r : Nat) (s : State) : mask P (answerOnly h r s) = mask P s := by
  unfold answerOnly; simp

@[simp] theorem asNew_mask [Off P .tx] (h : PktHdr) (s : State) : mask P (asNew h s).2 = mask P s := by
  unfold asNew; simp

@[simp] theorem gate_mask [Off P .regs] [Off P .bumps] [Off P .evts] [Off P .ports] [Off P .tx] (h : PktHdr) (s : State) : mask P (gate h s).2 = mask P s := by
  unfold gate
  split
  · split
    · simp
    · split
      · simp
      · next t h => simp [createTgt_mask (P := P) _ _ _ _ h]
  · dsimp only
    split
    · cases h : createTgt _ _ _ with
      | none => simp
      | some t => have := createTgt_mask (P := P) _ _ _ _ h; simp [this]
    · (repeat' split) <;> simp

@[simp] theorem chestUncorr_mask [Off P .free] [Off P .evts] [Off P .flt] [Off P .tx] [Off P .tst] (src : Nat) (txid : Nat) (s : State) : mask P (chestUncorr src txid s) = mask P s := by
  unfold chestUncorr; (try dsimp only); (repeat' split) <;> simp

@[simp] theorem chestRead_mask [Off P .free] [Off P .evts] [Off P .flt] [Off P .tx] [Off P .tst] (bad : Bool) (src : Nat) (txid : Nat) (s : State) : mask P (chestRead bad src txid s) = mask P s := by
  unfold chestRead; simp

@[simp] theorem fromChest_mask [Off P .free] [Off P .regs] [Off P .bumps] [Off P .evts] [Off P .flt] [Off P .ports] [Off P .tx] [Off P .tst] (h : PktHdr) (chestBad : Bool) (s0 : State) : mask P (fromChest h chestBad s0) = mask P s0 := by
  unfold fromChest; (try dsimp only); (repeat' split) <;> simp

@[simp] theorem startAtomic_mask [Off P .free] [Off P .regs] [Off P .bumps] [Off P .evts] [Off P .flt] [Off P .ports] [Off P .tx] [Off P .tst] (h : PktHdr) (b : Nat) (host : Nat) (ip : Nat) (w : Nat) (chestBad : Bool) (s0 : State) : mask P (startAtomic h b host ip w chestBad s0) = mask P s0 := by
  unfold startAtomic
  dsimp only
  split
  · simp
  · next t h => simp [chestReserve_mask (P := P) _ _ _ _ h]

@[simp] theorem startAccess_mask [Off P .ports] [Off P .ips] (p : Nat) (c : CupPkt) (dup : Bool) (w : Nat) (host : Nat) (s : State) : mask P (startAccess p c dup w host s) = mask P s := by
  unfold startAccess; simp

@[simp] theorem runRequest_mask [Off P .free] [Off P .regs] [Off P .bumps] [Off P .evts] [Off P .flt] [Off P .ports] [Off P .ips] [Off P .tx] [Off P .tst] (p : Nat) (c : CupPkt) (chestBad : Bool) (s : State) : mask P (runRequest p c chestBad s) = mask P s := by
  unfold runRequest; (try dsimp only); (repeat' split) <;> simp

@[simp] theorem takeRequest_mask [Off P .free] [Off P .regs] [Off P .bumps] [Off P .evts] [Off P .flt] [Off P .ports] [Off P .ips] [Off P .tx] [Off P .tst] (p : Nat) (c : CupPkt) (chestBad : Bool) (s : State) : mask P (takeRequest p c chestBad s) = mask P s := by
  unfold takeRequest; simp

@[simp] theorem winUncorr_mask [Off P .free] [Off P .flt] [Off P .prot] [Off P .tst] (s : State) (w : Fin 64) : mask P (winUncorr s w) = mask P s := by
  unfold winUncorr; simp

theorem execTargetRequest_mask [Off P .free] [Off P .regs] [Off P .bumps] [Off P .evts] [Off P .flt] [Off P .ports] [Off P .ips] [Off P .tx] [Off P .prot] [Off P .tst] (p : PortId) (bad : Bool) (chestBad : Bool) (badWins : List (Fin 64)) (s : State) : ∀ z, execTargetRequest p bad chestBad badWins s = .next z → mask P z = mask P s := by
  intro r h; unfold execTargetRequest at h; (try dsimp only at h); (repeat' split at h) <;> cases h <;> simp

theorem execScheduledDelivery_mask [Off P .free] [Off P .regs] [Off P .bumps] [Off P .evts] [Off P .flt] [Off P .ports] [Off P .ips] [Off P .tx] [Off P .prot] [Off P .tst] (p : PortId) (bad : Bool) (badWins : List (Fin 64)) (s : State) : ∀ z, execScheduledDelivery p bad badWins s = .next z → mask P z = mask P s := by
  intro r h; unfold execScheduledDelivery at h; (try dsimp only at h); (repeat' split at h) <;> cases h <;> simp

theorem execAtomicReleaseRx_mask [Off P .free] [Off P .regs] [Off P .bumps] [Off P .evts] [Off P .flt] [Off P .ports] [Off P .tx] [Off P .tst] (p : Checked PortId) (s : State) : ∀ z, execAtomicReleaseRx p s = .next z → mask P z = mask P s := by
  intro r h; unfold execAtomicReleaseRx at h; (try dsimp only at h); (repeat' split at h) <;> cases h <;> simp

@[simp] theorem updWb_mask [Off P .wb] (u : Nat) (f : WbUnit → WbUnit) (s : State) : mask P (updWb u f s) = mask P s := by
  unfold updWb; simp

@[simp] theorem openSeg_mask [Off P .wb] (u : Nat) (g : WbSeg) (s : State) : mask P (openSeg u g s) = mask P s := by
  unfold openSeg; simp

@[simp] theorem updSeg_mask [Off P .wb] (u : Nat) (k : SegUse) (f : WbSeg → WbSeg) (s : State) : mask P (updSeg u k f s) = mask P s := by
  unfold updSeg; simp

@[simp] theorem offer_mask [Off P .wb] (u : Nat) (c : Contrib) (s : State) : mask P (offer u c s) = mask P s := by
  unfold offer; simp

@[simp] theorem poisonSeg_mask [Off P .regs] [Off P .bumps] [Off P .evts] [Off P .wb] (u : Nat) (g : WbSeg) (s : State) : mask P (poisonSeg u g s) = mask P s := by
  unfold poisonSeg; simp

@[simp] theorem noteValues_mask [Off P .regs] [Off P .bumps] [Off P .evts] [Off P .wb] (u : Nat) (g : WbSeg) (ovf : Nat) (nan : Nat) (s : State) : mask P (noteValues u g ovf nan s) = mask P s := by
  unfold noteValues; simp

@[simp] theorem noteEnc_mask [Off P .regs] [Off P .bumps] [Off P .evts] [Off P .wb] (u : Nat) (g : WbSeg) (c : EncCount) (s : State) : mask P (noteEnc u g c s) = mask P s := by
  unfold noteEnc; simp

@[simp] theorem acceptContrib_mask [Off P .regs] [Off P .bumps] [Off P .evts] [Off P .ports] [Off P .ips] [Off P .tx] (c : Contrib) (s : State) : mask P (acceptContrib c s) = mask P s := by
  unfold acceptContrib; split <;> simp

@[simp] theorem issueFold_mask [Off P .regs] [Off P .bumps] [Off P .wb] (u : Nat) (k : SegUse) (c : Contrib) (s : State) : mask P (issueFold u k c s) = mask P s := by
  unfold issueFold; simp

theorem execContributionArrival_mask [Off P .free] [Off P .regs] [Off P .bumps] [Off P .evts] [Off P .flt] [Off P .ports] [Off P .ips] [Off P .tx] [Off P .wb] [Off P .tst] (u : WbId) (bad : Bool) (s : State) : ∀ z, execContributionArrival u bad s = .next z → mask P z = mask P s := by
  intro r h; unfold execContributionArrival at h; (try dsimp only at h); (repeat' split at h) <;> cases h <;> simp

@[simp] theorem updateAcc_mask [Off P .regs] [Off P .bumps] [Off P .evts] [Off P .wb] (u : Nat) (g : WbSeg) (c : Contrib) (s : State) : mask P (updateAcc u g c s) = mask P s := by
  unfold updateAcc; simp

@[simp] theorem advanceSeg_mask [Off P .regs] [Off P .bumps] [Off P .wb] (u : Nat) (g : WbSeg) (s : State) : mask P (advanceSeg u g s) = mask P s := by
  unfold advanceSeg; (try dsimp only); (repeat' split) <;> simp

theorem execFoldComplete_mask [Off P .free] [Off P .regs] [Off P .bumps] [Off P .evts] [Off P .flt] [Off P .wb] [Off P .tst] (u : WbId) (bad : Bool) (s : State) : ∀ z, execFoldComplete u bad s = .next z → mask P z = mask P s := by
  intro r h; unfold execFoldComplete at h; (try dsimp only at h); (repeat' split at h) <;> cases h <;> simp

theorem takeEncoded_mask [Off P .free] [Off P .regs] [Off P .bumps] [Off P .evts] [Off P .wb] (u : Nat) (s : State) : ∀ a b z, takeEncoded u s = some (a, b, z) → mask P z = mask P s := by
  intro a b r h; unfold takeEncoded at h; (try dsimp only at h); (repeat' split at h) <;> cases h <;> simp

@[simp] theorem updStream_mask [Off P .col] (u : Nat) (f : Stream → Stream) (s : State) : mask P (updStream u f s) = mask P s := by
  unfold updStream; simp

@[simp] theorem newJob_mask [Off P .col] (u : Nat) (job : ColJob) (bytes : Nat) (data : List Byte) (s : State) : mask P (newJob u job bytes data s).2 = mask P s := by
  unfold newJob; simp

@[simp] theorem colRead_mask [Off P .ips] [Off P .col] (u : Nat) (port : Nat) (addr : Nat) (n : Nat) (job : ColJob) (s : State) : mask P (colRead u port addr n job s) = mask P s := by
  unfold colRead; simp

@[simp] theorem colWrite_mask [Off P .ips] [Off P .col] (u : Nat) (port : Nat) (addr : Nat) (data : List Byte) (poison : Bool) (job : ColJob) (s : State) : mask P (colWrite u port addr data poison job s) = mask P s := by
  unfold colWrite; simp

@[simp] theorem colSend_mask [Off P .tx] [Off P .col] (u : Nat) (m : Nat) (red : Nat) (data : List Byte) (job : ColJob) (s : State) : mask P (colSend u m red data job s) = mask P s := by
  unfold colSend; simp

@[simp] theorem turnAway_mask [Off P .regs] [Off P .bumps] [Off P .evts] [Off P .ports] [Off P .ips] [Off P .tx] (c : Contrib) (s : State) : mask P (turnAway c s) = mask P s := by
  unfold turnAway; split <;> simp

@[simp] theorem clearUnits_mask [Off P .regs] [Off P .bumps] [Off P .evts] [Off P .ports] [Off P .ips] [Off P .tx] [Off P .wb] (u : Nat) (s : State) : mask P (clearUnits u s) = mask P s := by
  unfold clearUnits; simp

@[simp] theorem stopReads_mask [Off P .ips] (u : Nat) (s : State) : mask P (stopReads u s) = mask P s := by
  unfold stopReads; simp

@[simp] theorem closeStream_mask [Off P .regs] [Off P .bumps] [Off P .evts] [Off P .ports] [Off P .ips] [Off P .tx] [Off P .wb] [Off P .col] (u : Nat) (st : ColState) (code : Nat) (s : State) : mask P (closeStream u st code s) = mask P s := by
  unfold closeStream; simp

@[simp] theorem sendAborts_mask [Off P .tx] [Off P .col] (u : Nat) (code : Nat) (s : State) : mask P (sendAborts u code s) = mask P s := by
  unfold sendAborts; simp

@[simp] theorem failStream_mask [Off P .regs] [Off P .bumps] [Off P .evts] [Off P .ports] [Off P .ips] [Off P .tx] [Off P .wb] [Off P .col] (u : Nat) (code : Nat) (s : State) : mask P (failStream u code s) = mask P s := by
  unfold failStream; simp

theorem openFor_mask [Off P .wb] [Off P .col] (u : Nat) (g : WbSeg) (s : State) : ∀ z, openFor u g s = some z → mask P z = mask P s := by
  intro r h; unfold openFor at h; (try dsimp only at h); (repeat' split at h) <;> cases h <;> simp

theorem foldOpen_mask [Off P .wb] [Off P .col] (u : Nat) (gs : List WbSeg) (s r : State) (h : gs.foldl (fun (t : Option State) k => t.bind (openFor u k)) (some s) = some r) : mask P r = mask P s := by
  have aux : ∀ (gs : List WbSeg) (o : Option State), gs.foldl (fun (t : Option State) k => t.bind (openFor u k)) o = some r → ∃ t, o = some t ∧ mask P r = mask P t := by
    intro gs
    induction gs with
    | nil => intro o h; exact ⟨r, h, rfl⟩
    | cons k gs ih =>
      intro o h
      obtain ⟨t, h1, h2⟩ := ih _ h
      obtain ⟨v, rfl, h3⟩ := Option.bind_eq_some_iff.mp h1
      exact ⟨v, rfl, h2.trans (openFor_mask _ _ _ _ h3)⟩
  obtain ⟨t, h1, h2⟩ := aux gs _ h
  cases h1; exact h2

theorem startSegment_mask [Off P .ips] [Off P .wb] [Off P .col] (u : Nat) (c : Nat) (sg : Nat) (s : State) : ∀ z, startSegment u c sg s = some z → mask P z = mask P s := by
  intro r h; unfold startSegment at h
  dsimp only at h
  split at h
  · cases h
  · simp only [Option.map_eq_some_iff] at h
    obtain ⟨t, h1, rfl⟩ := h
    rw [colRead_mask, updStream_mask]
    exact foldOpen_mask (P := P) u _ _ _ h1

theorem takeReduction_mask [Off P .ips] [Off P .wb] [Off P .col] (u : Nat) (s : State) : ∀ z, takeReduction u s = some z → mask P z = mask P s := by
  intro r h; unfold takeReduction at h
  dsimp only at h
  split at h
  · cases h
  · simp only [Option.map_eq_some_iff] at h
    obtain ⟨t, h1, rfl⟩ := h
    simpa using startSegment_mask (P := P) _ _ _ _ _ h1

@[simp] theorem putPiece_mask [Off P .ips] [Off P .tx] [Off P .col] (u : Nat) (j : Nat) (i : Nat) (data : List Byte) (poison : Bool) (s : State) : mask P (putPiece u j i data poison s) = mask P s := by
  unfold putPiece; simp

theorem startBlockPiece_mask [Off P .ips] [Off P .tx] [Off P .wb] [Off P .col] (u : Nat) (j : Nat) (i : Nat) (s : State) : ∀ z, startBlockPiece u j i s = some z → mask P z = mask P s := by
  intro z h; unfold startBlockPiece at h
  dsimp only at h
  (repeat' split at h) <;> first
    | (cases h; done)
    | (simp only [Option.some.injEq] at h; subst h; simp; done)
    | (simp only [Option.map_eq_some_iff] at h; obtain ⟨t, h1, rfl⟩ := h; simpa using openFor_mask (P := P) _ _ _ _ h1)

theorem takePiece_mask [Off P .ips] [Off P .tx] [Off P .wb] [Off P .col] (u : Nat) (s : State) : ∀ z, takePiece u s = some z → mask P z = mask P s := by
  intro z h; unfold takePiece at h
  rcases hn : (s.stream u).nextPiece with ⟨j, i⟩
  simp only [hn] at h
  (repeat' split at h) <;> first
    | (cases h; done)
    | (simp only [Option.map_eq_some_iff] at h; obtain ⟨t, h1, rfl⟩ := h; simpa using startBlockPiece_mask (P := P) _ _ _ _ _ h1)

@[simp] theorem writeWord_mask [Off P .ips] [Off P .col] (u : Nat) (s : State) : mask P (writeWord u s) = mask P s := by
  unfold writeWord; simp

theorem takeKv_mask [Off P .ips] [Off P .col] (u : Nat) (s : State) : ∀ z, takeKv u s = some z → mask P z = mask P s := by
  intro r h; unfold takeKv at h; (try dsimp only at h); (repeat' split at h) <;> cases h <;> simp

theorem startMerge_mask [Off P .ips] [Off P .wb] [Off P .col] (u : Nat) (c : Nat) (sg : Nat) (s : State) : ∀ z, startMerge u c sg s = some z → mask P z = mask P s := by
  intro r h; unfold startMerge at h
  dsimp only at h
  split at h
  · cases h
  · simp only [Option.map_eq_some_iff] at h
    obtain ⟨t, h1, rfl⟩ := h
    have := openFor_mask (P := P) _ _ _ _ h1
    split <;> simp [this]

theorem takeMerge_mask [Off P .ips] [Off P .wb] [Off P .col] (u : Nat) (s : State) : ∀ z, takeMerge u s = some z → mask P z = mask P s := by
  intro r h; unfold takeMerge at h
  dsimp only at h
  split at h
  · cases h
  · simp only [Option.map_eq_some_iff] at h
    obtain ⟨t, h1, rfl⟩ := h
    simpa using startMerge_mask (P := P) _ _ _ _ _ h1

theorem ringStep_mask [Off P .ips] [Off P .tx] [Off P .col] (u : Nat) (s : State) : ∀ z, ringStep u s = some z → mask P z = mask P s := by
  intro r h; unfold ringStep at h; (try dsimp only at h); (repeat' split at h) <;> cases h <;> simp

theorem releaseHeld_mask [Off P .ips] [Off P .col] (u : Nat) (s : State) : ∀ z, releaseHeld u s = some z → mask P z = mask P s := by
  intro r h; unfold releaseHeld at h; (try dsimp only at h); (repeat' split at h) <;> cases h <;> simp

@[simp] theorem sweep_mask [Off P .col] (u : Nat) (s : State) : mask P (sweep u s) = mask P s := by
  unfold sweep; simp

theorem takeAgain_mask [Off P .ips] [Off P .tx] [Off P .wb] [Off P .col] (u : Nat) (s : State) : ∀ z, takeAgain u s = some z → mask P z = mask P s := by
  intro r h; unfold takeAgain at h
  split at h
  · cases h
  · dsimp only at h
    have key : ∀ {t : State}, mask P r = mask P t → t = updStream u (fun x => { x with again := ‹List (Nat × Nat)› }) s → mask P r = mask P s := by
      intro t h1 h2; rw [h1, h2, updStream_mask]
    split at h
    · exact key (startBlockPiece_mask (P := P) _ _ _ _ _ h) rfl
    · exact key (startBlockPiece_mask (P := P) _ _ _ _ _ h) rfl
    · exact key (startMerge_mask (P := P) _ _ _ _ _ h) rfl
    · exact key (startSegment_mask (P := P) _ _ _ _ _ h) rfl

theorem firstStep_mask (l : List (State → Option State)) (s : State) (hl : ∀ f ∈ l, ∀ t v, f t = some v → mask P v = mask P t) : ∀ z, firstStep l s = some z → mask P z = mask P s := by
  induction l with
  | nil => intro z h; cases h
  | cons f fs ih =>
    intro z h
    unfold firstStep at h
    split at h
    · next t h1 => cases h; exact hl f (by simp) _ _ h1
    · exact ih (fun g hg => hl g (by simp [hg])) z h

theorem stepStream_mask [Off P .ips] [Off P .tx] [Off P .wb] [Off P .col] (u : Nat) (s : State) : ∀ z, stepStream u s = some z → mask P z = mask P s := by
  intro r h; unfold stepStream at h
  (repeat' split at h) <;> refine firstStep_mask (P := P) _ _ (fun f hf t v hv => ?_) r h <;>
    simp only [List.mem_cons, List.not_mem_nil, or_false] at hf
  · rcases hf with rfl | rfl
    · exact takeAgain_mask (P := P) _ _ _ hv
    · exact takePiece_mask (P := P) _ _ _ hv
  · rcases hf with rfl | rfl
    · exact takeAgain_mask (P := P) _ _ _ hv
    · exact takePiece_mask (P := P) _ _ _ hv
  · rcases hf with rfl | rfl | rfl | rfl | rfl
    · exact takeAgain_mask (P := P) _ _ _ hv
    · exact ringStep_mask (P := P) _ _ _ hv
    · exact releaseHeld_mask (P := P) _ _ _ hv
    · exact takeKv_mask (P := P) _ _ _ hv
    · exact takeMerge_mask (P := P) _ _ _ hv
  · rcases hf with rfl | rfl
    · exact takeAgain_mask (P := P) _ _ _ hv
    · exact takeReduction_mask (P := P) _ _ _ hv

@[simp] theorem goOn_mask [Off P .ips] [Off P .tx] [Off P .wb] [Off P .col] (a0 : Nat) (a1 : Nat) (a2 : State) : mask P (goOn a0 a1 a2) = mask P a2 := by
  induction a0 generalizing a1 a2 with
  | zero => rfl
  | succ n ih =>
    unfold goOn
    split
    · next t h => rw [ih, stepStream_mask (P := P) _ _ _ h]; simp
    · simp

@[simp] theorem progress_mask [Off P .regs] [Off P .bumps] [Off P .evts] [Off P .ports] [Off P .ips] [Off P .tx] [Off P .wb] [Off P .col] (u : Nat) (s : State) : mask P (progress u s) = mask P s := by
  unfold progress; simp

@[simp] theorem putResult_mask [Off P .ips] [Off P .tx] [Off P .col] (u : Nat) (c : Nat) (sg : Nat) (data : List Byte) (poison : Bool) (s : State) : mask P (putResult u c sg data poison s) = mask P s := by
  unfold putResult; simp

@[simp] theorem putPartial_mask [Off P .tx] [Off P .wb] [Off P .col] (u : Nat) (c : Nat) (sg : Nat) (gen : Nat) (dest : FoldTo) (data : List Byte) (poison : Bool) (s : State) : mask P (putPartial u c sg gen dest data poison s) = mask P s := by
  unfold putPartial; (try dsimp only); (repeat' split) <;> simp

@[simp] theorem streamSegment_mask [Off P .ips] [Off P .tx] [Off P .wb] [Off P .col] (u : Nat) (c : Nat) (sg : Nat) (level : Nat) (gen : Nat) (data : List Byte) (poison : Bool) (s : State) : mask P (streamSegment u c sg level gen data poison s) = mask P s := by
  unfold streamSegment; (try dsimp only); (repeat' split) <;> simp

@[simp] theorem ownInput_mask [Off P .wb] (u : Nat) (c : Nat) (sg : Nat) (gen : Nat) (data : List Byte) (poison : Bool) (s : State) : mask P (ownInput u c sg gen data poison s) = mask P s := by
  unfold ownInput
  dsimp only
  split
  · rfl
  · cases unitOf _ s <;> simp

@[simp] theorem fillSlot_mask [Off P .ips] [Off P .col] (u : Nat) (k : Nat) (n : Nat) (total : Option Nat) (s : State) : mask P (fillSlot u k n total s) = mask P s := by
  unfold fillSlot; simp

@[simp] theorem notePlaced_mask [Off P .ips] [Off P .col] (u : Nat) (src : Nat) (off : Nat) (n : Nat) (aux : Bool) (last : Bool) (s : State) : mask P (notePlaced u src off n aux last s) = mask P s := by
  unfold notePlaced; simp

@[simp] theorem takeCounts_mask [Off P .regs] [Off P .bumps] [Off P .evts] [Off P .ports] [Off P .ips] [Off P .tx] [Off P .wb] [Off P .col] (u : Nat) (off : Nat) (data : List Byte) (s : State) : mask P (takeCounts u off data s) = mask P s := by
  unfold takeCounts; simp

@[simp] theorem streamAnswer_mask [Off P .regs] [Off P .bumps] [Off P .evts] [Off P .ports] [Off P .ips] [Off P .tx] [Off P .wb] [Off P .col] (u : Nat) (w : ColWait) (r : Nat) (data : List Byte) (s0 : State) : mask P (streamAnswer u w r data s0) = mask P s0 := by
  unfold streamAnswer
  dsimp only
  split
  · split
    · simp
    · split <;> simp
  · simp
  · (repeat' split) <;> first | simp | (cases unitOf _ _ <;> simp)
  · split <;> simp
  · split <;> simp
  · cases unitOf _ _ <;> simp
  · cases unitOf _ _ <;> simp
  · (repeat' split) <;> simp
  · split <;> simp
  · (repeat' split) <;> simp
  · (repeat' split) <;> simp
  · (repeat' split) <;> simp
  · simp

@[simp] theorem drainStreams_mask [Off P .regs] [Off P .bumps] [Off P .evts] [Off P .ports] [Off P .ips] [Off P .tx] [Off P .wb] [Off P .col] (a0 : Nat) (a1 : State) : mask P (drainStreams a0 a1) = mask P a1 := by
  induction a0 generalizing a1 <;> first | rfl | (simp [drainStreams, *]; done) | (unfold drainStreams; (try dsimp only); (repeat' split) <;> simp [*])

@[simp] theorem settle_mask [Off P .regs] [Off P .bumps] [Off P .evts] [Off P .ports] [Off P .ips] [Off P .tx] [Off P .wb] [Off P .col] (s : State) : mask P (settle s) = mask P s := by
  unfold settle; simp

theorem settled_mask [Off P .regs] [Off P .bumps] [Off P .evts] [Off P .ports] [Off P .ips] [Off P .tx] [Off P .wb] [Off P .col] (o : Outcome State Fault Refusal) (s : State) (h : ∀ z, o = .next z → mask P z = mask P s) : ∀ z, settled_ o = .next z → mask P z = mask P s := by
  intro z hz
  unfold settled_ at hz
  split at hz
  · next t => simp only [Outcome.next.injEq] at hz; subst hz; rw [settle_mask]; exact h _ rfl
  · exact h _ hz

theorem setGen_mask [Off P .col] (u : Nat) (c : Nat) (sg : Nat) (g : Nat) (s : State) : ∀ z, setGen u c sg g s = some z → mask P z = mask P s := by
  intro r h; unfold setGen at h; (try dsimp only at h); (repeat' split at h) <;> cases h <;> simp

@[simp] theorem staleFold_mask [Off P .regs] [Off P .bumps] [Off P .evts] [Off P .ports] [Off P .ips] [Off P .tx] (k : Contrib) (s : State) : mask P (staleFold k s) = mask P s := by
  unfold staleFold; simp

@[simp] theorem discardOpen_mask [Off P .regs] [Off P .bumps] [Off P .evts] [Off P .ports] [Off P .ips] [Off P .tx] [Off P .wb] [Off P .col] (u : Nat) (c : Nat) (sg : Nat) (g : Nat) (s : State) : mask P (discardOpen u c sg g s) = mask P s := by
  unfold discardOpen; simp

@[simp] theorem redo_mask [Off P .col] (u : Nat) (c : Nat) (sg : Nat) (s : State) : mask P (redo u c sg s) = mask P s := by
  unfold redo; simp

@[simp] theorem restartSeg_mask [Off P .regs] [Off P .bumps] [Off P .evts] [Off P .ports] [Off P .ips] [Off P .tx] [Off P .wb] [Off P .col] (u : Nat) (c : Nat) (sg : Nat) (g : Nat) (s : State) : mask P (restartSeg u c sg g s) = mask P s := by
  unfold restartSeg
  dsimp only
  split
  · rfl
  · split
    · simp
    · next t h => have := setGen_mask (P := P) _ _ _ _ _ _ h; split <;> simp [this]

@[simp] theorem loseSegment_mask [Off P .regs] [Off P .bumps] [Off P .evts] [Off P .ports] [Off P .ips] [Off P .tx] [Off P .wb] [Off P .col] (u : Nat) (c : Nat) (sg : Nat) (s : State) : mask P (loseSegment u c sg s) = mask P s := by
  unfold loseSegment
  dsimp only
  (repeat' split) <;> first
    | rfl
    | (simp; done)
    | (rw [restartSeg_mask, foldl_mask (P := P) (h := fun t m => colSend_mask (P := P) ..)]; simp; done)

@[simp] theorem outOfRange_mask [Off P .evts] (s : State) : mask P (outOfRange s) = mask P s := by
  unfold outOfRange; simp

@[simp] theorem colGo_mask [Off P .evts] [Off P .ips] [Off P .col] (u : Nat) (s : State) : mask P (colGo u s) = mask P s := by
  unfold colGo; simp

theorem execColGo_mask [Off P .evts] [Off P .bnd] [Off P .ips] [Off P .col] (u : StreamId) (s : State) : ∀ z, execColGo u s = .next z → mask P z = mask P s := by
  intro r h; unfold execColGo at h; cases h; simp

theorem execColAbort_mask [Off P .regs] [Off P .bumps] [Off P .evts] [Off P .bnd] [Off P .ports] [Off P .ips] [Off P .tx] [Off P .wb] [Off P .col] (u : StreamId) (s : State) : ∀ z, execColAbort u s = .next z → mask P z = mask P s := by
  intro r h; unfold execColAbort at h; cases h; simp

@[simp] theorem reserve_mask [Off P .evts] [Off P .col] (u : Nat) (s : State) : mask P (reserve u s) = mask P s := by
  unfold reserve; simp

@[simp] theorem grpUncorr_mask [Off P .free] [Off P .flt] [Off P .banks] [Off P .tst] (g : Nat) (s : State) : mask P (grpUncorr g s) = mask P s := by
  unfold grpUncorr; simp

theorem execColDescriptorRx_mask [Off P .free] [Off P .regs] [Off P .bumps] [Off P .evts] [Off P .flt] [Off P .ports] [Off P .banks] [Off P .ips] [Off P .tx] [Off P .wb] [Off P .col] [Off P .tst] (c : Checked StreamId) (s : State) : ∀ z, execColDescriptorRx c s = .next z → mask P z = mask P s := by
  intro r h; unfold execColDescriptorRx at h; (try dsimp only at h); (repeat' split at h) <;> cases h <;> simp

theorem execScratchReserved_mask [Off P .evts] [Off P .col] (u : StreamId) (s : State) : ∀ z, execScratchReserved u s = .next z → mask P z = mask P s := by
  intro r h; unfold execScratchReserved at h; (try dsimp only at h); (repeat' split at h) <;> cases h <;> simp

@[simp] theorem enterRun_mask [Off P .ips] [Off P .tx] [Off P .col] (u : Nat) (s : State) : mask P (enterRun u s) = mask P s := by
  unfold enterRun; simp

theorem execColStartTick_mask [Off P .regs] [Off P .bumps] [Off P .evts] [Off P .ports] [Off P .ips] [Off P .tx] [Off P .wb] [Off P .col] (u : StreamId) (s : State) : ∀ z, execColStartTick u s = .next z → mask P z = mask P s := by
  intro r h; unfold execColStartTick at h; (try dsimp only at h); (repeat' split at h) <;> cases h <;> simp

@[simp] theorem answerReduce_mask [Off P .regs] [Off P .bumps] [Off P .evts] [Off P .ports] [Off P .ips] [Off P .tx] (p : Nat) (c : CupPkt) (r : Nat) (s : State) : mask P (answerReduce p c r s) = mask P s := by
  unfold answerReduce; simp

@[simp] theorem noStream_mask [Off P .regs] [Off P .bumps] [Off P .evts] [Off P .ports] [Off P .ips] [Off P .tx] (p : Nat) (c : CupPkt) (s : State) : mask P (noStream p c s) = mask P s := by
  unfold noStream; simp

@[simp] theorem reduceGate_mask [Off P .regs] [Off P .bumps] [Off P .evts] [Off P .ports] [Off P .tx] (p : Nat) (c : CupPkt) (f : State → State) (s : State) (h_f : ∀ v0, mask P (f v0) = mask P v0) : mask P (reduceGate p c f s) = mask P s := by
  unfold reduceGate; (try dsimp only); (repeat' split) <;> simp [*]

theorem onReduce_mask [Off P .free] [Off P .regs] [Off P .bumps] [Off P .evts] [Off P .flt] [Off P .ports] [Off P .ips] [Off P .tx] [Off P .wb] [Off P .col] [Off P .tst] (p : Nat) (f : Nat → Bool) (bad : Bool) (h : CupPkt → State → State) (s : State) (h_h : ∀ v0 v1, mask P (h v0 v1) = mask P v1) : ∀ z, onReduce p f bad h s = .next z → mask P z = mask P s := by
  intro t h'; unfold onReduce at h'
  (repeat' split at h') <;> cases h' <;> simp [h_h]

@[simp] theorem admitFold_mask [Off P .regs] [Off P .bumps] [Off P .evts] [Off P .ports] [Off P .ips] [Off P .tx] [Off P .wb] [Off P .col] (p : Nat) (u : Nat) (c : CupPkt) (k : Contrib) (ch : Nat) (sg : Nat) (s : State) : mask P (admitFold p u c k ch sg s) = mask P s := by
  unfold admitFold; (try dsimp only); (repeat' split) <;> simp

@[simp] theorem foldRx_mask [Off P .regs] [Off P .bumps] [Off P .evts] [Off P .ports] [Off P .ips] [Off P .tx] [Off P .wb] [Off P .col] (p : Nat) (c : CupPkt) (s : State) : mask P (foldRx p c s) = mask P s := by
  unfold foldRx; (try dsimp only); (repeat' split) <;> simp

theorem execReduceFoldRx_mask [Off P .free] [Off P .regs] [Off P .bumps] [Off P .evts] [Off P .flt] [Off P .ports] [Off P .ips] [Off P .tx] [Off P .wb] [Off P .col] [Off P .tst] (p : PortId) (bad : Bool) (s : State) : ∀ z, execReduceFoldRx p bad s = .next z → mask P z = mask P s := by
  exact onReduce_mask (P := P) _ _ _ _ _ (fun c t => foldRx_mask (P := P) p c t)

@[simp] theorem memberRx_mask [Off P .regs] [Off P .bumps] [Off P .evts] [Off P .ports] [Off P .ips] [Off P .tx] (p : Nat) (wait : Bool) (c : CupPkt) (f : Nat → State → State) (s : State) (h_f : ∀ v0 v1, mask P (f v0 v1) = mask P v1) : mask P (memberRx p wait c f s) = mask P s := by
  unfold memberRx; (try dsimp only); (repeat' split) <;> simp [*]

@[simp] theorem placeRx_mask [Off P .regs] [Off P .bumps] [Off P .evts] [Off P .ports] [Off P .ips] [Off P .tx] [Off P .col] (p : Nat) (c : CupPkt) (s0 : State) : mask P (placeRx p c s0) = mask P s0 := by
  unfold placeRx; (try dsimp only); (repeat' split) <;> simp

theorem execReducePlaceRx_mask [Off P .free] [Off P .regs] [Off P .bumps] [Off P .evts] [Off P .flt] [Off P .ports] [Off P .ips] [Off P .tx] [Off P .wb] [Off P .col] [Off P .tst] (p : PortId) (bad : Bool) (s : State) : ∀ z, execReducePlaceRx p bad s = .next z → mask P z = mask P s := by
  exact onReduce_mask (P := P) _ _ _ _ _ (fun c t => placeRx_mask (P := P) p c t)

theorem execReduceReadyRx_mask [Off P .free] [Off P .regs] [Off P .bumps] [Off P .evts] [Off P .flt] [Off P .ports] [Off P .ips] [Off P .tx] [Off P .wb] [Off P .col] [Off P .tst] (p : PortId) (bad : Bool) (s : State) : ∀ z, execReduceReadyRx p bad s = .next z → mask P z = mask P s := by
  refine onReduce_mask (P := P) _ _ _ _ _ (fun c t => ?_)
  rw [memberRx_mask]; intro u t; simp

theorem execReduceRestartRx_mask [Off P .free] [Off P .regs] [Off P .bumps] [Off P .evts] [Off P .flt] [Off P .ports] [Off P .ips] [Off P .tx] [Off P .wb] [Off P .col] [Off P .tst] (p : PortId) (bad : Bool) (s : State) : ∀ z, execReduceRestartRx p bad s = .next z → mask P z = mask P s := by
  refine onReduce_mask (P := P) _ _ _ _ _ (fun c t => ?_)
  rw [memberRx_mask]; intro u t; simp

theorem execReduceAbortRx_mask [Off P .free] [Off P .regs] [Off P .bumps] [Off P .evts] [Off P .flt] [Off P .ports] [Off P .ips] [Off P .tx] [Off P .wb] [Off P .col] [Off P .tst] (p : PortId) (bad : Bool) (s : State) : ∀ z, execReduceAbortRx p bad s = .next z → mask P z = mask P s := by
  refine onReduce_mask (P := P) _ _ _ _ _ (fun c t => ?_)
  rw [memberRx_mask]; intro u t; simp

theorem execOrderStall_mask [Off P .evts] [Off P .wb] [Off P .col] (u : WbId) (s : State) : ∀ z, execOrderStall u s = .next z → mask P z = mask P s := by
  intro r h; unfold execOrderStall at h; (try dsimp only at h); (repeat' split at h) <;> cases h <;> simp

@[simp] theorem colEdge_mask [Off P .regs] [Off P .bumps] [Off P .evts] [Off P .ports] [Off P .ips] [Off P .tx] [Off P .wb] [Off P .col] (line : Nat) (s : State) : mask P (colEdge line s) = mask P s := by
  unfold colEdge; simp

@[simp] theorem groupsChanged_mask [Off P .regs] [Off P .bumps] [Off P .evts] [Off P .ports] [Off P .ips] [Off P .tx] [Off P .wb] [Off P .col] (old : State) (s : State) : mask P (groupsChanged old s) = mask P s := by
  unfold groupsChanged; simp

@[simp] theorem updChan_mask [Off P .dma] (c : Nat) (f : Chan → Chan) (s : State) : mask P (updChan c f s) = mask P s := by
  unfold updChan; simp

@[simp] theorem chanFail_mask [Off P .regs] [Off P .bumps] [Off P .dma] (c : Nat) (f : DmaFail) (s : State) : mask P (chanFail c f s) = mask P s := by
  unfold chanFail; simp

@[simp] theorem engineLost_mask [Off P .regs] [Off P .bumps] [Off P .dma] (c : Nat) (dir : Nat) (s : State) : mask P (engineLost c dir s) = mask P s := by
  unfold engineLost; simp

@[simp] theorem chanReject_mask [Off P .regs] [Off P .bumps] [Off P .dma] (c : Nat) (code : Nat) (at_ : Nat) (hop : Nat) (s : State) : mask P (chanReject c code at_ hop s) = mask P s := by
  unfold chanReject; simp

@[simp] theorem clearRequant_mask [Off P .wb] (c : Nat) (s : State) : mask P (clearRequant c s) = mask P s := by
  unfold clearRequant; simp

@[simp] theorem homeEngines_mask [Off P .regs] (c : Nat) (s : State) : mask P (homeEngines c s) = mask P s := by
  unfold homeEngines; simp

@[simp] theorem beginDesc_mask [Off P .regs] [Off P .bumps] [Off P .dma] (c : Nat) (at_ : Nat) (img : List Nat) (credit : Nat) (s : State) : mask P (beginDesc c at_ img credit s) = mask P s := by
  unfold beginDesc; simp

@[simp] theorem takeShadow_mask [Off P .regs] [Off P .bumps] [Off P .dma] (c : Nat) (s : State) : mask P (takeShadow c s) = mask P s := by
  unfold takeShadow; simp

@[simp] theorem startPiece_mask [Off P .regs] [Off P .bumps] [Off P .dma] (c : Nat) (s : State) : mask P (startPiece c s) = mask P s := by
  unfold startPiece; (try dsimp only); (repeat' split) <;> simp

@[simp] theorem completeDesc_mask [Off P .regs] [Off P .bumps] [Off P .evts] [Off P .dma] (c : Nat) (status : Nat) (skipped : Bool) (s : State) : mask P (completeDesc c status skipped s) = mask P s := by
  unfold completeDesc; simp

@[simp] theorem ringDone_mask [Off P .regs] [Off P .bumps] [Off P .evts] [Off P .dma] (c : Nat) (s : State) : mask P (ringDone c s) = mask P s := by
  unfold ringDone; (try dsimp only); (repeat' split) <;> simp

@[simp] theorem nextPiece_mask [Off P .regs] [Off P .bumps] [Off P .evts] [Off P .dma] (c : Nat) (k : Piece) (s : State) : mask P (nextPiece c k s) = mask P s := by
  unfold nextPiece; (try dsimp only); (repeat' split) <;> simp

@[simp] theorem issueDma_mask [Off P .regs] [Off P .bumps] [Off P .evts] [Off P .ports] [Off P .ips] [Off P .tx] (c : Nat) (q : DmaAsk) (n : Nat) (s : State) : mask P (issueDma c q n s) = mask P s := by
  unfold issueDma; simp

@[simp] theorem grantTo_mask [Off P .regs] [Off P .bumps] [Off P .evts] [Off P .ports] [Off P .ips] [Off P .tx] [Off P .dma] [Off P .granted] (e : Nat) (c : Nat) (q : DmaAsk) (s : State) : mask P (grantTo e c q s) = mask P s := by
  unfold grantTo; simp

@[simp] theorem passNulls_mask [Off P .dma] (a0 : Nat) (a1 : Nat) (a2 : State) : mask P (passNulls a0 a1 a2) = mask P a2 := by
  induction a0 generalizing a1 a2 <;> first | rfl | (simp [passNulls, *]; done) | (unfold passNulls; (try dsimp only); (repeat' split) <;> simp [*])

@[simp] theorem feedRequant_mask [Off P .regs] [Off P .bumps] [Off P .wb] [Off P .dma] (c : Nat) (s : State) : mask P (feedRequant c s) = mask P s := by
  unfold feedRequant; (try dsimp only); (repeat' split) <;> simp

@[simp] theorem runFence_mask [Off P .regs] [Off P .bumps] [Off P .tx] [Off P .dma] (c : Nat) (s : State) : mask P (runFence c s) = mask P s := by
  unfold runFence; (try dsimp only); (repeat' split) <;> simp

@[simp] theorem chanGo_mask [Off P .regs] [Off P .bumps] [Off P .evts] [Off P .tx] [Off P .wb] [Off P .dma] (a0 : Nat) (a1 : Nat) (a2 : State) : mask P (chanGo a0 a1 a2) = mask P a2 := by
  induction a0 generalizing a1 a2 <;> first | rfl | (simp [chanGo, *]; done) | (unfold chanGo; (try dsimp only); (repeat' split) <;> simp [*])

@[simp] theorem chansGo_mask [Off P .regs] [Off P .bumps] [Off P .evts] [Off P .tx] [Off P .wb] [Off P .dma] (e : Nat) (s : State) : mask P (chansGo e s) = mask P s := by
  unfold chansGo; simp

@[simp] theorem dresserFail_mask [Off P .free] [Off P .regs] [Off P .bumps] [Off P .flt] [Off P .dma] [Off P .tst] (e : Nat) (c : Nat) (pos : Nat) (s : State) : mask P (dresserFail e c pos s) = mask P s := by
  unfold dresserFail; (try dsimp only); (repeat' split) <;> simp

theorem execDmaEngineGrant_mask [Off P .free] [Off P .regs] [Off P .bumps] [Off P .evts] [Off P .flt] [Off P .ports] [Off P .ips] [Off P .tx] [Off P .wb] [Off P .col] [Off P .dma] [Off P .granted] [Off P .tst] (e : Fin 16) (bad : Bool) (s : State) : ∀ z, execDmaEngineGrant e bad s = .next z → mask P z = mask P s := by
  intro r h; unfold execDmaEngineGrant at h; (try dsimp only at h); (repeat' split at h) <;> cases h <;> simp

@[simp] theorem unlessRefused_mask [Off P .evts] (cmd : Nat) (c : Nat) (f : State → State) (s : State) (h_f : ∀ v0, mask P (f v0) = mask P v0) : mask P (unlessRefused cmd c f s) = mask P s := by
  unfold unlessRefused; (try dsimp only); (repeat' split) <;> simp [*]

@[simp] theorem dmaStart_mask [Off P .regs] [Off P .bumps] [Off P .evts] [Off P .dma] (c : Nat) (a1 : State) : mask P (dmaStart c a1) = mask P a1 := by
  unfold dmaStart; simp

@[simp] theorem dmaLoad_mask [Off P .regs] [Off P .bumps] [Off P .evts] [Off P .dma] (c : Nat) (a1 : State) : mask P (dmaLoad c a1) = mask P a1 := by
  unfold dmaLoad; simp

@[simp] theorem dmaDoorbell_mask [Off P .evts] [Off P .dma] (c : Nat) (a1 : State) : mask P (dmaDoorbell c a1) = mask P a1 := by
  unfold dmaDoorbell unlessRefused
  split
  · simp
  · dsimp only; split <;> simp

@[simp] theorem dmaStop_mask [Off P .evts] [Off P .dma] (c : Nat) (a1 : State) : mask P (dmaStop c a1) = mask P a1 := by
  unfold dmaStop unlessRefused
  dsimp only
  (repeat' split) <;> simp

@[simp] theorem dmaResume_mask [Off P .regs] [Off P .bumps] [Off P .evts] [Off P .dma] (c : Nat) (a1 : State) : mask P (dmaResume c a1) = mask P a1 := by
  unfold dmaResume; simp

@[simp] theorem dmaSkip_mask [Off P .regs] [Off P .bumps] [Off P .evts] [Off P .dma] (c : Nat) (a1 : State) : mask P (dmaSkip c a1) = mask P a1 := by
  unfold dmaSkip; simp

@[simp] theorem dmaReset_mask [Off P .regs] [Off P .evts] [Off P .wb] [Off P .dma] (c : Nat) (a1 : State) : mask P (dmaReset c a1) = mask P a1 := by
  unfold dmaReset; simp

@[simp] theorem countEdge_mask [Off P .regs] [Off P .evts] [Off P .dma] (c : Nat) (s0 : State) : mask P (countEdge c s0) = mask P s0 := by
  unfold countEdge; simp

@[simp] theorem dmaEdge_mask [Off P .regs] [Off P .evts] [Off P .dma] (line : Nat) (s : State) : mask P (dmaEdge line s) = mask P s := by
  unfold dmaEdge; simp

theorem execDmaStart_mask [Off P .regs] [Off P .bumps] [Off P .evts] [Off P .bnd] [Off P .dma] (c : ChanId) (s : State) : ∀ z, execDmaStart c s = .next z → mask P z = mask P s := by
  intro r h; unfold execDmaStart at h; cases h; simp

theorem execDmaLoad_mask [Off P .regs] [Off P .bumps] [Off P .evts] [Off P .bnd] [Off P .dma] (c : ChanId) (s : State) : ∀ z, execDmaLoad c s = .next z → mask P z = mask P s := by
  intro r h; unfold execDmaLoad at h; cases h; simp

theorem execDmaDoorbell_mask [Off P .evts] [Off P .bnd] [Off P .dma] (c : ChanId) (s : State) : ∀ z, execDmaDoorbell c s = .next z → mask P z = mask P s := by
  intro r h; unfold execDmaDoorbell at h; cases h; simp

theorem execDmaStop_mask [Off P .evts] [Off P .bnd] [Off P .dma] (c : ChanId) (s : State) : ∀ z, execDmaStop c s = .next z → mask P z = mask P s := by
  intro r h; unfold execDmaStop at h; cases h; simp

theorem execDmaResume_mask [Off P .regs] [Off P .bumps] [Off P .evts] [Off P .bnd] [Off P .dma] (c : ChanId) (s : State) : ∀ z, execDmaResume c s = .next z → mask P z = mask P s := by
  intro r h; unfold execDmaResume at h; cases h; simp

theorem execDmaSkip_mask [Off P .regs] [Off P .bumps] [Off P .evts] [Off P .bnd] [Off P .dma] (c : ChanId) (s : State) : ∀ z, execDmaSkip c s = .next z → mask P z = mask P s := by
  intro r h; unfold execDmaSkip at h; cases h; simp

theorem execDmaReset_mask [Off P .regs] [Off P .evts] [Off P .bnd] [Off P .wb] [Off P .dma] (c : ChanId) (s : State) : ∀ z, execDmaReset c s = .next z → mask P z = mask P s := by
  intro r h; unfold execDmaReset at h; cases h; simp

theorem execDmaSwedge_mask [Off P .regs] [Off P .evts] [Off P .bnd] [Off P .dma] (c : ChanId) (s : State) : ∀ z, execDmaSwedge c s = .next z → mask P z = mask P s := by
  intro r h; unfold execDmaSwedge at h; cases h; simp

theorem takeAnswer_mask [Off P .tx] [Off P .dma] (c : Nat) (f : DmaJob → Bool) (s : State) : ∀ a b z, takeAnswer c f s = some (a, b, z) → mask P z = mask P s := by
  intro a b r h; unfold takeAnswer at h; dsimp only at h; 
  split at h
  · cases h
  · simp only [Option.map_eq_some_iff, Prod.mk.injEq] at h
    obtain ⟨w, -, -, -, rfl⟩ := h
    simp

@[simp] theorem answerFail_mask [Off P .regs] [Off P .bumps] [Off P .dma] (c : Nat) (w : DmaWait) (code : Nat) (dir : Nat) (r : Nat) (pos : Nat) (s : State) : mask P (answerFail c w code dir r pos s) = mask P s := by
  unfold answerFail; simp

@[simp] theorem headFetched_mask [Off P .regs] [Off P .bumps] [Off P .evts] [Off P .tx] [Off P .wb] [Off P .dma] (c : Nat) (r : Nat) (w : DmaWait) (img : List Nat) (s : State) : mask P (headFetched c r w img s) = mask P s := by
  unfold headFetched; simp

theorem execDescriptorFetched_mask [Off P .regs] [Off P .bumps] [Off P .evts] [Off P .tx] [Off P .wb] [Off P .dma] (c : ChanId) (s : State) : ∀ z, execDescriptorFetched c s = .next z → mask P z = mask P s := by
  intro z h; unfold execDescriptorFetched at h
  split at h
  · simp only [Outcome.next.injEq] at h; subst h; rfl
  · split at h
    · simp only [Outcome.next.injEq] at h; subst h; rfl
    · next a w t h1 =>
      have h2 := takeAnswer_mask (P := P) _ _ _ _ _ _ h1
      dsimp only at h
      (repeat' split at h) <;> simp only [Outcome.next.injEq] at h <;> subst h <;> simp [h2]

theorem execExtensionFetched_mask [Off P .regs] [Off P .bumps] [Off P .evts] [Off P .tx] [Off P .wb] [Off P .dma] (c : ChanId) (s : State) : ∀ z, execExtensionFetched c s = .next z → mask P z = mask P s := by
  intro z h; unfold execExtensionFetched at h
  split at h
  · simp only [Outcome.next.injEq] at h; subst h; rfl
  · split at h
    · simp only [Outcome.next.injEq] at h; subst h; rfl
    · next a w t h1 =>
      have h2 := takeAnswer_mask (P := P) _ _ _ _ _ _ h1
      dsimp only at h
      (repeat' split at h) <;> simp only [Outcome.next.injEq] at h <;> subst h <;> simp [h2]

@[simp] theorem indexPart_mask [Off P .regs] [Off P .bumps] [Off P .dma] (c : Nat) (w : DmaWait) (r : Nat) (data : List Byte) (off : Nat) (s : State) : mask P (indexPart c w r data off s) = mask P s := by
  unfold indexPart; simp

@[simp] theorem writeAnswered_mask [Off P .regs] [Off P .bumps] [Off P .dma] (c : Nat) (w : DmaWait) (pos : Nat) (n : Nat) (r : Nat) (s : State) : mask P (writeAnswered c w pos n r s) = mask P s := by
  unfold writeAnswered; simp

@[simp] theorem readAnswered_mask [Off P .regs] [Off P .bumps] [Off P .dma] (c : Nat) (w : DmaWait) (pos : Nat) (n : Nat) (r : Nat) (data : List Byte) (s : State) : mask P (readAnswered c w pos n r data s) = mask P s := by
  unfold readAnswered; simp

theorem execDmaTransactionAnswer_mask [Off P .regs] [Off P .bumps] [Off P .evts] [Off P .tx] [Off P .wb] [Off P .dma] (c : ChanId) (s : State) : ∀ z, execDmaTransactionAnswer c s = .next z → mask P z = mask P s := by
  intro z h; unfold execDmaTransactionAnswer at h
  split at h
  · simp only [Outcome.next.injEq] at h; subst h; rfl
  · split at h
    · simp only [Outcome.next.injEq] at h; subst h; rfl
    · next a w t h1 =>
      have h2 := takeAnswer_mask (P := P) _ _ _ _ _ _ h1
      simp only [Outcome.next.injEq] at h; subst h
      rw [chanGo_mask]
      split <;> simp [h2]

theorem execIndexCheckPass_mask [Off P .regs] [Off P .bumps] [Off P .evts] [Off P .tx] [Off P .wb] [Off P .dma] (c : ChanId) (s : State) : ∀ z, execIndexCheckPass c s = .next z → mask P z = mask P s := by
  intro r h; unfold execIndexCheckPass at h; (try dsimp only at h); (repeat' split at h) <;> cases h <;> simp

theorem execWriteBackAnswer_mask [Off P .regs] [Off P .bumps] [Off P .evts] [Off P .tx] [Off P .wb] [Off P .dma] (c : ChanId) (s : State) : ∀ z, execWriteBackAnswer c s = .next z → mask P z = mask P s := by
  intro z h; unfold execWriteBackAnswer at h
  split at h
  · simp only [Outcome.next.injEq] at h; subst h; rfl
  · split at h
    · simp only [Outcome.next.injEq] at h; subst h; rfl
    · next a w t h1 =>
      have h2 := takeAnswer_mask (P := P) _ _ _ _ _ _ h1
      split at h <;> simp only [Outcome.next.injEq] at h <;> subst h <;> simp [h2]

theorem execBurstStart_mask [Off P .regs] [Off P .bumps] [Off P .evts] [Off P .tx] [Off P .wb] [Off P .dma] (c : ChanId) (s : State) : ∀ z, execBurstStart c s = .next z → mask P z = mask P s := by
  intro r h; unfold execBurstStart at h; (try dsimp only at h); (repeat' split at h) <;> cases h <;> simp

theorem execHalt_mask [Off P .evts] [Off P .wb] [Off P .dma] (c : ChanId) (s : State) : ∀ z, execHalt c s = .next z → mask P z = mask P s := by
  intro r h; unfold execHalt at h; (try dsimp only at h); (repeat' split at h) <;> cases h <;> simp

theorem execDmaStall_mask [Off P .evts] [Off P .dma] (c : ChanId) (s : State) : ∀ z, execDmaStall c s = .next z → mask P z = mask P s := by
  intro r h; unfold execDmaStall at h; (try dsimp only at h); (repeat' split at h) <;> cases h <;> simp

@[simp] theorem restartDesc_mask [Off P .regs] [Off P .bumps] [Off P .wb] [Off P .dma] (c : Nat) (dir : Nat) (keep : DmaWait → Bool) (s : State) : mask P (restartDesc c dir keep s) = mask P s := by
  unfold restartDesc; simp

@[simp] theorem remap_mask [Off P .regs] [Off P .bumps] [Off P .evts] [Off P .wb] [Off P .dma] (e : Nat) (c : Nat) (s : State) : mask P (remap e c s) = mask P s := by
  unfold remap; split <;> simp

@[simp] theorem loseEngine_mask [Off P .regs] [Off P .bumps] [Off P .evts] [Off P .wb] [Off P .dma] (e : Nat) (s : State) : mask P (loseEngine e s) = mask P s := by
  unfold loseEngine; simp

theorem execDmaEngineLost_mask [Off P .flt] [Off P .leaving] (e : Fin 16) (s : State) : ∀ z, execDmaEngineLost e s = .next z → mask P z = mask P s := by
  intro r h; unfold execDmaEngineLost at h; (try dsimp only at h); (repeat' split at h) <;> cases h <;> simp

theorem execHrspTransfer_mask [Off P .free] [Off P .regs] [Off P .bumps] [Off P .evts] [Off P .ports] [Off P .ips] [Off P .tx] [Off P .wb] [Off P .col] (ip : IpId) (hdr : Option (BitVec 128)) (beats : List Beat) (s : State) : ∀ z, execHrspTransfer ip hdr beats s = .next z → mask P z = mask P s := by
  unfold execHrspTransfer
  intro z h; split at h <;> simp only [Outcome.next.injEq] at h <;> subst h <;> simp

theorem execHreqTimeout_mask [Off P .free] [Off P .regs] [Off P .bumps] [Off P .evts] [Off P .ports] [Off P .ips] [Off P .tx] [Off P .wb] [Off P .col] (ip : IpId) (tag : Tag) (s : State) : ∀ z, execHreqTimeout ip tag s = .next z → mask P z = mask P s := by
  exact settled_mask (P := P) _ _ (coreHreqTimeout_mask (P := P) _ _ _)

theorem execRequestCommit_mask [Off P .free] [Off P .regs] [Off P .bumps] [Off P .evts] [Off P .flt] [Off P .ports] [Off P .ips] [Off P .tx] [Off P .wb] [Off P .col] [Off P .prot] [Off P .tst] (s : State) : ∀ z, execRequestCommit s = .next z → mask P z = mask P s := by
  exact settled_mask (P := P) _ _ (coreRequestCommit_mask (P := P) _)

theorem execResponseRx_mask [Off P .free] [Off P .regs] [Off P .bumps] [Off P .evts] [Off P .flt] [Off P .ports] [Off P .ips] [Off P .tx] [Off P .wb] [Off P .col] [Off P .tst] (p : PortId) (bad : Bool) (s : State) : ∀ z, execResponseRx p bad s = .next z → mask P z = mask P s := by
  intro r h; unfold execResponseRx at h; (try dsimp only at h); (repeat' split at h) <;> cases h <;> simp

theorem execRspTimeout_mask [Off P .regs] [Off P .bumps] [Off P .evts] [Off P .flt] [Off P .ports] [Off P .ips] [Off P .tx] [Off P .wb] [Off P .col] (dst : BitVec 18) (txid : BitVec 20) (s : State) : ∀ z, execRspTimeout dst txid s = .next z → mask P z = mask P s := by
  exact settled_mask (P := P) _ _ (coreRspTimeout_mask (P := P) _ _ _)

theorem execBusyResend_mask [Off P .regs] [Off P .bumps] [Off P .evts] [Off P .flt] [Off P .ports] [Off P .ips] [Off P .tx] [Off P .wb] [Off P .col] (dst : BitVec 18) (txid : BitVec 20) (s : State) : ∀ z, execBusyResend dst txid s = .next z → mask P z = mask P s := by
  exact settled_mask (P := P) _ _ (coreBusyResend_mask (P := P) _ _ _)

theorem execPortLost_mask [Off P .free] [Off P .regs] [Off P .bumps] [Off P .evts] [Off P .flt] [Off P .lanes] [Off P .ports] [Off P .ips] [Off P .tx] [Off P .wb] [Off P .col] [Off P .prot] [Off P .tst] (p : Checked PortId) (s : State) : ∀ z, execPortLost p s = .next z → mask P z = mask P s := by
  exact settled_mask (P := P) _ _ (corePortLost_mask (P := P) _ _)

theorem execColdTraining_mask [Off P .regs] [Off P .bumps] [Off P .evts] [Off P .flt] [Off P .blsb] [Off P .lanes] [Off P .ports] [Off P .ips] [Off P .tx] [Off P .wb] [Off P .col] (p : PortId) (s : State) : ∀ z, execColdTraining p s = .next z → mask P z = mask P s := by
  exact settled_mask (P := P) _ _ (coreColdTraining_mask (P := P) _ _)

theorem execDrainTimeout_mask [Off P .regs] [Off P .bumps] [Off P .evts] [Off P .flt] [Off P .ports] [Off P .ips] [Off P .tx] [Off P .wb] [Off P .col] (p : PortId) (s : State) : ∀ z, execDrainTimeout p s = .next z → mask P z = mask P s := by
  exact settled_mask (P := P) _ _ (coreDrainTimeout_mask (P := P) _ _)

@[simp] theorem chanEncoded_mask [Off P .regs] [Off P .bumps] [Off P .evts] [Off P .tx] [Off P .wb] [Off P .dma] (c : Nat) (n : Nat) (data : List Byte) (poison : Bool) (s : State) : mask P (chanEncoded c n data poison s) = mask P s := by
  unfold chanEncoded; (try dsimp only); (repeat' split) <;> simp

@[simp] theorem allProgress_mask [Off P .regs] [Off P .bumps] [Off P .evts] [Off P .ports] [Off P .ips] [Off P .tx] [Off P .wb] [Off P .col] (s : State) : mask P (allProgress s) = mask P s := by
  unfold allProgress; simp

theorem execSegmentEncoded_mask [Off P .free] [Off P .regs] [Off P .bumps] [Off P .evts] [Off P .ports] [Off P .ips] [Off P .tx] [Off P .wb] [Off P .col] [Off P .dma] (u : WbId) (s : State) : ∀ z, execSegmentEncoded u s = .next z → mask P z = mask P s := by
  intro z h; unfold execSegmentEncoded at h
  split at h
  · simp only [Outcome.next.injEq] at h; subst h; rfl
  · split at h
    · simp only [Outcome.next.injEq] at h; subst h; rfl
    · next g bs t h1 =>
      have h2 := takeEncoded_mask (P := P) _ _ _ _ _ h1
      split at h <;> simp only [Outcome.next.injEq] at h <;> subst h <;> simp [h2]

@[simp] theorem emptyUnit_mask [Off P .wb] (u : Nat) (s : State) : mask P (emptyUnit u s) = mask P s := by
  unfold emptyUnit; simp

@[simp] theorem loseUnit_mask [Off P .regs] [Off P .bumps] [Off P .evts] [Off P .ports] [Off P .ips] [Off P .tx] [Off P .wb] [Off P .col] [Off P .dma] (u : Nat) (s : State) : mask P (loseUnit u s) = mask P s := by
  unfold loseUnit; simp

@[simp] theorem poisonUnit_mask [Off P .regs] [Off P .bumps] [Off P .evts] [Off P .ports] [Off P .ips] [Off P .tx] [Off P .wb] [Off P .col] [Off P .dma] (u : Nat) (s : State) : mask P (poisonUnit u s) = mask P s := by
  unfold poisonUnit; simp

@[simp] theorem enterRec_mask [Off P .regs] [Off P .bumps] [Off P .evts] [Off P .flt] (r0 : FaultRec) (s : State) : mask P (enterRec r0 s) = mask P s := by
  unfold enterRec; simp

@[simp] theorem enterAllHeld_mask [Off P .regs] [Off P .bumps] [Off P .evts] [Off P .flt] (a0 : Nat) (a1 : State) : mask P (enterAllHeld a0 a1) = mask P a1 := by
  induction a0 generalizing a1 <;> first | rfl | (simp [enterAllHeld, *]; done) | (unfold enterAllHeld; (try dsimp only); (repeat' split) <;> simp [*])

theorem execFaultLogEntry_mask [Off P .regs] [Off P .bumps] [Off P .evts] [Off P .flt] (s : State) : ∀ z, execFaultLogEntry s = .next z → mask P z = mask P s := by
  intro r h; unfold execFaultLogEntry at h; (try dsimp only at h); (repeat' split at h) <;> cases h <;> simp

@[simp] theorem clearLog_mask [Off P .flt] (s : State) : mask P (clearLog s) = mask P s := by
  unfold clearLog; simp

@[simp] theorem updQuad_mask [Off P .quads] (q : Nat) (f : Quad → Quad) (s : State) : mask P (updQuad q f s) = mask P s := by
  unfold updQuad; simp

@[simp] theorem setEng_mask [Off P .regs] [Off P .evts] (p : Nat) (e : Nat) (s : State) : mask P (setEng p e s) = mask P s := by
  unfold setEng; simp

@[simp] theorem retireEng_mask [Off P .regs] (q : Nat) (e : Nat) (s : State) : mask P (retireEng q e s) = mask P s := by
  unfold retireEng; simp

@[simp] theorem noShadow_mask [Off P .regs] [Off P .evts] (q : Nat) (s : State) : mask P (noShadow q s) = mask P s := by
  unfold noShadow; simp

@[simp] theorem detach_mask [Off P .quads] (q : Nat) (s : State) : mask P (detach q s) = mask P s := by
  unfold detach; simp

@[simp] theorem stopPort_mask [Off P .ports] (p : Nat) (s : State) : mask P (stopPort p s) = mask P s := by
  unfold stopPort; simp

theorem execShadowAttach_mask [Off P .quads] (q : QuadId) (s : State) : ∀ z, execShadowAttach q s = .next z → mask P z = mask P s := by
  intro r h; unfold execShadowAttach at h; (try dsimp only at h); (repeat' split at h) <;> cases h <;> simp

@[simp] theorem testEngine_mask [Off P .quads] [Off P .tst] (q : Nat) (e : Nat) (s : State) : mask P (testEngine q e s) = mask P s := by
  unfold testEngine; simp

theorem execShadowRotation_mask [Off P .regs] [Off P .bumps] [Off P .evts] [Off P .quads] [Off P .tst] (q : QuadId) (s : State) : ∀ z, execShadowRotation q s = .next z → mask P z = mask P s := by
  intro r h; unfold execShadowRotation at h; (try dsimp only at h); (repeat' split at h) <;> cases h <;> simp

@[simp] theorem loseForEngine_mask [Off P .evts] [Off P .ports] (q : Nat) (p : Nat) (s : State) : mask P (loseForEngine q p s) = mask P s := by
  unfold loseForEngine; simp

@[simp] theorem takeOver_mask [Off P .regs] [Off P .evts] [Off P .ports] [Off P .quads] (q : Nat) (e : Nat) (p : Nat) (s : State) : mask P (takeOver q e p s) = mask P s := by
  unfold takeOver; (try dsimp only); (repeat' split) <;> simp

@[simp] theorem noteSelf_mask [Off P .regs] [Off P .bumps] [Off P .evts] [Off P .flt] (q : Nat) (e : Nat) (cause : Nat) (act : FaultAct) (s : State) : mask P (noteSelf q e cause act s) = mask P s := by
  unfold noteSelf; simp

@[simp] theorem mismatch_mask [Off P .regs] [Off P .bumps] [Off P .evts] [Off P .flt] [Off P .ports] [Off P .quads] (q : Nat) (p : Nat) (eF : Bool) (sF : Bool) (s : State) : mask P (mismatch q p eF sF s) = mask P s := by
  unfold mismatch; simp

@[simp] theorem engFails_mask [Off P .regs] [Off P .bumps] [Off P .evts] [Off P .flt] [Off P .ports] [Off P .quads] [Off P .tst] (q : Nat) (e : Nat) (cause : Nat) (s : State) : mask P (engFails q e cause s) = mask P s := by
  unfold engFails; (try dsimp only); (repeat' split) <;> simp

theorem execEngMismatch_mask [Off P .regs] [Off P .bumps] [Off P .evts] [Off P .flt] [Off P .ports] [Off P .quads] (q : QuadId) (eFails : Bool) (sFails : Bool) (s : State) : ∀ z, execEngMismatch q eFails sFails s = .next z → mask P z = mask P s := by
  intro r h; unfold execEngMismatch at h; (try dsimp only at h); (repeat' split at h) <;> cases h <;> simp

theorem execEngSelfcheck_mask [Off P .free] [Off P .regs] [Off P .bumps] [Off P .evts] [Off P .flt] [Off P .ports] [Off P .quads] [Off P .tst] (q : QuadId) (e : EngineId) (store : Bool) (uncorr : Bool) (s : State) : ∀ z, execEngSelfcheck q e store uncorr s = .next z → mask P z = mask P s := by
  intro r h; unfold execEngSelfcheck at h; (try dsimp only at h); (repeat' split at h) <;> cases h <;> simp

@[simp] theorem goOnUnder_mask [Off P .regs] [Off P .bumps] [Off P .evts] [Off P .flt] [Off P .blsb] [Off P .lanes] [Off P .ports] (p : Nat) (reset : Bool) (s : State) : mask P (goOnUnder p reset s) = mask P s := by
  unfold goOnUnder; (try dsimp only); (repeat' split) <;> simp

@[simp] theorem handNow_mask [Off P .regs] [Off P .bumps] [Off P .evts] [Off P .flt] [Off P .blsb] [Off P .lanes] [Off P .ports] [Off P .quads] [Off P .tst] (q : Nat) (h : HandOver) (s : State) : mask P (handNow q h s) = mask P s := by
  unfold handNow; (try dsimp only); (repeat' split) <;> simp

theorem execHandoverEffective_mask [Off P .regs] [Off P .bumps] [Off P .evts] [Off P .flt] [Off P .blsb] [Off P .lanes] [Off P .ports] [Off P .quads] [Off P .tst] (q : QuadId) (s : State) : ∀ z, execHandoverEffective q s = .next z → mask P z = mask P s := by
  intro r h; unfold execHandoverEffective at h; (try dsimp only at h); (repeat' split at h) <;> cases h <;> simp

@[simp] theorem quadResets_mask [Off P .ports] (t : State) (p : Nat) : mask P (quadResets t p) = mask P t := by
  unfold quadResets; split <;> simp

theorem execArbSelfcheck_mask [Off P .regs] [Off P .bumps] [Off P .evts] [Off P .flt] [Off P .ports] [Off P .ips] [Off P .tx] [Off P .wb] [Off P .col] [Off P .dma] [Off P .quads] (q : QuadId) (s : State) : ∀ z, execArbSelfcheck q s = .next z → mask P z = mask P s := by
  intro z h; unfold execArbSelfcheck at h
  split at h
  · simp only [Outcome.next.injEq] at h; subst h; rfl
  · simp only [Outcome.next.injEq] at h; subst h
    simp only [poisonUnit_mask, updQuad_mask]
    rw [foldl_mask (P := P) (h := fun t p => quadResets_mask (P := P) ..)]; simp

theorem execQuadResetComplete_mask [Off P .quads] (q : QuadId) (s : State) : ∀ z, execQuadResetComplete q s = .next z → mask P z = mask P s := by
  intro r h; unfold execQuadResetComplete at h; (try dsimp only at h); (repeat' split at h) <;> cases h <;> simp

theorem execQuadResetTimeout_mask [Off P .ports] [Off P .quads] (q : QuadId) (s : State) : ∀ z, execQuadResetTimeout q s = .next z → mask P z = mask P s := by
  intro r h; unfold execQuadResetTimeout at h; (try dsimp only at h); (repeat' split at h) <;> cases h <;> simp

theorem execWbSelfcheck_mask [Off P .flt] [Off P .leaving] (u : WbId) (s : State) : ∀ z, execWbSelfcheck u s = .next z → mask P z = mask P s := by
  intro r h; unfold execWbSelfcheck at h; (try dsimp only at h); (repeat' split at h) <;> cases h <;> simp

@[simp] theorem recompute_mask [Off P .col] (s : State) : mask P (recompute s) = mask P s := by
  unfold recompute; simp

@[simp] theorem leaveWb_mask [Off P .regs] [Off P .bumps] [Off P .evts] [Off P .ports] [Off P .ips] [Off P .tx] [Off P .wb] [Off P .col] [Off P .dma] (u : Nat) (s : State) : mask P (leaveWb u s) = mask P s := by
  unfold leaveWb; simp

theorem execCentralSelfcheck_mask [Off P .free] [Off P .regs] [Off P .evts] [Off P .bnd] [Off P .flt] [Off P .lanes] [Off P .ports] (unit : CentralUnit) (s : State) : ∀ z, execCentralSelfcheck unit s = .next z → mask P z = mask P s := by
  intro r h; unfold execCentralSelfcheck at h; (try dsimp only at h); (repeat' split at h) <;> cases h <;> simp

@[simp] theorem surviveTb_mask [Off P .regs] [Off P .evts] [Off P .flt] [Off P .tb] (b : Bool) (s : State) : mask P (surviveTb b s) = mask P s := by
  unfold surviveTb; simp

@[simp] theorem loseTb_mask [Off P .regs] [Off P .evts] [Off P .bnd] [Off P .flt] [Off P .tb] [Off P .lanes] [Off P .ports] (s : State) : mask P (loseTb s) = mask P s := by
  unfold loseTb; simp

theorem execTbMismatch_mask [Off P .free] [Off P .regs] [Off P .evts] [Off P .bnd] [Off P .flt] [Off P .tb] [Off P .lanes] [Off P .ports] (aFails : Bool) (bFails : Bool) (aCts : Bool) (bCts : Bool) (s : State) : ∀ z, execTbMismatch aFails bFails aCts bCts s = .next z → mask P z = mask P s := by
  intro r h; unfold execTbMismatch at h; (try dsimp only at h); (repeat' split at h) <;> cases h <;> simp

@[simp] theorem abandonThreads_mask [Off P .regs] [Off P .bumps] [Off P .evts] [Off P .ips] [Off P .tx] (s : State) : mask P (abandonThreads s) = mask P s := by
  unfold abandonThreads; simp

@[simp] theorem abandonRequest_mask [Off P .regs] [Off P .plv] (s : State) : mask P (abandonRequest s) = mask P s := by
  unfold abandonRequest; split <;> simp

@[simp] theorem restartLectern_mask [Off P .regs] [Off P .bumps] [Off P .evts] [Off P .flt] [Off P .ips] [Off P .tx] [Off P .lect] [Off P .plv] (m : PairMode) (s : State) : mask P (restartLectern m s) = mask P s := by
  unfold restartLectern; simp

@[simp] theorem loseLectern_mask [Off P .free] [Off P .regs] [Off P .evts] [Off P .bnd] [Off P .flt] [Off P .lanes] [Off P .ports] [Off P .lect] (s : State) : mask P (loseLectern s) = mask P s := by
  unfold loseLectern; simp

theorem execLecternMismatch_mask [Off P .free] [Off P .regs] [Off P .bumps] [Off P .evts] [Off P .bnd] [Off P .flt] [Off P .lanes] [Off P .ports] [Off P .ips] [Off P .tx] [Off P .lect] [Off P .plv] (aFails : Bool) (bFails : Bool) (s : State) : ∀ z, execLecternMismatch aFails bFails s = .next z → mask P z = mask P s := by
  intro r h; unfold execLecternMismatch at h; (try dsimp only at h); (repeat' split at h) <;> cases h <;> simp

@[simp] theorem lecternRestarted_mask [Off P .lect] (s : State) : mask P (lecternRestarted s) = mask P s := by
  unfold lecternRestarted; simp

theorem execRecoveryEnd_mask [Off P .lect] (s : State) : ∀ z, execRecoveryEnd s = .next z → mask P z = mask P s := by
  intro r h; unfold execRecoveryEnd at h; (try dsimp only at h); (repeat' split at h) <;> cases h <;> simp

theorem execFltClear_mask [Off P .bnd] [Off P .flt] (s : State) : ∀ z, execFltClear s = .next z → mask P z = mask P s := by
  intro r h; unfold execFltClear at h; cases h; simp

@[simp] theorem noteDigest_mask [Off P .regs] [Off P .banks] (d : Nat) (s : State) : mask P (noteDigest d s) = mask P s := by
  unfold noteDigest; simp

@[simp] theorem activate_mask [Off P .regs] [Off P .bumps] [Off P .evts] [Off P .tb] [Off P .ports] [Off P .banks] [Off P .ips] [Off P .tx] [Off P .wb] [Off P .col] (a : Activation) (s : State) : mask P (activate a s) = mask P s := by
  unfold activate; simp

theorem execEpochActivation_mask [Off P .regs] [Off P .bumps] [Off P .evts] [Off P .tb] [Off P .ports] [Off P .banks] [Off P .ips] [Off P .tx] [Off P .wb] [Off P .col] (s : State) : ∀ z, execEpochActivation s = .next z → mask P z = mask P s := by
  intro r h; unfold execEpochActivation at h; (try dsimp only at h); (repeat' split at h) <;> cases h <;> simp

theorem execBankCopyBack_mask [Off P .banks] (s : State) : ∀ z, execBankCopyBack s = .next z → mask P z = mask P s := by
  intro r h; unfold execBankCopyBack at h; (try dsimp only at h); (repeat' split at h) <;> cases h <;> simp

@[simp] theorem stageEntry_mask [Off P .banks] (k : StgTab) (e : Nat) (w0 : Word) (s : State) : mask P (stageEntry k e w0 s) = mask P s := by
  unfold stageEntry; split <;> simp

@[simp] theorem stageLocked_mask [Off P .evts] (s : State) : mask P (stageLocked s) = mask P s := by
  unfold stageLocked; simp

@[simp] theorem updProt_mask [Off P .prot] (f : Protect → Protect) (s : State) : mask P (updProt f s) = mask P s := by
  unfold updProt; simp

@[simp] theorem touchLock_mask [Off P .prot] (agent : Bool) (s : State) : mask P (touchLock agent s) = mask P s := by
  unfold touchLock; simp

@[simp] theorem agentReject_mask [Off P .evts] (s : State) : mask P (agentReject s) = mask P s := by
  unfold agentReject; simp

@[simp] theorem agentGate_mask [Off P .evts] (agent : Bool) (f : State → State) (s : State) (h_f : ∀ v0, mask P (f v0) = mask P v0) : mask P (agentGate agent f s) = mask P s := by
  unfold agentGate; (try dsimp only); (repeat' split) <;> simp [*]

theorem agentWrite_mask [Off P .evts] [Off P .bnd] [Off P .prot] (agent : Bool) (f : State → State) (s : State) (h_f : ∀ v0, mask P (f v0) = mask P v0) : ∀ z, agentWrite agent f s = .next z → mask P z = mask P s := by
  intro t h; unfold agentWrite at h; cases h; simp [h_f]

@[simp] theorem lockAcq_mask [Off P .regs] [Off P .evts] [Off P .prot] (agent : Bool) (s : State) : mask P (lockAcq agent s) = mask P s := by
  unfold lockAcq; simp

theorem execProLockAcq_mask [Off P .regs] [Off P .evts] [Off P .bnd] [Off P .prot] (agent : Bool) (s : State) : ∀ z, execProLockAcq agent s = .next z → mask P z = mask P s := by
  intro r h; unfold execProLockAcq at h; cases h; simp

theorem execProLockRel_mask [Off P .regs] [Off P .evts] [Off P .bnd] [Off P .prot] (agent : Bool) (s : State) : ∀ z, execProLockRel agent s = .next z → mask P z = mask P s := by
  intro r h; unfold execProLockRel at h; cases h; simp

theorem execProLockTimeout_mask [Off P .regs] (s : State) : ∀ z, execProLockTimeout s = .next z → mask P z = mask P s := by
  intro r h; unfold execProLockTimeout at h; (try dsimp only at h); (repeat' split at h) <;> cases h <;> simp

@[simp] theorem stageImage_mask [Off P .prot] (i : Nat) (w : Word) (s : State) : mask P (stageImage i w s) = mask P s := by
  unfold stageImage; simp

@[simp] theorem stageWord_mask [Off P .evts] [Off P .prot] (w : Word) (s : State) : mask P (stageWord w s) = mask P s := by
  unfold stageWord; simp

theorem execProStgWrite_mask [Off P .evts] [Off P .bnd] [Off P .prot] (agent : Bool) (w : Word) (s : State) : ∀ z, execProStgWrite agent w s = .next z → mask P z = mask P s := by
  intro r h; unfold execProStgWrite at h; cases h; simp

@[simp] theorem stageKey_mask [Off P .regs] [Off P .evts] [Off P .prot] (k : Nat) (w : Word) (s : State) : mask P (stageKey k w s) = mask P s := by
  unfold stageKey; simp

theorem execProKeyStgWrite_mask [Off P .regs] [Off P .evts] [Off P .bnd] [Off P .prot] (agent : Bool) (k : Fin 8) (w : Word) (s : State) : ∀ z, execProKeyStgWrite agent k w s = .next z → mask P z = mask P s := by
  intro r h; unfold execProKeyStgWrite at h; cases h; simp

@[simp] theorem toIdle_mask [Off P .regs] [Off P .prot] (s : State) : mask P (toIdle s) = mask P s := by
  unfold toIdle; simp

@[simp] theorem discardChange_mask [Off P .regs] [Off P .prot] (s : State) : mask P (discardChange s) = mask P s := by
  unfold discardChange; simp

@[simp] theorem refuseChange_mask [Off P .regs] [Off P .prot] (s : State) : mask P (refuseChange s) = mask P s := by
  unfold refuseChange; simp

@[simp] theorem expire_mask [Off P .regs] [Off P .evts] [Off P .prot] (s : State) : mask P (expire s) = mask P s := by
  unfold expire; simp

theorem execArmExpiry_mask [Off P .regs] [Off P .evts] [Off P .prot] (s : State) : ∀ z, execArmExpiry s = .next z → mask P z = mask P s := by
  intro r h; unfold execArmExpiry at h; (try dsimp only at h); (repeat' split at h) <;> cases h <;> simp

@[simp] theorem settleExpiry_mask [Off P .regs] [Off P .evts] [Off P .prot] (s : State) : mask P (settleExpiry s) = mask P s := by
  unfold settleExpiry; simp

@[simp] theorem protArm_mask [Off P .regs] [Off P .evts] [Off P .prot] (fm : Bool) (dig : Nat) (nonce : Nat) (s0 : State) : mask P (protArm fm dig nonce s0).2 = mask P s0 := by
  unfold protArm; (try dsimp only); (repeat' split) <;> simp

@[simp] theorem protCommit_mask [Off P .regs] [Off P .evts] [Off P .prot] (fm : Bool) (dig : Nat) (nonce : Nat) (s0 : State) : mask P (protCommit fm dig nonce s0).2 = mask P s0 := by
  unfold protCommit; (try dsimp only); (repeat' split) <;> simp

@[simp] theorem protAbort_mask [Off P .regs] [Off P .evts] [Off P .prot] (s0 : State) : mask P (protAbort s0).2 = mask P s0 := by
  unfold protAbort; (try dsimp only); (repeat' split) <;> simp

@[simp] theorem armChecked_mask [Off P .regs] [Off P .evts] [Off P .prot] (bad : Bool) (c : ArmedChange) (s : State) : mask P (armChecked bad c s).2 = mask P s := by
  unfold armChecked; (try dsimp only); (repeat' split) <;> simp

@[simp] theorem agentRequest_mask [Off P .regs] (f : State → Nat × State) (s : State) (h_f : ∀ v0, mask P (f v0).2 = mask P v0) : mask P (agentRequest f s) = mask P s := by
  unfold agentRequest; (try dsimp only); (repeat' split) <;> simp [*]

@[simp] theorem cmdArm_mask [Off P .regs] [Off P .evts] [Off P .prot] (s : State) : mask P (cmdArm s) = mask P s := by
  unfold cmdArm; simp

@[simp] theorem cmdCommit_mask [Off P .regs] [Off P .evts] [Off P .prot] (s : State) : mask P (cmdCommit s) = mask P s := by
  unfold cmdCommit; simp

theorem execProCmdArm_mask [Off P .regs] [Off P .evts] [Off P .bnd] [Off P .prot] (agent : Bool) (s : State) : ∀ z, execProCmdArm agent s = .next z → mask P z = mask P s := by
  intro r h; unfold execProCmdArm at h; cases h; simp

theorem execProCmdCommit_mask [Off P .regs] [Off P .evts] [Off P .bnd] [Off P .prot] (agent : Bool) (s : State) : ∀ z, execProCmdCommit agent s = .next z → mask P z = mask P s := by
  intro r h; unfold execProCmdCommit at h; cases h; simp

@[simp] theorem reroute_mask [Off P .evts] [Off P .ports] (old : State) (p : Nat) (s : State) : mask P (reroute old p s) = mask P s := by
  unfold reroute; split <;> simp

@[simp] theorem applyChange_mask [Off P .regs] [Off P .bumps] [Off P .evts] [Off P .ports] [Off P .banks] [Off P .prot] (c : ArmedChange) (s : State) : mask P (applyChange c s) = mask P s := by
  unfold applyChange; (try dsimp only); (repeat' split) <;> simp

theorem execProtApply_mask [Off P .regs] [Off P .bumps] [Off P .evts] [Off P .ports] [Off P .banks] [Off P .prot] (s : State) : ∀ z, execProtApply s = .next z → mask P z = mask P s := by
  intro r h; unfold execProtApply at h; (try dsimp only at h); (repeat' split at h) <;> cases h <;> simp

@[simp] theorem zeroise_mask [Off P .regs] [Off P .evts] [Off P .prot] (s : State) : mask P (zeroise s) = mask P s := by
  unfold zeroise; simp

@[simp] theorem updTst_mask [Off P .tst] (f : TestCtl → TestCtl) (s : State) : mask P (updTst f s) = mask P s := by
  unfold updTst; simp

@[simp] theorem noteTested_mask [Off P .tst] (u : Nat) (m : Nat × Nat) (s : State) : mask P (noteTested u m s) = mask P s := by
  unfold noteTested; simp

theorem nextSlice_mask [Off P .tst] (s : State) : ∀ a z, nextSlice s = some (a, z) → mask P z = mask P s := by
  intro a r h; unfold nextSlice at h; (try dsimp only at h); (repeat' split at h) <;> cases h <;> simp

@[simp] theorem startSlice_mask [Off P .regs] [Off P .tst] (j : SliceJob) (s : State) : mask P (startSlice j s) = mask P s := by
  unfold startSlice; (try dsimp only); (repeat' split) <;> simp

theorem execSliceStart_mask [Off P .cts] [Off P .regs] [Off P .bumps] [Off P .evts] [Off P .tst] (s : State) : ∀ z, execSliceStart s = .next z → mask P z = mask P s := by
  intro z h; unfold execSliceStart at h
  dsimp only at h
  generalize (s.acts && sliceState s && s.tst.run.isNone && !s.tst.broken && _) = g at h
  cases g with
  | false => simp only [Bool.false_eq_true, if_false, Outcome.next.injEq] at h; subst h; rfl
  | true =>
    simp only [if_true] at h
    cases h1 : nextSlice s with
    | none => rw [h1] at h; simp only [Outcome.next.injEq] at h; subst h; rfl
    | some jt =>
      rw [h1] at h; simp only [Outcome.next.injEq] at h; subst h
      simpa using nextSlice_mask (P := P) _ _ _ h1

theorem execSweepTimer_mask [Off P .tst] (s : State) : ∀ z, execSweepTimer s = .next z → mask P z = mask P s := by
  intro r h; unfold execSweepTimer at h; (try dsimp only at h); (repeat' split at h) <;> cases h <;> simp

@[simp] theorem judge_mask [Off P .regs] [Off P .bumps] [Off P .evts] [Off P .tst] (x : Slice) (m : Nat × Nat) (s : State) : mask P (judge x m s).2 = mask P s := by
  unfold judge; (try dsimp only); (repeat' split) <;> simp

@[simp] theorem putRun_mask [Off P .regs] [Off P .tst] (x : Slice) (s : State) : mask P (putRun x s) = mask P s := by
  unfold putRun; simp

@[simp] theorem saved_mask [Off P .regs] [Off P .tst] (x : Slice) (m : Nat × Nat) (s : State) : mask P (saved x m s) = mask P s := by
  unfold saved; simp

@[simp] theorem memStep_mask [Off P .regs] [Off P .bumps] [Off P .evts] [Off P .tst] (x : Slice) (m : Nat × Nat) (fails : List (Nat × Nat)) (s : State) : mask P (memStep x m fails s) = mask P s := by
  unfold memStep; split <;> simp

@[simp] theorem logicStep_mask [Off P .regs] [Off P .tst] (x : Slice) (sig : BitVec 64) (s : State) : mask P (logicStep x sig s) = mask P s := by
  unfold logicStep; simp

theorem execBistStep_mask [Off P .cts] [Off P .regs] [Off P .bumps] [Off P .evts] [Off P .tst] (sig : BitVec 64) (fails : List (Fin 1024 × Fin 36)) (s0 : State) : ∀ z, execBistStep sig fails s0 = .next z → mask P z = mask P s0 := by
  intro r h; unfold execBistStep at h; (try dsimp only at h); (repeat' split at h) <;> cases h <;> simp

@[simp] theorem returnEng_mask [Off P .regs] [Off P .evts] [Off P .ports] [Off P .quads] (q : Nat) (e : Nat) (back : Bool) (s : State) : mask P (returnEng q e back s) = mask P s := by
  unfold returnEng; split <;> simp

@[simp] theorem engBist_mask [Off P .flt] (q : Nat) (e : Nat) (code : Nat) (s : State) : mask P (engBist q e code s) = mask P s := by
  unfold engBist; simp

@[simp] theorem settleUnit_mask [Off P .regs] [Off P .bumps] [Off P .evts] [Off P .flt] [Off P .ports] [Off P .quads] [Off P .returning] [Off P .tst] (x : Slice) (code : Nat) (s : State) : mask P (settleUnit x code s) = mask P s := by
  unfold settleUnit; split <;> simp

@[simp] theorem endSlice_mask [Off P .regs] [Off P .bumps] [Off P .evts] [Off P .flt] [Off P .ports] [Off P .quads] [Off P .returning] [Off P .tst] (x : Slice) (code : Nat) (cause : Nat) (s : State) : mask P (endSlice x code cause s) = mask P s := by
  unfold endSlice; split <;> simp

@[simp] theorem cutSlice_mask [Off P .regs] [Off P .bumps] [Off P .evts] [Off P .flt] [Off P .ports] [Off P .quads] [Off P .returning] [Off P .tst] (x : Slice) (cause : Nat) (s : State) : mask P (cutSlice x cause s) = mask P s := by
  unfold cutSlice; split <;> simp

theorem execSliceBudgetExpiry_mask [Off P .regs] [Off P .bumps] [Off P .evts] [Off P .flt] [Off P .ports] [Off P .quads] [Off P .returning] [Off P .tst] (s : State) : ∀ z, execSliceBudgetExpiry s = .next z → mask P z = mask P s := by
  intro r h; unfold execSliceBudgetExpiry at h; (try dsimp only at h); (repeat' split at h) <;> cases h <;> simp

theorem execSliceEnd_mask [Off P .regs] [Off P .bumps] [Off P .evts] [Off P .flt] [Off P .ports] [Off P .quads] [Off P .returning] [Off P .tst] (s : State) : ∀ z, execSliceEnd s = .next z → mask P z = mask P s := by
  intro r h; unfold execSliceEnd at h; (try dsimp only at h); (repeat' split at h) <;> cases h <;> simp

theorem execTestControllerSelfcheck_mask [Off P .regs] [Off P .bumps] [Off P .evts] [Off P .flt] [Off P .ports] [Off P .quads] [Off P .returning] [Off P .tst] (s : State) : ∀ z, execTestControllerSelfcheck s = .next z → mask P z = mask P s := by
  intro r h; unfold execTestControllerSelfcheck at h; (try dsimp only at h); (repeat' split at h) <;> cases h <;> simp

@[simp] theorem setBstate_mask [Off P .regs] (b : Nat) (fm : Bool) (s : State) : mask P (setBstate b fm s) = mask P s := by
  unfold setBstate; simp

@[simp] theorem program_mask [Off P .free] [Off P .efuse] (r : BitVec 128) (good : Bool) (s : State) : mask P (program r good s) = mask P s := by
  unfold program; (try dsimp only); (repeat' split) <;> simp

@[simp] theorem cutBurn_mask [Off P .free] [Off P .efuse] [Off P .tst] (s : State) : mask P (cutBurn s) = mask P s := by
  unfold cutBurn; split <;> simp

@[simp] theorem disarm_mask [Off P .regs] [Off P .tst] (s : State) : mask P (disarm s) = mask P s := by
  unfold disarm; simp

@[simp] theorem burnPart_mask [Off P .regs] [Off P .evts] [Off P .tst] (fm : Bool) (r : BitVec 128) (s0 : State) : mask P (burnPart fm r s0).2 = mask P s0 := by
  unfold burnPart; (try dsimp only); (repeat' split) <;> simp

@[simp] theorem burnCancel_mask [Off P .regs] [Off P .tst] (s : State) : mask P (burnCancel s).2 = mask P s := by
  unfold burnCancel; split <;> simp

@[simp] theorem hostBurn_mask [Off P .regs] (f : State → Nat × State) (s : State) (h_f : ∀ v0, mask P (f v0).2 = mask P v0) : mask P (hostBurn f s) = mask P s := by
  unfold hostBurn; (try dsimp only); (repeat' split) <;> simp [*]

@[simp] theorem burnGo_mask [Off P .regs] [Off P .evts] [Off P .tst] (s : State) : mask P (burnGo s) = mask P s := by
  unfold burnGo; simp

theorem execBurnGo_mask [Off P .regs] [Off P .evts] [Off P .bnd] [Off P .tst] (agent : Bool) (s : State) : ∀ z, execBurnGo agent s = .next z → mask P z = mask P s := by
  intro r h; unfold execBurnGo at h; cases h; simp

theorem execBurnAbort_mask [Off P .regs] [Off P .evts] [Off P .bnd] [Off P .tst] (agent : Bool) (s : State) : ∀ z, execBurnAbort agent s = .next z → mask P z = mask P s := by
  intro z h; unfold execBurnAbort at h
  simp only [Outcome.next.injEq] at h; subst h
  rw [hostWrite_mask]
  intro t; rw [agentGate_mask]; intro u; rw [hostBurn_mask]; intro v; simp

theorem execBurnExpiry_mask [Off P .regs] [Off P .tst] (s : State) : ∀ z, execBurnExpiry s = .next z → mask P z = mask P s := by
  intro r h; unfold execBurnExpiry at h; (try dsimp only at h); (repeat' split at h) <;> cases h <;> simp

@[simp] theorem showEfuse_mask [Off P .regs] (s : State) : mask P (showEfuse s) = mask P s := by
  unfold showEfuse; simp

theorem execBurnComplete_mask [Off P .free] [Off P .regs] [Off P .evts] [Off P .efuse] [Off P .tst] (good : Bool) (s : State) : ∀ z, execBurnComplete good s = .next z → mask P z = mask P s := by
  intro r h; unfold execBurnComplete at h; (try dsimp only at h); (repeat' split at h) <;> cases h <;> simp

@[simp] theorem softRepair_mask [Off P .evts] [Off P .tst] (r : BitVec 128) (s : State) : mask P (softRepair r s).2 = mask P s := by
  unfold softRepair; (try dsimp only); (repeat' split) <;> simp

@[simp] theorem setDr_mask [Off P .tst] (v : Nat) (s : State) : mask P (setDr v s) = mask P s := by
  unfold setDr; simp

theorem execTapBypass_mask [Off P .tst] (s : State) : ∀ z, execTapBypass s = .next z → mask P z = mask P s := by
  intro r h; unfold execTapBypass at h; cases h; simp

theorem execTapWsp_mask [Off P .free] [Off P .tst] (w : WspLoad) (s : State) : ∀ z, execTapWsp w s = .next z → mask P z = mask P s := by
  intro r h; unfold execTapWsp at h; (try dsimp only at h); (repeat' split at h) <;> cases h <;> simp

@[simp] theorem zeroiseFirst_mask [Off P .regs] [Off P .evts] [Off P .prot] [Off P .tst] (s : State) : mask P (zeroiseFirst s) = mask P s := by
  unfold zeroiseFirst; simp

theorem execTapMemRead_mask [Off P .free] [Off P .regs] [Off P .evts] [Off P .prot] [Off P .tst] (array : Fin 16) (inst : Fin 4096) (row : Fin 1024) (save : Bool) (s : State) : ∀ z, execTapMemRead array inst row save s = .next z → mask P z = mask P s := by
  intro r h; unfold execTapMemRead at h; (try dsimp only at h); (repeat' split at h) <;> cases h <;> simp

theorem execTapScan_mask [Off P .free] [Off P .regs] [Off P .evts] [Off P .prot] [Off P .tst] (s : State) : ∀ z, execTapScan s = .next z → mask P z = mask P s := by
  intro r h; unfold execTapScan at h; (try dsimp only at h); (repeat' split at h) <;> cases h <;> simp

@[simp] theorem latchRead_mask [Off P .regs] (a : Nat) (s : State) : mask P (latchRead a s) = mask P s := by
  unfold latchRead; simp

@[simp] theorem updPlv_mask [Off P .plv] (f : Plovirko → Plovirko) (s : State) : mask P (updPlv f s) = mask P s := by
  unfold updPlv; simp

@[simp] theorem setFmNonce_mask [Off P .regs] (n : Nat) (s : State) : mask P (setFmNonce n s) = mask P s := by
  unfold setFmNonce; simp

@[simp] theorem buildReply_mask [Off P .free] (r : List Nat) (status : Nat) (pay : List Nat) (s : State) : mask P (buildReply r status pay s).2 = mask P s := by
  unfold buildReply; (try dsimp only); (repeat' split) <;> simp

@[simp] theorem queueFragments_mask [Off P .ports] [Off P .plv] (p : Nat) (fs : List Slot) (s : State) : mask P (queueFragments p fs s) = mask P s := by
  unfold queueFragments; simp

@[simp] theorem sendPacket_mask [Off P .ports] [Off P .plv] (dst : Nat) (pktid : Nat) (bs : List Nat) (s : State) : mask P (sendPacket dst pktid bs s) = mask P s := by
  unfold sendPacket; split <;> simp

@[simp] theorem deliver_mask [Off P .regs] [Off P .evts] [Off P .ports] [Off P .plv] (r : PlvReq) (status : Nat) (bs : List Nat) (s : State) : mask P (deliver r status bs s) = mask P s := by
  unfold deliver; split <;> simp

@[simp] theorem answerPlv_mask [Off P .free] [Off P .regs] [Off P .bumps] [Off P .evts] [Off P .ports] [Off P .plv] (r : PlvReq) (status : Nat) (pay : List Nat) (s : State) : mask P (answerPlv r status pay s) = mask P s := by
  unfold answerPlv; simp

@[simp] theorem takeUp_mask [Off P .regs] [Off P .plv] (r : PlvReq) (s : State) : mask P (takeUp r s) = mask P s := by
  unfold takeUp; split <;> simp

@[simp] theorem authFailed_mask [Off P .regs] [Off P .bumps] [Off P .evts] (s : State) : mask P (authFailed s) = mask P s := by
  unfold authFailed; simp

@[simp] theorem checked_mask [Off P .regs] [Off P .bumps] [Off P .evts] (o : OpRow) (r : PlvReq) (f : List Nat → List Nat → State → Nat × List Nat × State) (s : State) (h_f : ∀ v0 v1 v2, mask P (f v0 v1 v2).2.2 = mask P v2) : mask P (checked o r f s).2.2 = mask P s := by
  unfold checked
  dsimp only
  (repeat' split) <;> simp [h_f]

@[simp] theorem plvRun_mask [Off P .free] [Off P .regs] [Off P .bumps] [Off P .evts] [Off P .ports] [Off P .plv] (opc : Nat) (f : List Nat → List Nat → State → Nat × List Nat × State) (s : State) (h_f : ∀ v0 v1 v2, mask P (f v0 v1 v2).2.2 = mask P v2) : mask P (plvRun opc f s) = mask P s := by
  unfold plvRun; (try dsimp only); (repeat' split) <;> simp [*]

theorem execUnknownOpcodeRequest_mask [Off P .free] [Off P .regs] [Off P .bumps] [Off P .evts] [Off P .ports] [Off P .plv] (s : State) : ∀ z, execUnknownOpcodeRequest s = .next z → mask P z = mask P s := by
  intro r h; unfold execUnknownOpcodeRequest at h; (try dsimp only at h); (repeat' split at h) <;> cases h <;> simp

theorem execPlvReqUpdate_mask [Off P .plv] (bytes : List Byte) (s : State) : ∀ z, execPlvReqUpdate bytes s = .next z → mask P z = mask P s := by
  intro r h; unfold execPlvReqUpdate at h; (try dsimp only at h); (repeat' split at h) <;> cases h <;> simp

theorem execPlvRspCapture_mask [Off P .tst] (s : State) : ∀ z, execPlvRspCapture s = .next z → mask P z = mask P s := by
  intro r h; unfold execPlvRspCapture at h; cases h; simp

@[simp] theorem fragDrop_mask [Off P .regs] [Off P .bumps] [Off P .evts] (s : State) : mask P (fragDrop s) = mask P s := by
  unfold fragDrop; simp

@[simp] theorem dropCtx_mask [Off P .plv] (src : Nat) (pktid : Nat) (s : State) : mask P (dropCtx src pktid s) = mask P s := by
  unfold dropCtx; simp

@[simp] theorem plvComplete_mask [Off P .regs] [Off P .bumps] [Off P .ports] [Off P .plv] (src : Nat) (pktid : Nat) (b : List Nat) (s : State) : mask P (plvComplete src pktid b s) = mask P s := by
  unfold plvComplete; split <;> simp

@[simp] theorem busyReply_mask [Off P .free] [Off P .ports] [Off P .plv] (src : Nat) (pktid : Nat) (data : List Nat) (s : State) : mask P (busyReply src pktid data s) = mask P s := by
  unfold busyReply; simp

@[simp] theorem reassemble_mask [Off P .free] [Off P .regs] [Off P .bumps] [Off P .evts] [Off P .ports] [Off P .plv] (x : Slot) (s : State) : mask P (reassemble x s) = mask P s := by
  unfold reassemble; (try dsimp only); (repeat' split) <;> simp

@[simp] theorem takeFragment_mask [Off P .free] [Off P .regs] [Off P .bumps] [Off P .evts] [Off P .ports] [Off P .plv] (p : Nat) (x : Slot) (s : State) : mask P (takeFragment p x s) = mask P s := by
  unfold takeFragment; (try dsimp only); (repeat' split) <;> simp

theorem execFragmentRx_mask [Off P .free] [Off P .regs] [Off P .bumps] [Off P .evts] [Off P .flt] [Off P .ports] [Off P .plv] [Off P .tst] (p : PortId) (bad : Bool) (s : State) : ∀ z, execFragmentRx p bad s = .next z → mask P z = mask P s := by
  intro r h; unfold execFragmentRx at h; (try dsimp only at h); (repeat' split at h) <;> cases h <;> simp

theorem execReassemblyTimeout_mask [Off P .regs] [Off P .bumps] [Off P .evts] [Off P .plv] (src : BitVec 18) (pktid : BitVec 8) (s : State) : ∀ z, execReassemblyTimeout src pktid s = .next z → mask P z = mask P s := by
  intro r h; unfold execReassemblyTimeout at h; (try dsimp only at h); (repeat' split at h) <;> cases h <;> simp

theorem execFragmentCreditTimeout_mask [Off P .regs] [Off P .bumps] [Off P .evts] [Off P .ports] (p : PortId) (s : State) : ∀ z, execFragmentCreditTimeout p s = .next z → mask P z = mask P s := by
  intro r h; unfold execFragmentCreditTimeout at h; (try dsimp only at h); (repeat' split at h) <;> cases h <;> simp

@[simp] theorem store_mask [Off P .regs] (a : Nat) (fs : List Field) (v : Word) (s : State) : mask P (store a fs v s) = mask P s := by
  unfold store; simp

@[simp] theorem stageWrite_mask [Off P .evts] [Off P .banks] (k : StgTab) (e : Nat) (v : Word) (s : State) : mask P (stageWrite k e v s) = mask P s := by
  unfold stageWrite; simp

@[simp] theorem mbxGo_mask [Off P .regs] [Off P .evts] (s : State) : mask P (mbxGo s) = mask P s := by
  unfold mbxGo; simp

@[simp] theorem answerArm_mask [Off P .free] [Off P .regs] [Off P .bumps] [Off P .evts] [Off P .ports] [Off P .plv] (st : Nat) (s : State) : mask P (answerArm st s) = mask P s := by
  unfold answerArm; split <;> simp

@[simp] theorem cutArm_mask [Off P .free] [Off P .regs] [Off P .bumps] [Off P .evts] [Off P .ports] [Off P .plv] (s0 : State) (s : State) : mask P (cutArm s0 s) = mask P s := by
  unfold cutArm; simp

@[simp] theorem cmdAbort_mask [Off P .free] [Off P .regs] [Off P .bumps] [Off P .evts] [Off P .ports] [Off P .prot] [Off P .plv] (s : State) : mask P (cmdAbort s) = mask P s := by
  unfold cmdAbort; simp

@[simp] theorem lockWrite_mask [Off P .regs] (v : Word) (s : State) : mask P (lockWrite v s) = mask P s := by
  unfold lockWrite; simp

@[simp] theorem proCommand_mask [Off P .free] [Off P .regs] [Off P .bumps] [Off P .evts] [Off P .ports] [Off P .prot] [Off P .plv] (v : Word) (s : State) : mask P (proCommand v s) = mask P s := by
  unfold proCommand; simp

@[simp] theorem chanCommand_mask [Off P .regs] [Off P .bumps] [Off P .evts] [Off P .wb] [Off P .dma] (c : Nat) (v : Word) (s : State) : mask P (chanCommand c v s) = mask P s := by
  unfold chanCommand; split <;> simp

@[simp] theorem writeEffect_mask [Off P .free] [Off P .regs] [Off P .bumps] [Off P .evts] [Off P .flt] [Off P .lanes] [Off P .ports] [Off P .banks] [Off P .ips] [Off P .tx] [Off P .wb] [Off P .col] [Off P .dma] [Off P .prot] [Off P .plv] [Off P .tst] (a : Nat) (fs : List Field) (v : Word) (s : State) : mask P (writeEffect a fs v s) = mask P s := by
  unfold writeEffect; simp

@[simp] theorem evtClr_mask [Off P .evts] (b : Nat) (v : Word) (s : State) : mask P (evtClr b v s) = mask P s := by
  unfold evtClr; simp

@[simp] theorem evtSet_mask [Off P .evts] (b : Nat) (v : Word) (s : State) : mask P (evtSet b v s) = mask P s := by
  unfold evtSet; simp

@[simp] theorem evtEn_mask [Off P .evts] (b : Nat) (v : Word) (s : State) : mask P (evtEn b v s) = mask P s := by
  unfold evtEn; simp

@[simp] theorem evtCnt_mask [Off P .evts] (b : Nat) (k : Nat) (v : Word) (s : State) : mask P (evtCnt b k v s) = mask P s := by
  unfold evtCnt; simp

@[simp] theorem writeEvt_mask [Off P .evts] (b : Nat) (o : Nat) (v : Word) (s : State) : mask P (writeEvt b o v s) = mask P s := by
  unfold writeEvt; simp

@[simp] theorem writeReg_mask [Off P .free] [Off P .regs] [Off P .bumps] [Off P .evts] [Off P .flt] [Off P .lanes] [Off P .ports] [Off P .banks] [Off P .ips] [Off P .tx] [Off P .wb] [Off P .col] [Off P .dma] [Off P .prot] [Off P .plv] [Off P .tst] (agent : Bool) (a : Nat) (v : Word) (s : State) : mask P (writeReg agent a v s).2 = mask P s := by
  unfold writeReg; (try dsimp only); (repeat' split) <;> simp

@[simp] theorem softWrite_mask [Off P .free] [Off P .regs] [Off P .bumps] [Off P .evts] [Off P .flt] [Off P .lanes] [Off P .ports] [Off P .banks] [Off P .ips] [Off P .tx] [Off P .wb] [Off P .col] [Off P .dma] [Off P .prot] [Off P .plv] [Off P .tst] (agent : Bool) (a : Nat) (v : Word) (s : State) : mask P (softWrite agent a v s).2 = mask P s := by
  unfold softWrite; split <;> simp

@[simp] theorem finishWrite_mask [Off P .free] [Off P .regs] [Off P .bumps] [Off P .evts] [Off P .bnd] [Off P .flt] [Off P .lanes] [Off P .ports] [Off P .banks] [Off P .ips] [Off P .tx] [Off P .wb] [Off P .col] [Off P .dma] [Off P .prot] [Off P .plv] [Off P .tst] (agent : Bool) (a : Nat) (v : Word) (s : State) : mask P (finishWrite agent a v s) = mask P s := by
  unfold finishWrite; simp

@[simp] theorem portWrite_mask [Off P .free] [Off P .regs] [Off P .bumps] [Off P .evts] [Off P .bnd] [Off P .flt] [Off P .lanes] [Off P .ports] [Off P .banks] [Off P .ips] [Off P .tx] [Off P .wb] [Off P .col] [Off P .dma] [Off P .prot] [Off P .plv] [Off P .tst] (agent : Bool) (a : Nat) (v : Word) (s : State) : mask P (portWrite agent a v s) = mask P s := by
  unfold portWrite; simp

theorem execRegisterWrite_mask [Off P .free] [Off P .regs] [Off P .bumps] [Off P .evts] [Off P .bnd] [Off P .flt] [Off P .lanes] [Off P .ports] [Off P .banks] [Off P .ips] [Off P .tx] [Off P .wb] [Off P .col] [Off P .dma] [Off P .prot] [Off P .plv] [Off P .tst] (agent : Bool) (addr : BitVec 17) (value : Word) (s : State) : ∀ z, execRegisterWrite agent addr value s = .next z → mask P z = mask P s := by
  intro r h; unfold execRegisterWrite at h; cases h; simp

theorem execEvtClrWrite_mask [Off P .free] [Off P .regs] [Off P .bumps] [Off P .evts] [Off P .bnd] [Off P .flt] [Off P .lanes] [Off P .ports] [Off P .banks] [Off P .ips] [Off P .tx] [Off P .wb] [Off P .col] [Off P .dma] [Off P .prot] [Off P .plv] [Off P .tst] (u : EvtUnit) (value : Word) (s : State) : ∀ z, execEvtClrWrite u value s = .next z → mask P z = mask P s := by
  intro r h; unfold execEvtClrWrite at h; cases h; simp

theorem execEvtSetWrite_mask [Off P .free] [Off P .regs] [Off P .bumps] [Off P .evts] [Off P .bnd] [Off P .flt] [Off P .lanes] [Off P .ports] [Off P .banks] [Off P .ips] [Off P .tx] [Off P .wb] [Off P .col] [Off P .dma] [Off P .prot] [Off P .plv] [Off P .tst] (u : EvtUnit) (value : Word) (s : State) : ∀ z, execEvtSetWrite u value s = .next z → mask P z = mask P s := by
  intro r h; unfold execEvtSetWrite at h; cases h; simp

theorem execEvtCntWrite_mask [Off P .free] [Off P .regs] [Off P .bumps] [Off P .evts] [Off P .bnd] [Off P .flt] [Off P .lanes] [Off P .ports] [Off P .banks] [Off P .ips] [Off P .tx] [Off P .wb] [Off P .col] [Off P .dma] [Off P .prot] [Off P .plv] [Off P .tst] (u : EvtUnit) (k : Fin 8) (value : Word) (s : State) : ∀ z, execEvtCntWrite u k value s = .next z → mask P z = mask P s := by
  intro r h; unfold execEvtCntWrite at h; cases h; simp

theorem execMbxGo_mask [Off P .free] [Off P .regs] [Off P .bumps] [Off P .evts] [Off P .bnd] [Off P .flt] [Off P .lanes] [Off P .ports] [Off P .banks] [Off P .ips] [Off P .tx] [Off P .wb] [Off P .col] [Off P .dma] [Off P .prot] [Off P .plv] [Off P .tst] (s : State) : ∀ z, execMbxGo s = .next z → mask P z = mask P s := by
  intro r h; unfold execMbxGo at h; cases h; simp

theorem execMgtTimeout_mask [Off P .evts] [Off P .bnd] (s : State) : ∀ z, execMgtTimeout s = .next z → mask P z = mask P s := by
  intro r h; unfold execMgtTimeout at h; (try dsimp only at h); (repeat' split at h) <;> cases h <;> simp

theorem execLecternRestartDone_mask [Off P .free] [Off P .regs] [Off P .bumps] [Off P .evts] [Off P .bnd] [Off P .flt] [Off P .lanes] [Off P .ports] [Off P .banks] [Off P .ips] [Off P .tx] [Off P .wb] [Off P .col] [Off P .dma] [Off P .prot] [Off P .lect] [Off P .plv] [Off P .tst] (s : State) : ∀ z, execLecternRestartDone s = .next z → mask P z = mask P s := by
  intro r h; unfold execLecternRestartDone at h; (try dsimp only at h); (repeat' split at h) <;> cases h <;> simp

theorem execProCmdAbort_mask [Off P .free] [Off P .regs] [Off P .bumps] [Off P .evts] [Off P .bnd] [Off P .ports] [Off P .prot] [Off P .plv] (agent : Bool) (s : State) : ∀ z, execProCmdAbort agent s = .next z → mask P z = mask P s := by
  intro r h; unfold execProCmdAbort at h; cases h; simp

theorem execArmCheckDone_mask [Off P .free] [Off P .regs] [Off P .bumps] [Off P .evts] [Off P .ports] [Off P .prot] [Off P .plv] (bad : Bool) (s : State) : ∀ z, execArmCheckDone bad s = .next z → mask P z = mask P s := by
  intro r h; unfold execArmCheckDone at h; (try dsimp only at h); (repeat' split at h) <;> cases h <;> simp

theorem execTapTstAcc_mask [Off P .free] [Off P .regs] [Off P .bumps] [Off P .evts] [Off P .flt] [Off P .lanes] [Off P .ports] [Off P .banks] [Off P .ips] [Off P .tx] [Off P .wb] [Off P .col] [Off P .dma] [Off P .prot] [Off P .plv] [Off P .tst] (off : BitVec 16) (write : Bool) (data : Word) (s : State) : ∀ z, execTapTstAcc off write data s = .next z → mask P z = mask P s := by
  intro r h; unfold execTapTstAcc at h; (try dsimp only at h); (repeat' split at h) <;> cases h <;> simp

@[simp] theorem ok_mask (pay : List Nat) (s : State) : mask P (ok pay s).2.2 = mask P s := by
  unfold ok; simp

@[simp] theorem refuse_mask (st : Nat) (s : State) : mask P (refuse st s).2.2 = mask P s := by
  unfold refuse; simp

@[simp] theorem decided_mask [Off P .flt] [Off P .lect] (opc : Nat) (unit : Nat) (act : FaultAct) (s : State) : mask P (decided opc unit act s) = mask P s := by
  unfold decided; simp

@[simp] theorem repairReply_mask [Off P .flt] [Off P .lect] (opc : Nat) (unit : Nat) (act : FaultAct) (st : Nat) (s : State) : mask P (repairReply opc unit act st s).2.2 = mask P s := by
  unfold repairReply; simp

@[simp] theorem opIdent_mask (a0 : List Nat) (a1 : List Nat) (s : State) : mask P (opIdent a0 a1 s).2.2 = mask P s := by
  unfold opIdent; simp

theorem execIdent_mask [Off P .free] [Off P .regs] [Off P .bumps] [Off P .evts] [Off P .ports] [Off P .plv] (s : State) : ∀ z, execIdent s = .next z → mask P z = mask P s := by
  intro r h; unfold execIdent at h; cases h; simp

@[simp] theorem opStateGet_mask (a0 : List Nat) (a1 : List Nat) (s : State) : mask P (opStateGet a0 a1 s).2.2 = mask P s := by
  unfold opStateGet; simp

theorem execStateGet_mask [Off P .free] [Off P .regs] [Off P .bumps] [Off P .evts] [Off P .ports] [Off P .plv] (s : State) : ∀ z, execStateGet s = .next z → mask P z = mask P s := by
  intro r h; unfold execStateGet at h; cases h; simp

@[simp] theorem opStateSet_mask [Off P .bnd] (a0 : List Nat) (p : List Nat) (s : State) : mask P (opStateSet a0 p s).2.2 = mask P s := by
  unfold opStateSet; (try dsimp only); (repeat' split) <;> simp

theorem execStateSet_mask [Off P .free] [Off P .regs] [Off P .bumps] [Off P .evts] [Off P .bnd] [Off P .ports] [Off P .plv] (s : State) : ∀ z, execStateSet s = .next z → mask P z = mask P s := by
  intro r h; unfold execStateSet at h; cases h; simp

@[simp] theorem lecternWrite_mask [Off P .free] [Off P .regs] [Off P .bumps] [Off P .evts] [Off P .flt] [Off P .lanes] [Off P .ports] [Off P .banks] [Off P .ips] [Off P .tx] [Off P .wb] [Off P .col] [Off P .dma] [Off P .prot] [Off P .plv] [Off P .tst] (a : Nat) (v : Word) (s : State) : mask P (lecternWrite a v s).2 = mask P s := by
  unfold lecternWrite
  have := writeReg_mask (P := P) false a v s
  split <;> rename_i h <;> rw [h] at this <;> exact this

@[simp] theorem opDieidSet_mask [Off P .free] [Off P .regs] [Off P .bumps] [Off P .evts] [Off P .flt] [Off P .lanes] [Off P .ports] [Off P .banks] [Off P .ips] [Off P .tx] [Off P .wb] [Off P .col] [Off P .dma] [Off P .prot] [Off P .plv] [Off P .tst] (a0 : List Nat) (p : List Nat) (s : State) : mask P (opDieidSet a0 p s).2.2 = mask P s := by
  unfold opDieidSet; simp

theorem execDieidSet_mask [Off P .free] [Off P .regs] [Off P .bumps] [Off P .evts] [Off P .flt] [Off P .lanes] [Off P .ports] [Off P .banks] [Off P .ips] [Off P .tx] [Off P .wb] [Off P .col] [Off P .dma] [Off P .prot] [Off P .plv] [Off P .tst] (s : State) : ∀ z, execDieidSet s = .next z → mask P z = mask P s := by
  intro r h; unfold execDieidSet at h; cases h; simp

@[simp] theorem opPortMaskSet_mask [Off P .free] [Off P .regs] [Off P .bumps] [Off P .evts] [Off P .flt] [Off P .lanes] [Off P .ports] [Off P .banks] [Off P .ips] [Off P .tx] [Off P .wb] [Off P .col] [Off P .dma] [Off P .prot] [Off P .plv] [Off P .tst] (a0 : List Nat) (p : List Nat) (s : State) : mask P (opPortMaskSet a0 p s).2.2 = mask P s := by
  unfold opPortMaskSet; (try dsimp only); (repeat' split) <;> simp

theorem execPortMaskSet_mask [Off P .free] [Off P .regs] [Off P .bumps] [Off P .evts] [Off P .flt] [Off P .lanes] [Off P .ports] [Off P .banks] [Off P .ips] [Off P .tx] [Off P .wb] [Off P .col] [Off P .dma] [Off P .prot] [Off P .plv] [Off P .tst] (s : State) : ∀ z, execPortMaskSet s = .next z → mask P z = mask P s := by
  intro r h; unfold execPortMaskSet at h; cases h; simp

@[simp] theorem opPortStatus_mask (r : List Nat) (a1 : List Nat) (s : State) : mask P (opPortStatus r a1 s).2.2 = mask P s := by
  unfold opPortStatus; simp

theorem execPortStatus_mask [Off P .free] [Off P .regs] [Off P .bumps] [Off P .evts] [Off P .ports] [Off P .plv] (s : State) : ∀ z, execPortStatus s = .next z → mask P z = mask P s := by
  intro r h; unfold execPortStatus at h; cases h; simp

@[simp] theorem opPortTrain_mask [Off P .ports] (r : List Nat) (pay : List Nat) (s : State) : mask P (opPortTrain r pay s).2.2 = mask P s := by
  unfold opPortTrain; (try dsimp only); (repeat' split) <;> simp

theorem execPortTrain_mask [Off P .free] [Off P .regs] [Off P .bumps] [Off P .evts] [Off P .ports] [Off P .plv] (s : State) : ∀ z, execPortTrain s = .next z → mask P z = mask P s := by
  intro r h; unfold execPortTrain at h; cases h; simp

@[simp] theorem opPortWidth_mask [Off P .regs] [Off P .flt] [Off P .ports] [Off P .lect] (r : List Nat) (pay : List Nat) (s : State) : mask P (opPortWidth r pay s).2.2 = mask P s := by
  unfold opPortWidth; (try dsimp only); (repeat' split) <;> simp

theorem execPortWidth_mask [Off P .free] [Off P .regs] [Off P .bumps] [Off P .evts] [Off P .flt] [Off P .ports] [Off P .lect] [Off P .plv] (s : State) : ∀ z, execPortWidth s = .next z → mask P z = mask P s := by
  intro r h; unfold execPortWidth at h; cases h; simp

@[simp] theorem opPortLose_mask [Off P .flt] [Off P .ports] [Off P .lect] (r : List Nat) (a1 : List Nat) (s : State) : mask P (opPortLose r a1 s).2.2 = mask P s := by
  unfold opPortLose; (try dsimp only); (repeat' split) <;> simp

theorem execPortLose_mask [Off P .free] [Off P .regs] [Off P .bumps] [Off P .evts] [Off P .flt] [Off P .ports] [Off P .lect] [Off P .plv] (s : State) : ∀ z, execPortLose s = .next z → mask P z = mask P s := by
  intro r h; unfold execPortLose at h; cases h; simp

@[simp] theorem returnNext_mask [Off P .returning] (unit : Nat) (s : State) : mask P (returnNext unit s) = mask P s := by
  unfold returnNext; simp

@[simp] theorem opPortReturn_mask [Off P .flt] [Off P .lect] [Off P .returning] (r : List Nat) (a1 : List Nat) (s : State) : mask P (opPortReturn r a1 s).2.2 = mask P s := by
  unfold opPortReturn; (try dsimp only); (repeat' split) <;> simp

theorem execPortReturn_mask [Off P .free] [Off P .regs] [Off P .bumps] [Off P .evts] [Off P .flt] [Off P .ports] [Off P .lect] [Off P .returning] [Off P .plv] (s : State) : ∀ z, execPortReturn s = .next z → mask P z = mask P s := by
  intro r h; unfold execPortReturn at h; cases h; simp

@[simp] theorem opLaneStatus_mask (r : List Nat) (a1 : List Nat) (s : State) : mask P (opLaneStatus r a1 s).2.2 = mask P s := by
  unfold opLaneStatus; simp

theorem execLaneStatus_mask [Off P .free] [Off P .regs] [Off P .bumps] [Off P .evts] [Off P .ports] [Off P .plv] (s : State) : ∀ z, execLaneStatus s = .next z → mask P z = mask P s := by
  intro r h; unfold execLaneStatus at h; cases h; simp

@[simp] theorem opLaneReturn_mask [Off P .flt] [Off P .lect] [Off P .returning] (r : List Nat) (a1 : List Nat) (s : State) : mask P (opLaneReturn r a1 s).2.2 = mask P s := by
  unfold opLaneReturn; split <;> simp

theorem execLaneReturn_mask [Off P .free] [Off P .regs] [Off P .bumps] [Off P .evts] [Off P .flt] [Off P .ports] [Off P .lect] [Off P .returning] [Off P .plv] (s : State) : ∀ z, execLaneReturn s = .next z → mask P z = mask P s := by
  intro r h; unfold execLaneReturn at h; cases h; simp

@[simp] theorem opReturn_mask [Off P .flt] [Off P .lect] [Off P .tst] (opc : Nat) (r : List Nat) (pay : List Nat) (s : State) : mask P (opReturn opc r pay s).2.2 = mask P s := by
  unfold opReturn; (try dsimp only); (repeat' split) <;> simp

theorem execEngineReturn_mask [Off P .free] [Off P .regs] [Off P .bumps] [Off P .evts] [Off P .flt] [Off P .ports] [Off P .lect] [Off P .plv] [Off P .tst] (s : State) : ∀ z, execEngineReturn s = .next z → mask P z = mask P s := by
  intro r h; unfold execEngineReturn at h; cases h; simp

theorem execUnitReturn_mask [Off P .free] [Off P .regs] [Off P .bumps] [Off P .evts] [Off P .flt] [Off P .ports] [Off P .lect] [Off P .plv] [Off P .tst] (s : State) : ∀ z, execUnitReturn s = .next z → mask P z = mask P s := by
  intro r h; unfold execUnitReturn at h; cases h; simp

@[simp] theorem opStage_mask [Off P .evts] [Off P .banks] (k : Nat) (r : List Nat) (p : List Nat) (s : State) : mask P (opStage k r p s).2.2 = mask P s := by
  unfold opStage; (try dsimp only); (repeat' split) <;> simp

@[simp] theorem opTabRead_mask (k : Nat) (r : List Nat) (p : List Nat) (s : State) : mask P (opTabRead k r p s).2.2 = mask P s := by
  unfold opTabRead; (try dsimp only); (repeat' split) <;> simp

theorem execCalWrite_mask [Off P .free] [Off P .regs] [Off P .bumps] [Off P .evts] [Off P .ports] [Off P .banks] [Off P .plv] (s : State) : ∀ z, execCalWrite s = .next z → mask P z = mask P s := by
  intro r h; unfold execCalWrite at h; cases h; simp

theorem execCalRead_mask [Off P .free] [Off P .regs] [Off P .bumps] [Off P .evts] [Off P .ports] [Off P .plv] (s : State) : ∀ z, execCalRead s = .next z → mask P z = mask P s := by
  intro r h; unfold execCalRead at h; cases h; simp

theorem execFlowWrite_mask [Off P .free] [Off P .regs] [Off P .bumps] [Off P .evts] [Off P .ports] [Off P .banks] [Off P .plv] (s : State) : ∀ z, execFlowWrite s = .next z → mask P z = mask P s := by
  intro r h; unfold execFlowWrite at h; cases h; simp

theorem execFlowRead_mask [Off P .free] [Off P .regs] [Off P .bumps] [Off P .evts] [Off P .ports] [Off P .plv] (s : State) : ∀ z, execFlowRead s = .next z → mask P z = mask P s := by
  intro r h; unfold execFlowRead at h; cases h; simp

theorem execGroupWrite_mask [Off P .free] [Off P .regs] [Off P .bumps] [Off P .evts] [Off P .ports] [Off P .banks] [Off P .plv] (s : State) : ∀ z, execGroupWrite s = .next z → mask P z = mask P s := by
  intro r h; unfold execGroupWrite at h; cases h; simp

theorem execGroupRead_mask [Off P .free] [Off P .regs] [Off P .bumps] [Off P .evts] [Off P .ports] [Off P .plv] (s : State) : ∀ z, execGroupRead s = .next z → mask P z = mask P s := by
  intro r h; unfold execGroupRead at h; cases h; simp

theorem execMemberWrite_mask [Off P .free] [Off P .regs] [Off P .bumps] [Off P .evts] [Off P .ports] [Off P .banks] [Off P .plv] (s : State) : ∀ z, execMemberWrite s = .next z → mask P z = mask P s := by
  intro r h; unfold execMemberWrite at h; cases h; simp

theorem execMemberRead_mask [Off P .free] [Off P .regs] [Off P .bumps] [Off P .evts] [Off P .ports] [Off P .plv] (s : State) : ∀ z, execMemberRead s = .next z → mask P z = mask P s := by
  intro r h; unfold execMemberRead at h; cases h; simp

@[simp] theorem opProtStage_mask [Off P .prot] (a0 : List Nat) (p : List Nat) (s : State) : mask P (opProtStage a0 p s).2.2 = mask P s := by
  unfold opProtStage; (try dsimp only); (repeat' split) <;> simp

theorem execProtStage_mask [Off P .free] [Off P .regs] [Off P .bumps] [Off P .evts] [Off P .ports] [Off P .prot] [Off P .plv] (s : State) : ∀ z, execProtStage s = .next z → mask P z = mask P s := by
  intro r h; unfold execProtStage at h; cases h; simp

@[simp] theorem opProtArm_mask [Off P .regs] [Off P .evts] [Off P .prot] (a0 : List Nat) (p : List Nat) (s : State) : mask P (opProtArm a0 p s).2.2 = mask P s := by
  unfold opProtArm; simp

@[simp] theorem runArm_mask [Off P .free] [Off P .regs] [Off P .bumps] [Off P .evts] [Off P .ports] [Off P .prot] [Off P .plv] (s : State) : mask P (runArm s) = mask P s := by
  unfold runArm; split <;> simp

theorem execProtArm_mask [Off P .free] [Off P .regs] [Off P .bumps] [Off P .evts] [Off P .ports] [Off P .prot] [Off P .plv] (s : State) : ∀ z, execProtArm s = .next z → mask P z = mask P s := by
  intro r h; unfold execProtArm at h; cases h; simp

@[simp] theorem opProtCommit_mask [Off P .regs] [Off P .evts] [Off P .prot] (a0 : List Nat) (p : List Nat) (s : State) : mask P (opProtCommit a0 p s).2.2 = mask P s := by
  unfold opProtCommit; simp

theorem execProtCommit_mask [Off P .free] [Off P .regs] [Off P .bumps] [Off P .evts] [Off P .ports] [Off P .prot] [Off P .plv] (s : State) : ∀ z, execProtCommit s = .next z → mask P z = mask P s := by
  intro r h; unfold execProtCommit at h; cases h; simp

@[simp] theorem opProtAbort_mask [Off P .free] [Off P .regs] [Off P .evts] [Off P .prot] (a0 : List Nat) (a1 : List Nat) (s : State) : mask P (opProtAbort a0 a1 s).2.2 = mask P s := by
  unfold opProtAbort; (try dsimp only); (repeat' split) <;> simp

theorem execProtAbort_mask [Off P .free] [Off P .regs] [Off P .bumps] [Off P .evts] [Off P .ports] [Off P .prot] [Off P .plv] (s : State) : ∀ z, execProtAbort s = .next z → mask P z = mask P s := by
  intro r h; unfold execProtAbort at h; cases h; simp

@[simp] theorem opProtStatus_mask (a0 : List Nat) (a1 : List Nat) (s : State) : mask P (opProtStatus a0 a1 s).2.2 = mask P s := by
  unfold opProtStatus; simp

theorem execProtStatus_mask [Off P .free] [Off P .regs] [Off P .bumps] [Off P .evts] [Off P .ports] [Off P .plv] (s : State) : ∀ z, execProtStatus s = .next z → mask P z = mask P s := by
  intro r h; unfold execProtStatus at h; cases h; simp

@[simp] theorem opBistRun_mask [Off P .tst] (r : List Nat) (p : List Nat) (s : State) : mask P (opBistRun r p s).2.2 = mask P s := by
  unfold opBistRun; (try dsimp only); (repeat' split) <;> simp

theorem execBistRun_mask [Off P .free] [Off P .regs] [Off P .bumps] [Off P .evts] [Off P .ports] [Off P .plv] [Off P .tst] (s : State) : ∀ z, execBistRun s = .next z → mask P z = mask P s := by
  intro r h; unfold execBistRun at h; cases h; simp

@[simp] theorem opBistStatus_mask (a0 : List Nat) (a1 : List Nat) (s : State) : mask P (opBistStatus a0 a1 s).2.2 = mask P s := by
  unfold opBistStatus; simp

theorem execBistStatus_mask [Off P .free] [Off P .regs] [Off P .bumps] [Off P .evts] [Off P .ports] [Off P .plv] (s : State) : ∀ z, execBistStatus s = .next z → mask P z = mask P s := by
  intro r h; unfold execBistStatus at h; cases h; simp

@[simp] theorem opBistAbort_mask [Off P .regs] [Off P .bumps] [Off P .evts] [Off P .flt] [Off P .ports] [Off P .quads] [Off P .returning] [Off P .tst] (a0 : List Nat) (a1 : List Nat) (s : State) : mask P (opBistAbort a0 a1 s).2.2 = mask P s := by
  unfold opBistAbort; (try dsimp only); (repeat' split) <;> simp

theorem execBistAbort_mask [Off P .free] [Off P .regs] [Off P .bumps] [Off P .evts] [Off P .flt] [Off P .ports] [Off P .quads] [Off P .returning] [Off P .plv] [Off P .tst] (s : State) : ∀ z, execBistAbort s = .next z → mask P z = mask P s := by
  intro r h; unfold execBistAbort at h; cases h; simp

@[simp] theorem opRepairSoft_mask [Off P .evts] [Off P .flt] [Off P .lect] [Off P .tst] (r : List Nat) (p : List Nat) (s : State) : mask P (opRepairSoft r p s).2.2 = mask P s := by
  unfold opRepairSoft; simp

theorem execRepairSoft_mask [Off P .free] [Off P .regs] [Off P .bumps] [Off P .evts] [Off P .flt] [Off P .ports] [Off P .lect] [Off P .plv] [Off P .tst] (s : State) : ∀ z, execRepairSoft s = .next z → mask P z = mask P s := by
  intro r h; unfold execRepairSoft at h; cases h; simp

@[simp] theorem opRepairBurn_mask [Off P .regs] [Off P .evts] [Off P .flt] [Off P .lect] [Off P .tst] (r : List Nat) (p : List Nat) (s : State) : mask P (opRepairBurn r p s).2.2 = mask P s := by
  unfold opRepairBurn; (try dsimp only); (repeat' split) <;> simp

theorem execRepairBurn_mask [Off P .free] [Off P .regs] [Off P .bumps] [Off P .evts] [Off P .flt] [Off P .ports] [Off P .lect] [Off P .plv] [Off P .tst] (s : State) : ∀ z, execRepairBurn s = .next z → mask P z = mask P s := by
  intro r h; unfold execRepairBurn at h; cases h; simp

@[simp] theorem opRepairRead_mask (a0 : List Nat) (p : List Nat) (s : State) : mask P (opRepairRead a0 p s).2.2 = mask P s := by
  unfold opRepairRead; (try dsimp only); (repeat' split) <;> simp

theorem execRepairRead_mask [Off P .free] [Off P .regs] [Off P .bumps] [Off P .evts] [Off P .ports] [Off P .plv] (s : State) : ∀ z, execRepairRead s = .next z → mask P z = mask P s := by
  intro r h; unfold execRepairRead at h; cases h; simp

@[simp] theorem opDcalReq_mask [Off P .evts] [Off P .lanes] (r : List Nat) (a1 : List Nat) (s : State) : mask P (opDcalReq r a1 s).2.2 = mask P s := by
  unfold opDcalReq; simp

theorem execDcalReq_mask [Off P .free] [Off P .regs] [Off P .bumps] [Off P .evts] [Off P .lanes] [Off P .ports] [Off P .plv] (s : State) : ∀ z, execDcalReq s = .next z → mask P z = mask P s := by
  intro r h; unfold execDcalReq at h; cases h; simp

@[simp] theorem opCalCfgSet_mask [Off P .regs] (a0 : List Nat) (p : List Nat) (s : State) : mask P (opCalCfgSet a0 p s).2.2 = mask P s := by
  unfold opCalCfgSet; (try dsimp only); (repeat' split) <;> simp

theorem execCalCfgSet_mask [Off P .free] [Off P .regs] [Off P .bumps] [Off P .evts] [Off P .ports] [Off P .plv] (s : State) : ∀ z, execCalCfgSet s = .next z → mask P z = mask P s := by
  intro r h; unfold execCalCfgSet at h; cases h; simp

@[simp] theorem opCalStatus_mask (r : List Nat) (a1 : List Nat) (s : State) : mask P (opCalStatus r a1 s).2.2 = mask P s := by
  unfold opCalStatus; simp

theorem execCalStatus_mask [Off P .free] [Off P .regs] [Off P .bumps] [Off P .evts] [Off P .ports] [Off P .plv] (s : State) : ∀ z, execCalStatus s = .next z → mask P z = mask P s := by
  intro r h; unfold execCalStatus at h; cases h; simp

@[simp] theorem poisonEntry_mask [Off P .flt] [Off P .tst] (i : Nat) (s : State) : mask P (poisonEntry i s) = mask P s := by
  unfold poisonEntry; simp

@[simp] theorem opLogRead_mask [Off P .flt] [Off P .tst] (bad : Option Nat) (a1 : List Nat) (p : List Nat) (s : State) : mask P (opLogRead bad a1 p s).2.2 = mask P s := by
  unfold opLogRead; (try dsimp only); (repeat' split) <;> simp

theorem execLogRead_mask [Off P .free] [Off P .regs] [Off P .bumps] [Off P .evts] [Off P .flt] [Off P .ports] [Off P .plv] [Off P .tst] (bad : Option (Fin 1024)) (s : State) : ∀ z, execLogRead bad s = .next z → mask P z = mask P s := by
  intro r h; unfold execLogRead at h; cases h; simp

@[simp] theorem opLogCtl_mask [Off P .regs] [Off P .flt] (a0 : List Nat) (p : List Nat) (s : State) : mask P (opLogCtl a0 p s).2.2 = mask P s := by
  unfold opLogCtl; split <;> simp

theorem execLogCtl_mask [Off P .free] [Off P .regs] [Off P .bumps] [Off P .evts] [Off P .flt] [Off P .ports] [Off P .plv] (s : State) : ∀ z, execLogCtl s = .next z → mask P z = mask P s := by
  intro r h; unfold execLogCtl at h; cases h; simp

@[simp] theorem readWords_mask [Off P .regs] (a0 : Nat) (a1 : Nat) (a2 : State) : mask P (readWords a0 a1 a2).2 = mask P a2 := by
  induction a0 generalizing a1 a2 <;> first | rfl | (simp [readWords, *]; done) | (unfold readWords; (try dsimp only); (repeat' split) <;> simp [*])

@[simp] theorem opRegRead_mask [Off P .regs] (a0 : List Nat) (p : List Nat) (s : State) : mask P (opRegRead a0 p s).2.2 = mask P s := by
  unfold opRegRead; (try dsimp only); (repeat' split) <;> simp

theorem execRegRead_mask [Off P .free] [Off P .regs] [Off P .bumps] [Off P .evts] [Off P .ports] [Off P .plv] (s : State) : ∀ z, execRegRead s = .next z → mask P z = mask P s := by
  intro r h; unfold execRegRead at h; cases h; simp

@[simp] theorem writeWords_mask [Off P .free] [Off P .regs] [Off P .bumps] [Off P .evts] [Off P .flt] [Off P .lanes] [Off P .ports] [Off P .banks] [Off P .ips] [Off P .tx] [Off P .wb] [Off P .col] [Off P .dma] [Off P .prot] [Off P .plv] [Off P .tst] (a0 : List Word) (a1 : Nat) (a2 : Nat) (a3 : State) : mask P (writeWords a0 a1 a2 a3).2.2 = mask P a3 := by
  induction a0 generalizing a1 a2 a3 with
  | nil => simp [writeWords, ok]
  | cons w ws ih =>
    have := softWrite_mask (P := P) false a2 w a3
    unfold writeWords
    split <;> rename_i h <;> rw [h] at this
    · exact this
    · rw [ih]; exact this

@[simp] theorem opRegWrite_mask [Off P .free] [Off P .regs] [Off P .bumps] [Off P .evts] [Off P .flt] [Off P .lanes] [Off P .ports] [Off P .banks] [Off P .ips] [Off P .tx] [Off P .wb] [Off P .col] [Off P .dma] [Off P .prot] [Off P .plv] [Off P .tst] (a0 : List Nat) (p : List Nat) (s : State) : mask P (opRegWrite a0 p s).2.2 = mask P s := by
  unfold opRegWrite; (try dsimp only); (repeat' split) <;> simp

theorem execRegWrite_mask [Off P .free] [Off P .regs] [Off P .bumps] [Off P .evts] [Off P .flt] [Off P .lanes] [Off P .ports] [Off P .banks] [Off P .ips] [Off P .tx] [Off P .wb] [Off P .col] [Off P .dma] [Off P .prot] [Off P .plv] [Off P .tst] (s : State) : ∀ z, execRegWrite s = .next z → mask P z = mask P s := by
  intro r h; unfold execRegWrite at h; cases h; simp

@[simp] theorem opEpochStatus_mask (a0 : List Nat) (a1 : List Nat) (s : State) : mask P (opEpochStatus a0 a1 s).2.2 = mask P s := by
  unfold opEpochStatus; simp

theorem execEpochStatus_mask [Off P .free] [Off P .regs] [Off P .bumps] [Off P .evts] [Off P .ports] [Off P .plv] (s : State) : ∀ z, execEpochStatus s = .next z → mask P z = mask P s := by
  intro r h; unfold execEpochStatus at h; cases h; simp

@[simp] theorem opEpochSet_mask [Off P .free] [Off P .flt] [Off P .banks] [Off P .tst] (bad : Bool) (a1 : List Nat) (p : List Nat) (s : State) : mask P (opEpochSet bad a1 p s).2.2 = mask P s := by
  unfold opEpochSet; (try dsimp only); (repeat' split) <;> simp

theorem execEpochSet_mask [Off P .free] [Off P .regs] [Off P .bumps] [Off P .evts] [Off P .flt] [Off P .ports] [Off P .banks] [Off P .plv] [Off P .tst] (bad : Bool) (s : State) : ∀ z, execEpochSet bad s = .next z → mask P z = mask P s := by
  intro r h; unfold execEpochSet at h; cases h; simp

@[simp] theorem opEpochCancel_mask [Off P .banks] (a0 : List Nat) (a1 : List Nat) (s : State) : mask P (opEpochCancel a0 a1 s).2.2 = mask P s := by
  unfold opEpochCancel; (try dsimp only); (repeat' split) <;> simp

theorem execEpochCancel_mask [Off P .free] [Off P .regs] [Off P .bumps] [Off P .evts] [Off P .ports] [Off P .banks] [Off P .plv] (s : State) : ∀ z, execEpochCancel s = .next z → mask P z = mask P s := by
  intro r h; unfold execEpochCancel at h; cases h; simp

@[simp] theorem opTimeStage_mask [Off P .regs] (a0 : List Nat) (p : List Nat) (s : State) : mask P (opTimeStage a0 p s).2.2 = mask P s := by
  unfold opTimeStage; (try dsimp only); (repeat' split) <;> simp

theorem execTimeStage_mask [Off P .free] [Off P .regs] [Off P .bumps] [Off P .evts] [Off P .ports] [Off P .plv] (s : State) : ∀ z, execTimeStage s = .next z → mask P z = mask P s := by
  intro r h; unfold execTimeStage at h; cases h; simp

@[simp] theorem updBring_mask [Off P .bring] (f : Bringup → Bringup) (s : State) : mask P (updBring f s) = mask P s := by
  unfold updBring; simp

@[simp] theorem coldNow_mask [Off P .ports] (p : Nat) (s : State) : mask P (coldNow p s) = mask P s := by
  unfold coldNow; simp

@[simp] theorem beginOthers_mask [Off P .ports] [Off P .bring] (s : State) : mask P (beginOthers s) = mask P s := by
  unfold beginOthers; simp

@[simp] theorem enterTrain_mask [Off P .regs] [Off P .bumps] [Off P .evts] [Off P .bnd] [Off P .flt] [Off P .ports] [Off P .ips] [Off P .tx] [Off P .bring] (s : State) : mask P (enterTrain s) = mask P s := by
  unfold enterTrain; split <;> simp

@[simp] theorem toState_mask [Off P .regs] [Off P .bumps] [Off P .evts] [Off P .bnd] [Off P .flt] [Off P .ports] [Off P .ips] [Off P .tx] [Off P .bring] (t : AdpState) (s : State) : mask P (toState t s) = mask P s := by
  unfold toState; (try dsimp only); (repeat' split) <;> simp

@[simp] theorem loseUntrained_mask [Off P .regs] [Off P .bumps] [Off P .evts] [Off P .flt] [Off P .ports] [Off P .ips] [Off P .tx] (s : State) : mask P (loseUntrained s) = mask P s := by
  unfold loseUntrained; simp

theorem execTrainToReady_mask [Off P .regs] [Off P .bumps] [Off P .evts] [Off P .bnd] [Off P .flt] [Off P .ports] [Off P .ips] [Off P .tx] [Off P .wb] [Off P .col] [Off P .bring] (s : State) : ∀ z, execTrainToReady s = .next z → mask P z = mask P s := by
  intro r h; unfold execTrainToReady at h; (try dsimp only at h); (repeat' split at h) <;> cases h <;> simp

theorem execTrainStall_mask [Off P .evts] [Off P .bring] (s : State) : ∀ z, execTrainStall s = .next z → mask P z = mask P s := by
  intro r h; unfold execTrainStall at h; (try dsimp only at h); (repeat' split at h) <;> cases h <;> simp

theorem execQuiesceDrained_mask [Off P .regs] [Off P .bumps] [Off P .evts] [Off P .bnd] [Off P .flt] [Off P .ports] [Off P .ips] [Off P .tx] [Off P .bring] (s : State) : ∀ z, execQuiesceDrained s = .next z → mask P z = mask P s := by
  intro r h; unfold execQuiesceDrained at h; (try dsimp only at h); (repeat' split at h) <;> cases h <;> simp

theorem execQuiesceStall_mask [Off P .evts] [Off P .bring] (s : State) : ∀ z, execQuiesceStall s = .next z → mask P z = mask P s := by
  intro r h; unfold execQuiesceStall at h; (try dsimp only at h); (repeat' split at h) <;> cases h <;> simp

@[simp] theorem updBnd_mask [Off P .bnd] (f : Boundary → Boundary) (s : State) : mask P (updBnd f s) = mask P s := by
  unfold updBnd; simp

@[simp] theorem engineOut_mask [Off P .regs] [Off P .ports] (q : Nat) (e : Nat) (s : State) : mask P (engineOut q e s) = mask P s := by
  unfold engineOut; (try dsimp only); (repeat' split) <;> simp

@[simp] theorem applyOut_mask [Off P .regs] [Off P .lanes] [Off P .ports] (s : State) (r : BitVec 128) : mask P (applyOut s r) = mask P s := by
  unfold applyOut; simp

@[simp] theorem setStep_mask [Off P .bnd] (x : ResetStep) (s : State) : mask P (setStep x s) = mask P s := by
  unfold setStep; simp

theorem execResetRelease_mask [Off P .bnd] (s : State) : ∀ z, execResetRelease s = .next z → mask P z = mask P s := by
  intro r h; unfold execResetRelease at h; (try dsimp only at h); (repeat' split at h) <;> cases h <;> simp

theorem execPllLock_mask [Off P .bnd] (s : State) : ∀ z, execPllLock s = .next z → mask P z = mask P s := by
  intro r h; unfold execPllLock at h; (try dsimp only at h); (repeat' split at h) <;> cases h <;> simp

@[simp] theorem noteBad_mask [Off P .regs] [Off P .bumps] [Off P .evts] (a0 : Nat) (a1 : State) : mask P (noteBad a0 a1) = mask P a1 := by
  induction a0 generalizing a1 <;> first | rfl | (simp [noteBad, *]; done) | (unfold noteBad; (try dsimp only); (repeat' split) <;> simp [*])

theorem execEfuseLoad_mask [Off P .regs] [Off P .bumps] [Off P .evts] [Off P .bnd] [Off P .lanes] [Off P .ports] [Off P .tst] (s : State) : ∀ z, execEfuseLoad s = .next z → mask P z = mask P s := by
  intro r h; unfold execEfuseLoad at h; (try dsimp only at h); (repeat' split at h) <;> cases h <;> simp

theorem execSramInitDone_mask [Off P .bnd] (s : State) : ∀ z, execSramInitDone s = .next z → mask P z = mask P s := by
  intro r h; unfold execSramInitDone at h; (try dsimp only at h); (repeat' split at h) <;> cases h <;> simp

@[simp] theorem enterBoot_mask [Off P .regs] [Off P .evts] [Off P .bnd] [Off P .blsb] [Off P .banks] (s : State) : mask P (enterBoot s) = mask P s := by
  unfold enterBoot
  dsimp only
  rw [noteDigest_mask]
  simp [mask, Off.eq (P := P) (p := .bnd), Off.eq (P := P) (p := .blsb), Off.eq (P := P) (p := .evts)]

theorem execLecternStart_mask [Off P .regs] [Off P .evts] [Off P .bnd] [Off P .blsb] [Off P .banks] (s : State) : ∀ z, execLecternStart s = .next z → mask P z = mask P s := by
  intro r h; unfold execLecternStart at h; cases h; simp

theorem execResetStepOverrun_mask [Off P .free] [Off P .regs] [Off P .evts] [Off P .bnd] [Off P .flt] [Off P .lanes] [Off P .ports] (s : State) : ∀ z, execResetStepOverrun s = .next z → mask P z = mask P s := by
  intro r h; unfold execResetStepOverrun at h; (try dsimp only at h); (repeat' split at h) <;> cases h <;> simp

theorem execFreeze_mask [Off P .free] [Off P .regs] [Off P .bnd] [Off P .efuse] [Off P .lanes] [Off P .ports] [Off P .tst] (s : State) : ∀ z, execFreeze s = .next z → mask P z = mask P s := by
  intro r h; unfold execFreeze at h; (try dsimp only at h); (repeat' split at h) <;> cases h <;> simp

theorem execSupplyA_mask [Off P .regs] [Off P .evts] (s : State) : ∀ z, execSupplyA s = .next z → mask P z = mask P s := by
  intro r h; unfold execSupplyA at h; (try dsimp only at h); (repeat' split at h) <;> cases h <;> simp

theorem execSupplyH_mask [Off P .regs] [Off P .evts] (s : State) : ∀ z, execSupplyH s = .next z → mask P z = mask P s := by
  intro r h; unfold execSupplyH at h; (try dsimp only at h); (repeat' split at h) <;> cases h <;> simp

theorem execSupplyRestored_mask [Off P .regs] (vddH : Bool) (s : State) : ∀ z, execSupplyRestored vddH s = .next z → mask P z = mask P s := by
  intro r h; unfold execSupplyRestored at h; (try dsimp only at h); (repeat' split at h) <;> cases h <;> simp

@[simp] theorem clockRec_mask [Off P .flt] (act : FaultAct) (detail : Nat) (s : State) : mask P (clockRec act detail s) = mask P s := by
  unfold clockRec; simp

theorem execRefclkLoss_mask [Off P .regs] [Off P .evts] [Off P .bnd] [Off P .flt] (s : State) : ∀ z, execRefclkLoss s = .next z → mask P z = mask P s := by
  intro r h; unfold execRefclkLoss at h; (try dsimp only at h); (repeat' split at h) <;> cases h <;> simp

@[simp] theorem clockFault_mask [Off P .regs] [Off P .evts] [Off P .bnd] [Off P .flt] [Off P .lanes] [Off P .ports] (detail : Nat) (s : State) : mask P (clockFault detail s) = mask P s := by
  unfold clockFault; simp

theorem execRefclkLossExpiry_mask [Off P .regs] [Off P .evts] [Off P .bnd] [Off P .flt] [Off P .lanes] [Off P .ports] (s : State) : ∀ z, execRefclkLossExpiry s = .next z → mask P z = mask P s := by
  intro r h; unfold execRefclkLossExpiry at h; (try dsimp only at h); (repeat' split at h) <;> cases h <;> simp

theorem execRefclkReturn_mask [Off P .regs] [Off P .bnd] (s : State) : ∀ z, execRefclkReturn s = .next z → mask P z = mask P s := by
  intro r h; unfold execRefclkReturn at h; (try dsimp only at h); (repeat' split at h) <;> cases h <;> simp

theorem execPllUnlock_mask [Off P .regs] [Off P .evts] [Off P .bnd] [Off P .flt] [Off P .lanes] [Off P .ports] (s : State) : ∀ z, execPllUnlock s = .next z → mask P z = mask P s := by
  intro r h; unfold execPllUnlock at h; (try dsimp only at h); (repeat' split at h) <;> cases h <;> simp

theorem execPaceEdge_mask [Off P .regs] [Off P .bumps] [Off P .evts] [Off P .ports] [Off P .ips] [Off P .tx] [Off P .wb] [Off P .col] [Off P .dma] (line : PaceLine) (s : State) : ∀ z, execPaceEdge line s = .next z → mask P z = mask P s := by
  intro r h; unfold execPaceEdge at h; (try dsimp only at h); (repeat' split at h) <;> cases h <;> simp

theorem execPaceLevelFall_mask [Off P .regs] (line : PaceLine) (s : State) : ∀ z, execPaceLevelFall line s = .next z → mask P z = mask P s := by
  intro r h; unfold execPaceLevelFall at h; (try dsimp only at h); (repeat' split at h) <;> cases h <;> simp

@[simp] theorem countBad_mask [Off P .regs] [Off P .bumps] (p : Nat) (which : Nat) (s : State) : mask P (countBad p which s) = mask P s := by
  unfold countBad; split <;> simp

@[simp] theorem noteVerify_mask [Off P .ports] (p : Nat) (which : Nat) (s : State) : mask P (noteVerify p which s) = mask P s := by
  unfold noteVerify; simp

@[simp] theorem failFlit_mask [Off P .regs] [Off P .bumps] [Off P .evts] [Off P .ports] (p : Nat) (k : Nat) (which : Nat) (s : State) : mask P (failFlit p k which s) = mask P s := by
  unfold failFlit; simp

@[simp] theorem failFixed_mask [Off P .regs] [Off P .bumps] [Off P .evts] [Off P .lanes] [Off P .ports] (p : Nat) (k : Nat) (which : Nat) (fixed : List Nat) (s : State) : mask P (failFixed p k which fixed s) = mask P s := by
  unfold failFixed; simp

@[simp] theorem marker_mask [Off P .cts] [Off P .regs] [Off P .evts] [Off P .tb] [Off P .ports] (p : Nat) (m : Marker) (ref : Nat) (s0 : State) : mask P (marker p m ref s0) = mask P s0 := by
  unfold marker; simp

@[simp] theorem peerSummary_mask [Off P .regs] [Off P .evts] (p : Nat) (l : Ledger) (s : State) : mask P (peerSummary p l s) = mask P s := by
  unfold peerSummary; simp

@[simp] theorem compareConfig_mask [Off P .ports] (p : Nat) (l : Ledger) (s : State) : mask P (compareConfig p l s) = mask P s := by
  unfold compareConfig; simp

@[simp] theorem ledger_mask [Off P .regs] [Off P .bumps] [Off P .evts] [Off P .ports] (p : Nat) (slots : List Slot) (late : Bool) (s : State) : mask P (ledger p slots late s) = mask P s := by
  unfold ledger; simp

@[simp] theorem takeFlit_mask [Off P .cts] [Off P .regs] [Off P .bumps] [Off P .evts] [Off P .tb] [Off P .lanes] [Off P .ports] (p : Nat) (k : Nat) (f : Flit) (ref : Nat) (late : Bool) (s : State) : mask P (takeFlit p k f ref late s) = mask P s := by
  unfold takeFlit; (try dsimp only); (repeat' split) <;> simp

@[simp] theorem atSlot0_mask [Off P .regs] [Off P .bumps] [Off P .ports] (p : Nat) (k : Nat) (raw : List Byte) (r : FlitRead) (s : State) : mask P (atSlot0 p k raw r s) = mask P s := by
  unfold atSlot0; simp

@[simp] theorem receiveFlit_mask [Off P .cts] [Off P .regs] [Off P .bumps] [Off P .evts] [Off P .tb] [Off P .lanes] [Off P .ports] (p : Nat) (k : Nat) (wire : List Byte) (ref : Nat) (late : Bool) (s : State) : mask P (receiveFlit p k wire ref late s) = mask P s := by
  unfold receiveFlit; (try dsimp only); (repeat' split) <;> simp

theorem execBadFlitRx_mask [Off P .cts] [Off P .regs] [Off P .bumps] [Off P .evts] [Off P .tb] [Off P .lanes] [Off P .ports] (p : PortId) (slot : Fin 256) (flit : List Byte) (s : State) : ∀ z, execBadFlitRx p slot flit s = .next z → mask P z = mask P s := by
  intro r h; unfold execBadFlitRx at h; cases h; simp

theorem execDataFlitRx_mask [Off P .cts] [Off P .regs] [Off P .bumps] [Off P .evts] [Off P .tb] [Off P .lanes] [Off P .ports] (p : PortId) (slot : Fin 256) (flit : List Byte) (s : State) : ∀ z, execDataFlitRx p slot flit s = .next z → mask P z = mask P s := by
  intro r h; unfold execDataFlitRx at h; cases h; simp

theorem execIdleFlitRx_mask [Off P .cts] [Off P .regs] [Off P .bumps] [Off P .evts] [Off P .tb] [Off P .lanes] [Off P .ports] (p : PortId) (slot : Fin 256) (flit : List Byte) (s : State) : ∀ z, execIdleFlitRx p slot flit s = .next z → mask P z = mask P s := by
  intro r h; unfold execIdleFlitRx at h; cases h; simp

theorem execMarkerRx_mask [Off P .cts] [Off P .regs] [Off P .bumps] [Off P .evts] [Off P .tb] [Off P .lanes] [Off P .ports] (p : PortId) (flit : MarkerFlits) (ref : Nat) (s : State) : ∀ z, execMarkerRx p flit ref s = .next z → mask P z = mask P s := by
  intro r h; unfold execMarkerRx at h; cases h; simp

theorem execLedgerRx_mask [Off P .cts] [Off P .regs] [Off P .bumps] [Off P .evts] [Off P .tb] [Off P .lanes] [Off P .ports] (p : PortId) (flit : List Byte) (late : Bool) (s : State) : ∀ z, execLedgerRx p flit late s = .next z → mask P z = mask P s := by
  intro r h; unfold execLedgerRx at h; cases h; simp

theorem execTrainingFlitRx_mask [Off P .cts] [Off P .regs] [Off P .bumps] [Off P .evts] [Off P .tb] [Off P .lanes] [Off P .ports] (p : PortId) (slot : Fin 256) (flit : List Byte) (ref : Nat) (s : State) : ∀ z, execTrainingFlitRx p slot flit ref s = .next z → mask P z = mask P s := by
  intro r h; unfold execTrainingFlitRx at h; cases h; simp

theorem execMarkerBuild_mask [Off P .cts] [Off P .bumps] [Off P .evts] [Off P .ports] (p : PortId) (s0 : State) : ∀ z, execMarkerBuild p s0 = .next z → mask P z = mask P s0 := by
  intro r h; unfold execMarkerBuild at h; (try dsimp only at h); (repeat' split at h) <;> cases h <;> simp

@[simp] theorem markerNow_mask [Off P .free] (p : Nat) (s : State) : mask P (markerNow p s).2 = mask P s := by
  unfold markerNow; (try dsimp only); (repeat' split) <;> simp

@[simp] theorem sendMarker_mask [Off P .free] [Off P .regs] [Off P .bumps] [Off P .ports] (p : Nat) (s : State) : mask P (sendMarker p s) = mask P s := by
  unfold sendMarker; simp

theorem execLedgerBuild_mask [Off P .cts] [Off P .bumps] [Off P .evts] [Off P .ports] (p : PortId) (s0 : State) : ∀ z, execLedgerBuild p s0 = .next z → mask P z = mask P s0 := by
  intro r h; unfold execLedgerBuild at h; (try dsimp only at h); (repeat' split at h) <;> cases h <;> simp

@[simp] theorem sendLedger_mask [Off P .regs] [Off P .bumps] [Off P .ports] (p : Nat) (s : State) : mask P (sendLedger p s) = mask P s := by
  unfold sendLedger; simp

@[simp] theorem feed_mask [Off P .ports] (p : Nat) (contended : Bool) (s : State) : mask P (feed p contended s) = mask P s := by
  unfold feed; simp

@[simp] theorem rank3_mask [Off P .regs] [Off P .bumps] [Off P .evts] [Off P .ports] (p : Nat) (contended : Bool) (s0 : State) : mask P (rank3 p contended s0) = mask P s0 := by
  unfold rank3
  dsimp only
  split
  · next t h => rw [sendDisplaced_mask (P := P) _ _ _ h]; simp
  · rw [sendUnscheduled_mask]; split <;> simp

@[simp] theorem uncopied_mask [Off P .regs] [Off P .bumps] [Off P .evts] [Off P .ports] (p : Nat) (k : Nat) (contended : Bool) (s : State) : mask P (uncopied p k contended s) = mask P s := by
  unfold uncopied; simp

@[simp] theorem countBadFlow_mask [Off P .regs] [Off P .bumps] (p : Nat) (k : Nat) (s : State) : mask P (countBadFlow p k s) = mask P s := by
  unfold countBadFlow; simp

@[simp] theorem copied_mask [Off P .free] [Off P .regs] [Off P .bumps] [Off P .evts] [Off P .flt] [Off P .ports] [Off P .quads] [Off P .tst] (p : Nat) (k : Nat) (e : SbEntry) (sel : Bool) (uncorr : Bool) (s : State) : mask P (copied p k e sel uncorr s) = mask P s := by
  unfold copied; simp

@[simp] theorem dataSlot_mask [Off P .free] [Off P .regs] [Off P .bumps] [Off P .evts] [Off P .flt] [Off P .ports] [Off P .tx] [Off P .quads] [Off P .tst] (p : Nat) (k : Nat) (contended : Bool) (uncorr : Bool) (s : State) : mask P (dataSlot p k contended uncorr s) = mask P s := by
  unfold dataSlot; (try dsimp only); (repeat' split) <;> simp

@[simp] theorem trainSlot_mask [Off P .free] [Off P .lanes] [Off P .ports] (p : Nat) (k : Nat) (t : Training) (s : State) : mask P (trainSlot p k t s) = mask P s := by
  unfold trainSlot; simp

@[simp] theorem wakeSlot_mask [Off P .free] [Off P .lanes] [Off P .ports] (p : Nat) (k : Nat) (w : Wake) (s : State) : mask P (wakeSlot p k w s) = mask P s := by
  unfold wakeSlot; simp

@[simp] theorem upSlot_mask [Off P .free] [Off P .regs] [Off P .bumps] [Off P .evts] [Off P .flt] [Off P .ports] [Off P .tx] [Off P .quads] [Off P .tst] (p : Nat) (k : Nat) (contended : Bool) (uncorr : Bool) (s0 : State) : mask P (upSlot p k contended uncorr s0) = mask P s0 := by
  unfold upSlot; (try dsimp only); (repeat' split) <;> simp

theorem execFlitSlot_mask [Off P .free] [Off P .cts] [Off P .regs] [Off P .bumps] [Off P .evts] [Off P .flt] [Off P .lanes] [Off P .ports] [Off P .tx] [Off P .quads] [Off P .tst] (p : PortId) (slot : Fin 256) (contended : Bool) (uncorr : Bool) (s0 : State) : ∀ z, execFlitSlot p slot contended uncorr s0 = .next z → mask P z = mask P s0 := by
  intro r h; unfold execFlitSlot at h; (try dsimp only at h); (repeat' split at h) <;> cases h <;> simp

@[simp] theorem leaveUnit_mask [Off P .regs] [Off P .bumps] [Off P .evts] [Off P .ports] [Off P .ips] [Off P .tx] [Off P .wb] [Off P .col] [Off P .dma] (s : State) (u : Nat) : mask P (leaveUnit s u) = mask P s := by
  unfold leaveUnit; simp

@[simp] theorem returnPort_mask [Off P .evts] [Off P .ports] (p : Nat) (s : State) : mask P (returnPort p s) = mask P s := by
  unfold returnPort; simp

@[simp] theorem returnUnit_mask [Off P .regs] [Off P .evts] [Off P .lanes] [Off P .ports] [Off P .quads] (s : State) (u : Nat) : mask P (returnUnit s u) = mask P s := by
  unfold returnUnit; simp

@[simp] theorem moveUnits_mask [Off P .regs] [Off P .bumps] [Off P .evts] [Off P .lanes] [Off P .ports] [Off P .ips] [Off P .tx] [Off P .wb] [Off P .col] [Off P .dma] [Off P .quads] [Off P .leaving] [Off P .returning] (s : State) : mask P (moveUnits s) = mask P s := by
  unfold moveUnits
  dsimp only
  simp [*]
  simp [mask, Off.eq (P := P) (p := .leaving), Off.eq (P := P) (p := .returning)]

@[simp] theorem portMode_mask [Off P .regs] [Off P .bumps] [Off P .evts] [Off P .ports] (p : Nat) (s : State) : mask P (portMode p s) = mask P s := by
  unfold portMode; simp

@[simp] theorem portSkew_mask [Off P .regs] [Off P .bumps] [Off P .evts] [Off P .ports] (p : Nat) (s : State) : mask P (portSkew p s) = mask P s := by
  unfold portSkew; (try dsimp only); (repeat' split) <;> simp

@[simp] theorem portRatio_mask [Off P .regs] [Off P .bumps] [Off P .ports] (p : Nat) (s : State) : mask P (portRatio p s) = mask P s := by
  unfold portRatio; simp

@[simp] theorem portResync_mask [Off P .regs] [Off P .bumps] [Off P .evts] [Off P .ports] (p : Nat) (s : State) : mask P (portResync p s) = mask P s := by
  unfold portResync; split <;> simp

@[simp] theorem portTick_mask [Off P .regs] [Off P .bumps] [Off P .evts] [Off P .flt] [Off P .lanes] [Off P .ports] (s : State) (p : Nat) : mask P (portTick s p) = mask P s := by
  unfold portTick; simp

@[simp] theorem countPower_mask [Off P .regs] [Off P .bumps] (old : State) (s : State) : mask P (countPower old s) = mask P s := by
  unfold countPower; simp

@[simp] theorem laneWindows_mask [Off P .lanes] (s : State) : mask P (laneWindows s) = mask P s := by
  unfold laneWindows; simp

@[simp] theorem chanTicks_mask [Off P .dma] (s : State) : mask P (chanTicks s) = mask P s := by
  unfold chanTicks; simp

@[simp] theorem timeTick_mask [Off P .tb] (s : State) : mask P (timeTick s) = mask P s := by
  unfold timeTick; simp

@[simp] theorem bootTime_mask [Off P .regs] [Off P .tb] [Off P .banks] (boot : Bool) (s : State) : mask P (bootTime boot s) = mask P s := by
  unfold bootTime; simp

@[simp] theorem adapterTick_mask [Off P .regs] [Off P .bumps] [Off P .evts] [Off P .bnd] [Off P .flt] [Off P .ports] [Off P .ips] [Off P .tx] [Off P .bring] (s : State) : mask P (adapterTick s) = mask P s := by
  unfold adapterTick; split <;> simp

@[simp] theorem nextTick_mask [Off P .cts] [Off P .inForce] [Off P .bumps] [Off P .evts] (s : State) : mask P (nextTick s) = mask P s := by
  unfold nextTick; simp

@[simp] theorem noteOver_mask [Off P .bring] (old : State) (s : State) : mask P (noteOver old s) = mask P s := by
  unfold noteOver; simp

@[simp] theorem tickEffects_mask [Off P .regs] [Off P .bumps] [Off P .evts] [Off P .bnd] [Off P .flt] [Off P .tb] [Off P .lanes] [Off P .ports] [Off P .banks] [Off P .ips] [Off P .tx] [Off P .wb] [Off P .col] [Off P .dma] [Off P .quads] [Off P .leaving] [Off P .returning] [Off P .bring] (old : State) (s : State) : mask P (tickEffects old s) = mask P s := by
  unfold tickEffects; simp

@[simp] theorem tickBoundary_mask [Off P .cts] [Off P .regs] [Off P .inForce] [Off P .bumps] [Off P .evts] [Off P .bnd] [Off P .flt] [Off P .tb] [Off P .lanes] [Off P .ports] [Off P .banks] [Off P .ips] [Off P .tx] [Off P .wb] [Off P .col] [Off P .dma] [Off P .quads] [Off P .leaving] [Off P .returning] [Off P .bring] (s : State) : mask P (tickBoundary s) = mask P s := by
  unfold tickBoundary; simp

theorem execTickBoundary_mask [Off P .cts] [Off P .regs] [Off P .inForce] [Off P .bumps] [Off P .evts] [Off P .bnd] [Off P .flt] [Off P .tb] [Off P .lanes] [Off P .ports] [Off P .banks] [Off P .ips] [Off P .tx] [Off P .wb] [Off P .col] [Off P .dma] [Off P .quads] [Off P .leaving] [Off P .returning] [Off P .bring] (s : State) : ∀ z, execTickBoundary s = .next z → mask P z = mask P s := by
  intro r h; unfold execTickBoundary at h; cases h; simp

@[simp] theorem cyclePasses_mask [Off P .free] [Off P .cts] [Off P .regs] [Off P .inForce] [Off P .bumps] [Off P .evts] [Off P .bnd] [Off P .flt] [Off P .blsb] [Off P .tb] [Off P .lanes] [Off P .ports] [Off P .banks] [Off P .ips] [Off P .tx] [Off P .wb] [Off P .col] [Off P .dma] [Off P .quads] [Off P .leaving] [Off P .returning] [Off P .bring] (s : State) : mask P (cyclePasses s) = mask P s := by
  unfold cyclePasses; simp

@[simp] theorem overrun_mask [Off P .free] [Off P .tb] [Off P .ports] [Off P .tst] (item : Nat) (p : Option Nat) (s : State) : mask P (overrun item p s) = mask P s := by
  unfold overrun; split <;> simp

@[simp] theorem unitFails_mask [Off P .regs] [Off P .bumps] [Off P .evts] [Off P .bnd] [Off P .flt] [Off P .blsb] [Off P .tb] [Off P .lanes] [Off P .ports] [Off P .quads] [Off P .returning] [Off P .tst] (u : Nat) (s : State) : mask P (unitFails u s) = mask P s := by
  unfold unitFails; (try dsimp only); (repeat' split) <;> simp

@[simp] theorem recordOverrun_mask [Off P .regs] [Off P .tb] (item : Nat) (unit : Nat) (s : State) : mask P (recordOverrun item unit s) = mask P s := by
  unfold recordOverrun; simp

theorem execTickOverrun_mask [Off P .free] [Off P .regs] [Off P .bumps] [Off P .evts] [Off P .bnd] [Off P .flt] [Off P .blsb] [Off P .tb] [Off P .lanes] [Off P .ports] [Off P .quads] [Off P .returning] [Off P .tst] (item : Fin 8) (unit : BitVec 14) (s : State) : ∀ z, execTickOverrun item unit s = .next z → mask P z = mask P s := by
  intro r h; unfold execTickOverrun at h; (try dsimp only at h); (repeat' split at h) <;> cases h <;> simp

@[simp] theorem State.withFetchWord_mask (s : State) (nbits : Nat) (w : Nat) : mask P (State.withFetchWord s nbits w) = mask P s := by
  induction s generalizing nbits w <;> first | rfl | (simp [State.withFetchWord, *]; done) | (unfold State.withFetchWord; (try dsimp only); (repeat' split) <;> simp [*])

/-- A part left out of a set that holds only `q`. -/
theorem off_only {q p : Part} (h : p ≠ q) : Off (fun x => decide (x = q)) p := ⟨by simp [h]⟩

/-- Nothing is asked about. -/
theorem off_none (p : Part) : Off (fun _ => false) p := ⟨rfl⟩

/-- Equal masks with a part asked about: the part is the same. -/
theorem Part.same_of_mask {q : Part} {s t : State} (h : mask (fun x => decide (x = q)) t = mask (fun x => decide (x = q)) s) :
    q.same s t := by
  cases q <;> simp [mask] at h <;> simp_all [Part.same]

/-- Equal masks: the queue is the same. -/
theorem pending_of_mask {s t : State} (h : mask P t = mask P s) : t.pending = s.pending := by
  have := congrArg State.pending h; simpa [mask] using this

/-- The queue comes through a power-on reset. -/
theorem coldReset_pending (cause : Nat) (s : State) : (coldReset cause s).pending = s.pending := by
  haveI := off_none
  simp only [coldReset, setF, putReg]
  exact pending_of_mask (cutBurn_mask (P := fun _ => false) s)

/-- The queue comes through an adapter reset. -/
theorem warmReset_pending (s : State) : (warmReset s).pending = s.pending := by
  haveI := off_none
  unfold warmReset
  dsimp only
  rw [pending_of_mask (foldl_mask (P := fun _ => false) applyOut _ _ (fun t e => by simp))]
  simp only [setF, putReg]
  rw [pending_of_mask (foldl_mask (P := fun _ => false) _ _ _ (fun t e => by simp))]
  show (cutBurn (enterAllHeld s.flt.held.length s)).pending = s.pending
  exact pending_of_mask (P := fun _ => false) (by simp)

end Sys2Proof.Machine
end

