-- ==== Sys2Proof/Laws/Table.lean ====
section
/-!
SUPPORT. Sparse tables: a write is read back, other keys keep what they read as, and every operation keeps the
canonical form.
-/
namespace Sys2Proof.Machine

variable {α : Type}

theorem tfind?_tput_self (t : Tab α) (k : Nat) (v : α) : tfind? (tput t k v) k = some v := by
  induction t with
  | nil => simp [tput, tfind?]
  | cons e t ih =>
    obtain ⟨i, w⟩ := e
    by_cases h1 : k < i
    · simp [tput, tfind?, h1]
    · by_cases h2 : k = i
      · simp [tput, tfind?, h2]
      · simp [tput, tfind?, h1, h2, Ne.symm h2, ih]

theorem tfind?_tput_ne (t : Tab α) {k j : Nat} (v : α) (h : j ≠ k) : tfind? (tput t k v) j = tfind? t j := by
  induction t with
  | nil => simp [tput, tfind?, Ne.symm h]
  | cons e t ih =>
    obtain ⟨i, w⟩ := e
    by_cases h1 : k < i
    · simp [tput, tfind?, h1, Ne.symm h]
    · by_cases h2 : k = i
      · subst h2; simp [tput, tfind?, Ne.symm h]
      · simp only [tput, h1, h2, if_false, tfind?, ih]

theorem tfind?_tdrop_ne (t : Tab α) {k j : Nat} (h : j ≠ k) : tfind? (tdrop t k) j = tfind? t j := by
  induction t with
  | nil => rfl
  | cons e t ih =>
    obtain ⟨i, w⟩ := e
    by_cases h1 : i = k
    · subst h1; simp [tdrop, tfind?, Ne.symm h, ih]
    · simp only [tdrop, h1, if_false, tfind?, ih]

theorem tfind?_tdrop_self (t : Tab α) (k : Nat) : tfind? (tdrop t k) k = none := by
  induction t with
  | nil => rfl
  | cons e t ih =>
    obtain ⟨i, w⟩ := e
    by_cases h1 : i = k
    · simp [tdrop, h1, ih]
    · simp [tdrop, tfind?, h1, ih]

theorem tabove_trans {t : Tab α} {j k : Nat} (h : tabove k t = true) (hjk : j ≤ k) : tabove j t = true := by
  simp only [tabove, List.all_eq_true, decide_eq_true_eq] at *
  intro e he; have := h e he; omega

theorem tabove_tput {t : Tab α} {j k : Nat} (v : α) (h : tabove j t = true) (hjk : j < k) : tabove j (tput t k v) = true := by
  induction t with
  | nil => simp [tput, tabove, hjk]
  | cons e t ih =>
    obtain ⟨i, w⟩ := e
    simp only [tabove, List.all_cons, Bool.and_eq_true, decide_eq_true_eq] at h
    by_cases h1 : k < i
    · simp only [tput, h1, if_true, tabove, List.all_cons, Bool.and_eq_true, decide_eq_true_eq]; exact ⟨hjk, h.1, h.2⟩
    · by_cases h2 : k = i
      · simp only [tput, h2, if_true, tabove, List.all_cons, Bool.and_eq_true, decide_eq_true_eq, Nat.lt_irrefl, if_false]
        exact ⟨h.1, h.2⟩
      · simp only [tput, h1, h2, if_false, tabove, List.all_cons, Bool.and_eq_true, decide_eq_true_eq]
        exact ⟨h.1, ih h.2⟩

theorem tabove_tdrop {t : Tab α} {j : Nat} (k : Nat) (h : tabove j t = true) : tabove j (tdrop t k) = true := by
  induction t with
  | nil => rfl
  | cons e t ih =>
    obtain ⟨i, w⟩ := e
    simp only [tabove, List.all_cons, Bool.and_eq_true, decide_eq_true_eq] at h
    by_cases h1 : i = k
    · simp only [tdrop, h1, if_true]; exact ih h.2
    · simp only [tdrop, h1, if_false, tabove, List.all_cons, Bool.and_eq_true, decide_eq_true_eq]; exact ⟨h.1, ih h.2⟩

theorem tsorted_tput {t : Tab α} (k : Nat) (v : α) (h : tsorted t = true) : tsorted (tput t k v) = true := by
  induction t with
  | nil => rfl
  | cons e t ih =>
    obtain ⟨i, w⟩ := e
    simp only [tsorted, Bool.and_eq_true] at h
    by_cases h1 : k < i
    · simp only [tput, h1, if_true, tsorted, tabove, List.all_cons, Bool.and_eq_true, decide_eq_true_eq]
      exact ⟨⟨trivial, tabove_trans h.1 (Nat.le_of_lt h1)⟩, h.1, h.2⟩
    · by_cases h2 : k = i
      · simp only [tput, h2, if_true, tsorted, Bool.and_eq_true, Nat.lt_irrefl, if_false]; exact h
      · simp only [tput, h1, h2, if_false, tsorted, Bool.and_eq_true]
        exact ⟨tabove_tput v h.1 (by omega), ih h.2⟩

theorem tsorted_tdrop {t : Tab α} (k : Nat) (h : tsorted t = true) : tsorted (tdrop t k) = true := by
  induction t with
  | nil => rfl
  | cons e t ih =>
    obtain ⟨i, w⟩ := e
    simp only [tsorted, Bool.and_eq_true] at h
    by_cases h1 : i = k
    · simp only [tdrop, h1, if_true]; exact ih h.2
    · simp only [tdrop, h1, if_false, tsorted, Bool.and_eq_true]; exact ⟨tabove_tdrop k h.1, ih h.2⟩

theorem all_tput {t : Tab α} {f : Nat × α → Bool} (k : Nat) (v : α) (h : t.all f = true) (hv : f (k, v) = true) :
    (tput t k v).all f = true := by
  induction t with
  | nil => simp [tput, hv]
  | cons e t ih =>
    obtain ⟨i, w⟩ := e
    simp only [List.all_cons, Bool.and_eq_true] at h
    by_cases h1 : k < i
    · simp only [tput, h1, if_true, List.all_cons, Bool.and_eq_true]; exact ⟨hv, h.1, h.2⟩
    · by_cases h2 : k = i
      · simp only [tput, h2, if_true, List.all_cons, Bool.and_eq_true, Nat.lt_irrefl, if_false]; exact ⟨by rw [← h2]; exact hv, h.2⟩
      · simp only [tput, h1, h2, if_false, List.all_cons, Bool.and_eq_true]; exact ⟨h.1, ih h.2⟩

theorem all_tdrop {t : Tab α} {f : Nat × α → Bool} (k : Nat) (h : t.all f = true) : (tdrop t k).all f = true := by
  induction t with
  | nil => rfl
  | cons e t ih =>
    obtain ⟨i, w⟩ := e
    simp only [List.all_cons, Bool.and_eq_true] at h
    by_cases h1 : i = k
    · simp only [tdrop, h1, if_true]; exact ih h.2
    · simp only [tdrop, h1, if_false, List.all_cons, Bool.and_eq_true]; exact ⟨h.1, ih h.2⟩

variable [DecidableEq α]

/-- A write keeps what other keys read as. -/
theorem tget_tset_ne (d : Nat → α) (t : Tab α) {k j : Nat} (v : α) (h : j ≠ k) : tget d (tset d t k v) j = tget d t j := by
  unfold tget tset
  split
  · rw [tfind?_tdrop_ne t h]
  · rw [tfind?_tput_ne t v h]

/-- What is written is read back. -/
theorem tget_tset_self (d : Nat → α) (t : Tab α) (k : Nat) (v : α) : tget d (tset d t k v) k = v := by
  unfold tget tset
  split
  · next hv => rw [tfind?_tdrop_self, hv]; rfl
  · rw [tfind?_tput_self]; rfl

theorem tget_tmod_ne (d : Nat → α) (t : Tab α) {k j : Nat} (f : α → α) (h : j ≠ k) : tget d (tmod d t k f) j = tget d t j :=
  tget_tset_ne d t _ h

theorem tget_tmod_self (d : Nat → α) (t : Tab α) (k : Nat) (f : α → α) : tget d (tmod d t k f) k = f (tget d t k) :=
  tget_tset_self d t k _

theorem tsorted_tset (d : Nat → α) {t : Tab α} (k : Nat) (v : α) (h : tsorted t = true) : tsorted (tset d t k v) = true := by
  unfold tset
  split
  · exact tsorted_tdrop k h
  · exact tsorted_tput k v h

/-- A write keeps the canonical form. -/
theorem twf_tset (d : Nat → α) {t : Tab α} (k : Nat) (v : α) (h : twf d t = true) : twf d (tset d t k v) = true := by
  simp only [twf, Bool.and_eq_true] at *
  refine ⟨tsorted_tset d k v h.1, ?_⟩
  unfold tset
  split
  · exact all_tdrop k h.2
  · next hv => exact all_tput k v h.2 (by simp [hv])

/-- A change of one entry keeps the canonical form. -/
theorem twf_tmod (d : Nat → α) {t : Tab α} (k : Nat) (f : α → α) (h : twf d t = true) : twf d (tmod d t k f) = true :=
  twf_tset d k _ h

/-- Dropping an entry keeps the canonical form. -/
theorem twf_tdrop (d : Nat → α) {t : Tab α} (k : Nat) (h : twf d t = true) : twf d (tdrop t k) = true := by
  simp only [twf, Bool.and_eq_true] at *
  exact ⟨tsorted_tdrop k h.1, all_tdrop k h.2⟩

theorem twf_sorted {d : Nat → α} {t : Tab α} (h : twf d t = true) : tsorted t = true := by
  simp only [twf, Bool.and_eq_true] at h; exact h.1

/-- A change of a run of entries keeps the canonical form. -/
theorem twf_tmodRange (d : Nat → α) (f : Nat → α → α) (n k : Nat) {t : Tab α} (h : twf d t = true) :
    twf d (tmodRange d f n k t) = true := by
  induction n generalizing k t with
  | zero => exact h
  | succ n ih => exact ih (k + 1) (twf_tmod d k _ h)

end Sys2Proof.Machine
end

