-- ==== Sys2Proof/Laws/State.lean ====
section
/-!
SUPPORT. What the updates of the state do to each of its fields: one lemma per update and field it leaves alone, and the
read-back of the unit or register it changes.
-/
namespace Sys2Proof.Machine

@[simp] theorem putReg_pending (a : Nat) (v : Word) (s : State) : (putReg a v s).pending = s.pending := rfl
@[simp] theorem putReg_free (a : Nat) (v : Word) (s : State) : (putReg a v s).free = s.free := rfl
@[simp] theorem putReg_cts (a : Nat) (v : Word) (s : State) : (putReg a v s).cts = s.cts := rfl
@[simp] theorem putReg_inForce (a : Nat) (v : Word) (s : State) : (putReg a v s).inForce = s.inForce := rfl
@[simp] theorem putReg_bumps (a : Nat) (v : Word) (s : State) : (putReg a v s).bumps = s.bumps := rfl
@[simp] theorem putReg_evts (a : Nat) (v : Word) (s : State) : (putReg a v s).evts = s.evts := rfl
@[simp] theorem putReg_bnd (a : Nat) (v : Word) (s : State) : (putReg a v s).bnd = s.bnd := rfl
@[simp] theorem putReg_flt (a : Nat) (v : Word) (s : State) : (putReg a v s).flt = s.flt := rfl
@[simp] theorem putReg_efuse (a : Nat) (v : Word) (s : State) : (putReg a v s).efuse = s.efuse := rfl
@[simp] theorem putReg_blsb (a : Nat) (v : Word) (s : State) : (putReg a v s).blsb = s.blsb := rfl
@[simp] theorem putReg_tb (a : Nat) (v : Word) (s : State) : (putReg a v s).tb = s.tb := rfl
@[simp] theorem putReg_lanes (a : Nat) (v : Word) (s : State) : (putReg a v s).lanes = s.lanes := rfl
@[simp] theorem putReg_ports (a : Nat) (v : Word) (s : State) : (putReg a v s).ports = s.ports := rfl
@[simp] theorem putReg_banks (a : Nat) (v : Word) (s : State) : (putReg a v s).banks = s.banks := rfl
@[simp] theorem putReg_ips (a : Nat) (v : Word) (s : State) : (putReg a v s).ips = s.ips := rfl
@[simp] theorem putReg_tx (a : Nat) (v : Word) (s : State) : (putReg a v s).tx = s.tx := rfl
@[simp] theorem putReg_wb (a : Nat) (v : Word) (s : State) : (putReg a v s).wb = s.wb := rfl
@[simp] theorem putReg_col (a : Nat) (v : Word) (s : State) : (putReg a v s).col = s.col := rfl
@[simp] theorem putReg_dma (a : Nat) (v : Word) (s : State) : (putReg a v s).dma = s.dma := rfl
@[simp] theorem putReg_granted (a : Nat) (v : Word) (s : State) : (putReg a v s).granted = s.granted := rfl
@[simp] theorem putReg_prot (a : Nat) (v : Word) (s : State) : (putReg a v s).prot = s.prot := rfl
@[simp] theorem putReg_lect (a : Nat) (v : Word) (s : State) : (putReg a v s).lect = s.lect := rfl
@[simp] theorem putReg_quads (a : Nat) (v : Word) (s : State) : (putReg a v s).quads = s.quads := rfl
@[simp] theorem putReg_leaving (a : Nat) (v : Word) (s : State) : (putReg a v s).leaving = s.leaving := rfl
@[simp] theorem putReg_returning (a : Nat) (v : Word) (s : State) : (putReg a v s).returning = s.returning := rfl
@[simp] theorem putReg_plv (a : Nat) (v : Word) (s : State) : (putReg a v s).plv = s.plv := rfl
@[simp] theorem putReg_tst (a : Nat) (v : Word) (s : State) : (putReg a v s).tst = s.tst := rfl
@[simp] theorem putReg_bring (a : Nat) (v : Word) (s : State) : (putReg a v s).bring = s.bring := rfl

@[simp] theorem setF_pending (a : Nat) (lo : Nat) (w : Nat) (x : Nat) (s : State) : (setF a lo w x s).pending = s.pending := rfl
@[simp] theorem setF_free (a : Nat) (lo : Nat) (w : Nat) (x : Nat) (s : State) : (setF a lo w x s).free = s.free := rfl
@[simp] theorem setF_cts (a : Nat) (lo : Nat) (w : Nat) (x : Nat) (s : State) : (setF a lo w x s).cts = s.cts := rfl
@[simp] theorem setF_inForce (a : Nat) (lo : Nat) (w : Nat) (x : Nat) (s : State) : (setF a lo w x s).inForce = s.inForce := rfl
@[simp] theorem setF_bumps (a : Nat) (lo : Nat) (w : Nat) (x : Nat) (s : State) : (setF a lo w x s).bumps = s.bumps := rfl
@[simp] theorem setF_evts (a : Nat) (lo : Nat) (w : Nat) (x : Nat) (s : State) : (setF a lo w x s).evts = s.evts := rfl
@[simp] theorem setF_bnd (a : Nat) (lo : Nat) (w : Nat) (x : Nat) (s : State) : (setF a lo w x s).bnd = s.bnd := rfl
@[simp] theorem setF_flt (a : Nat) (lo : Nat) (w : Nat) (x : Nat) (s : State) : (setF a lo w x s).flt = s.flt := rfl
@[simp] theorem setF_efuse (a : Nat) (lo : Nat) (w : Nat) (x : Nat) (s : State) : (setF a lo w x s).efuse = s.efuse := rfl
@[simp] theorem setF_blsb (a : Nat) (lo : Nat) (w : Nat) (x : Nat) (s : State) : (setF a lo w x s).blsb = s.blsb := rfl
@[simp] theorem setF_tb (a : Nat) (lo : Nat) (w : Nat) (x : Nat) (s : State) : (setF a lo w x s).tb = s.tb := rfl
@[simp] theorem setF_lanes (a : Nat) (lo : Nat) (w : Nat) (x : Nat) (s : State) : (setF a lo w x s).lanes = s.lanes := rfl
@[simp] theorem setF_ports (a : Nat) (lo : Nat) (w : Nat) (x : Nat) (s : State) : (setF a lo w x s).ports = s.ports := rfl
@[simp] theorem setF_banks (a : Nat) (lo : Nat) (w : Nat) (x : Nat) (s : State) : (setF a lo w x s).banks = s.banks := rfl
@[simp] theorem setF_ips (a : Nat) (lo : Nat) (w : Nat) (x : Nat) (s : State) : (setF a lo w x s).ips = s.ips := rfl
@[simp] theorem setF_tx (a : Nat) (lo : Nat) (w : Nat) (x : Nat) (s : State) : (setF a lo w x s).tx = s.tx := rfl
@[simp] theorem setF_wb (a : Nat) (lo : Nat) (w : Nat) (x : Nat) (s : State) : (setF a lo w x s).wb = s.wb := rfl
@[simp] theorem setF_col (a : Nat) (lo : Nat) (w : Nat) (x : Nat) (s : State) : (setF a lo w x s).col = s.col := rfl
@[simp] theorem setF_dma (a : Nat) (lo : Nat) (w : Nat) (x : Nat) (s : State) : (setF a lo w x s).dma = s.dma := rfl
@[simp] theorem setF_granted (a : Nat) (lo : Nat) (w : Nat) (x : Nat) (s : State) : (setF a lo w x s).granted = s.granted := rfl
@[simp] theorem setF_prot (a : Nat) (lo : Nat) (w : Nat) (x : Nat) (s : State) : (setF a lo w x s).prot = s.prot := rfl
@[simp] theorem setF_lect (a : Nat) (lo : Nat) (w : Nat) (x : Nat) (s : State) : (setF a lo w x s).lect = s.lect := rfl
@[simp] theorem setF_quads (a : Nat) (lo : Nat) (w : Nat) (x : Nat) (s : State) : (setF a lo w x s).quads = s.quads := rfl
@[simp] theorem setF_leaving (a : Nat) (lo : Nat) (w : Nat) (x : Nat) (s : State) : (setF a lo w x s).leaving = s.leaving := rfl
@[simp] theorem setF_returning (a : Nat) (lo : Nat) (w : Nat) (x : Nat) (s : State) : (setF a lo w x s).returning = s.returning := rfl
@[simp] theorem setF_plv (a : Nat) (lo : Nat) (w : Nat) (x : Nat) (s : State) : (setF a lo w x s).plv = s.plv := rfl
@[simp] theorem setF_tst (a : Nat) (lo : Nat) (w : Nat) (x : Nat) (s : State) : (setF a lo w x s).tst = s.tst := rfl
@[simp] theorem setF_bring (a : Nat) (lo : Nat) (w : Nat) (x : Nat) (s : State) : (setF a lo w x s).bring = s.bring := rfl

@[simp] theorem raise_pending (b : Nat) (e : Nat) (s : State) : (raise b e s).pending = s.pending := rfl
@[simp] theorem raise_free (b : Nat) (e : Nat) (s : State) : (raise b e s).free = s.free := rfl
@[simp] theorem raise_cts (b : Nat) (e : Nat) (s : State) : (raise b e s).cts = s.cts := rfl
@[simp] theorem raise_regs (b : Nat) (e : Nat) (s : State) : (raise b e s).regs = s.regs := rfl
@[simp] theorem raise_inForce (b : Nat) (e : Nat) (s : State) : (raise b e s).inForce = s.inForce := rfl
@[simp] theorem raise_bumps (b : Nat) (e : Nat) (s : State) : (raise b e s).bumps = s.bumps := rfl
@[simp] theorem raise_bnd (b : Nat) (e : Nat) (s : State) : (raise b e s).bnd = s.bnd := rfl
@[simp] theorem raise_flt (b : Nat) (e : Nat) (s : State) : (raise b e s).flt = s.flt := rfl
@[simp] theorem raise_efuse (b : Nat) (e : Nat) (s : State) : (raise b e s).efuse = s.efuse := rfl
@[simp] theorem raise_blsb (b : Nat) (e : Nat) (s : State) : (raise b e s).blsb = s.blsb := rfl
@[simp] theorem raise_tb (b : Nat) (e : Nat) (s : State) : (raise b e s).tb = s.tb := rfl
@[simp] theorem raise_lanes (b : Nat) (e : Nat) (s : State) : (raise b e s).lanes = s.lanes := rfl
@[simp] theorem raise_ports (b : Nat) (e : Nat) (s : State) : (raise b e s).ports = s.ports := rfl
@[simp] theorem raise_banks (b : Nat) (e : Nat) (s : State) : (raise b e s).banks = s.banks := rfl
@[simp] theorem raise_ips (b : Nat) (e : Nat) (s : State) : (raise b e s).ips = s.ips := rfl
@[simp] theorem raise_tx (b : Nat) (e : Nat) (s : State) : (raise b e s).tx = s.tx := rfl
@[simp] theorem raise_wb (b : Nat) (e : Nat) (s : State) : (raise b e s).wb = s.wb := rfl
@[simp] theorem raise_col (b : Nat) (e : Nat) (s : State) : (raise b e s).col = s.col := rfl
@[simp] theorem raise_dma (b : Nat) (e : Nat) (s : State) : (raise b e s).dma = s.dma := rfl
@[simp] theorem raise_granted (b : Nat) (e : Nat) (s : State) : (raise b e s).granted = s.granted := rfl
@[simp] theorem raise_prot (b : Nat) (e : Nat) (s : State) : (raise b e s).prot = s.prot := rfl
@[simp] theorem raise_lect (b : Nat) (e : Nat) (s : State) : (raise b e s).lect = s.lect := rfl
@[simp] theorem raise_quads (b : Nat) (e : Nat) (s : State) : (raise b e s).quads = s.quads := rfl
@[simp] theorem raise_leaving (b : Nat) (e : Nat) (s : State) : (raise b e s).leaving = s.leaving := rfl
@[simp] theorem raise_returning (b : Nat) (e : Nat) (s : State) : (raise b e s).returning = s.returning := rfl
@[simp] theorem raise_plv (b : Nat) (e : Nat) (s : State) : (raise b e s).plv = s.plv := rfl
@[simp] theorem raise_tst (b : Nat) (e : Nat) (s : State) : (raise b e s).tst = s.tst := rfl
@[simp] theorem raise_bring (b : Nat) (e : Nat) (s : State) : (raise b e s).bring = s.bring := rfl

@[simp] theorem handOver_pending (src : Nat) (unit : Nat) (lvl : FaultLevel) (code : Nat) (act : FaultAct) (detail : Nat) (s : State) : (handOver src unit lvl code act detail s).pending = s.pending := rfl
@[simp] theorem handOver_free (src : Nat) (unit : Nat) (lvl : FaultLevel) (code : Nat) (act : FaultAct) (detail : Nat) (s : State) : (handOver src unit lvl code act detail s).free = s.free := rfl
@[simp] theorem handOver_cts (src : Nat) (unit : Nat) (lvl : FaultLevel) (code : Nat) (act : FaultAct) (detail : Nat) (s : State) : (handOver src unit lvl code act detail s).cts = s.cts := rfl
@[simp] theorem handOver_regs (src : Nat) (unit : Nat) (lvl : FaultLevel) (code : Nat) (act : FaultAct) (detail : Nat) (s : State) : (handOver src unit lvl code act detail s).regs = s.regs := rfl
@[simp] theorem handOver_inForce (src : Nat) (unit : Nat) (lvl : FaultLevel) (code : Nat) (act : FaultAct) (detail : Nat) (s : State) : (handOver src unit lvl code act detail s).inForce = s.inForce := rfl
@[simp] theorem handOver_bumps (src : Nat) (unit : Nat) (lvl : FaultLevel) (code : Nat) (act : FaultAct) (detail : Nat) (s : State) : (handOver src unit lvl code act detail s).bumps = s.bumps := rfl
@[simp] theorem handOver_evts (src : Nat) (unit : Nat) (lvl : FaultLevel) (code : Nat) (act : FaultAct) (detail : Nat) (s : State) : (handOver src unit lvl code act detail s).evts = s.evts := rfl
@[simp] theorem handOver_bnd (src : Nat) (unit : Nat) (lvl : FaultLevel) (code : Nat) (act : FaultAct) (detail : Nat) (s : State) : (handOver src unit lvl code act detail s).bnd = s.bnd := rfl
@[simp] theorem handOver_efuse (src : Nat) (unit : Nat) (lvl : FaultLevel) (code : Nat) (act : FaultAct) (detail : Nat) (s : State) : (handOver src unit lvl code act detail s).efuse = s.efuse := rfl
@[simp] theorem handOver_blsb (src : Nat) (unit : Nat) (lvl : FaultLevel) (code : Nat) (act : FaultAct) (detail : Nat) (s : State) : (handOver src unit lvl code act detail s).blsb = s.blsb := rfl
@[simp] theorem handOver_tb (src : Nat) (unit : Nat) (lvl : FaultLevel) (code : Nat) (act : FaultAct) (detail : Nat) (s : State) : (handOver src unit lvl code act detail s).tb = s.tb := rfl
@[simp] theorem handOver_lanes (src : Nat) (unit : Nat) (lvl : FaultLevel) (code : Nat) (act : FaultAct) (detail : Nat) (s : State) : (handOver src unit lvl code act detail s).lanes = s.lanes := rfl
@[simp] theorem handOver_ports (src : Nat) (unit : Nat) (lvl : FaultLevel) (code : Nat) (act : FaultAct) (detail : Nat) (s : State) : (handOver src unit lvl code act detail s).ports = s.ports := rfl
@[simp] theorem handOver_banks (src : Nat) (unit : Nat) (lvl : FaultLevel) (code : Nat) (act : FaultAct) (detail : Nat) (s : State) : (handOver src unit lvl code act detail s).banks = s.banks := rfl
@[simp] theorem handOver_ips (src : Nat) (unit : Nat) (lvl : FaultLevel) (code : Nat) (act : FaultAct) (detail : Nat) (s : State) : (handOver src unit lvl code act detail s).ips = s.ips := rfl
@[simp] theorem handOver_tx (src : Nat) (unit : Nat) (lvl : FaultLevel) (code : Nat) (act : FaultAct) (detail : Nat) (s : State) : (handOver src unit lvl code act detail s).tx = s.tx := rfl
@[simp] theorem handOver_wb (src : Nat) (unit : Nat) (lvl : FaultLevel) (code : Nat) (act : FaultAct) (detail : Nat) (s : State) : (handOver src unit lvl code act detail s).wb = s.wb := rfl
@[simp] theorem handOver_col (src : Nat) (unit : Nat) (lvl : FaultLevel) (code : Nat) (act : FaultAct) (detail : Nat) (s : State) : (handOver src unit lvl code act detail s).col = s.col := rfl
@[simp] theorem handOver_dma (src : Nat) (unit : Nat) (lvl : FaultLevel) (code : Nat) (act : FaultAct) (detail : Nat) (s : State) : (handOver src unit lvl code act detail s).dma = s.dma := rfl
@[simp] theorem handOver_granted (src : Nat) (unit : Nat) (lvl : FaultLevel) (code : Nat) (act : FaultAct) (detail : Nat) (s : State) : (handOver src unit lvl code act detail s).granted = s.granted := rfl
@[simp] theorem handOver_prot (src : Nat) (unit : Nat) (lvl : FaultLevel) (code : Nat) (act : FaultAct) (detail : Nat) (s : State) : (handOver src unit lvl code act detail s).prot = s.prot := rfl
@[simp] theorem handOver_lect (src : Nat) (unit : Nat) (lvl : FaultLevel) (code : Nat) (act : FaultAct) (detail : Nat) (s : State) : (handOver src unit lvl code act detail s).lect = s.lect := rfl
@[simp] theorem handOver_quads (src : Nat) (unit : Nat) (lvl : FaultLevel) (code : Nat) (act : FaultAct) (detail : Nat) (s : State) : (handOver src unit lvl code act detail s).quads = s.quads := rfl
@[simp] theorem handOver_leaving (src : Nat) (unit : Nat) (lvl : FaultLevel) (code : Nat) (act : FaultAct) (detail : Nat) (s : State) : (handOver src unit lvl code act detail s).leaving = s.leaving := rfl
@[simp] theorem handOver_returning (src : Nat) (unit : Nat) (lvl : FaultLevel) (code : Nat) (act : FaultAct) (detail : Nat) (s : State) : (handOver src unit lvl code act detail s).returning = s.returning := rfl
@[simp] theorem handOver_plv (src : Nat) (unit : Nat) (lvl : FaultLevel) (code : Nat) (act : FaultAct) (detail : Nat) (s : State) : (handOver src unit lvl code act detail s).plv = s.plv := rfl
@[simp] theorem handOver_tst (src : Nat) (unit : Nat) (lvl : FaultLevel) (code : Nat) (act : FaultAct) (detail : Nat) (s : State) : (handOver src unit lvl code act detail s).tst = s.tst := rfl
@[simp] theorem handOver_bring (src : Nat) (unit : Nat) (lvl : FaultLevel) (code : Nat) (act : FaultAct) (detail : Nat) (s : State) : (handOver src unit lvl code act detail s).bring = s.bring := rfl

@[simp] theorem updPort_pending (p : Nat) (f : Port → Port) (s : State) : (updPort p f s).pending = s.pending := rfl
@[simp] theorem updPort_free (p : Nat) (f : Port → Port) (s : State) : (updPort p f s).free = s.free := rfl
@[simp] theorem updPort_cts (p : Nat) (f : Port → Port) (s : State) : (updPort p f s).cts = s.cts := rfl
@[simp] theorem updPort_regs (p : Nat) (f : Port → Port) (s : State) : (updPort p f s).regs = s.regs := rfl
@[simp] theorem updPort_inForce (p : Nat) (f : Port → Port) (s : State) : (updPort p f s).inForce = s.inForce := rfl
@[simp] theorem updPort_bumps (p : Nat) (f : Port → Port) (s : State) : (updPort p f s).bumps = s.bumps := rfl
@[simp] theorem updPort_evts (p : Nat) (f : Port → Port) (s : State) : (updPort p f s).evts = s.evts := rfl
@[simp] theorem updPort_bnd (p : Nat) (f : Port → Port) (s : State) : (updPort p f s).bnd = s.bnd := rfl
@[simp] theorem updPort_flt (p : Nat) (f : Port → Port) (s : State) : (updPort p f s).flt = s.flt := rfl
@[simp] theorem updPort_efuse (p : Nat) (f : Port → Port) (s : State) : (updPort p f s).efuse = s.efuse := rfl
@[simp] theorem updPort_blsb (p : Nat) (f : Port → Port) (s : State) : (updPort p f s).blsb = s.blsb := rfl
@[simp] theorem updPort_tb (p : Nat) (f : Port → Port) (s : State) : (updPort p f s).tb = s.tb := rfl
@[simp] theorem updPort_lanes (p : Nat) (f : Port → Port) (s : State) : (updPort p f s).lanes = s.lanes := rfl
@[simp] theorem updPort_banks (p : Nat) (f : Port → Port) (s : State) : (updPort p f s).banks = s.banks := rfl
@[simp] theorem updPort_ips (p : Nat) (f : Port → Port) (s : State) : (updPort p f s).ips = s.ips := rfl
@[simp] theorem updPort_tx (p : Nat) (f : Port → Port) (s : State) : (updPort p f s).tx = s.tx := rfl
@[simp] theorem updPort_wb (p : Nat) (f : Port → Port) (s : State) : (updPort p f s).wb = s.wb := rfl
@[simp] theorem updPort_col (p : Nat) (f : Port → Port) (s : State) : (updPort p f s).col = s.col := rfl
@[simp] theorem updPort_dma (p : Nat) (f : Port → Port) (s : State) : (updPort p f s).dma = s.dma := rfl
@[simp] theorem updPort_granted (p : Nat) (f : Port → Port) (s : State) : (updPort p f s).granted = s.granted := rfl
@[simp] theorem updPort_prot (p : Nat) (f : Port → Port) (s : State) : (updPort p f s).prot = s.prot := rfl
@[simp] theorem updPort_lect (p : Nat) (f : Port → Port) (s : State) : (updPort p f s).lect = s.lect := rfl
@[simp] theorem updPort_quads (p : Nat) (f : Port → Port) (s : State) : (updPort p f s).quads = s.quads := rfl
@[simp] theorem updPort_leaving (p : Nat) (f : Port → Port) (s : State) : (updPort p f s).leaving = s.leaving := rfl
@[simp] theorem updPort_returning (p : Nat) (f : Port → Port) (s : State) : (updPort p f s).returning = s.returning := rfl
@[simp] theorem updPort_plv (p : Nat) (f : Port → Port) (s : State) : (updPort p f s).plv = s.plv := rfl
@[simp] theorem updPort_tst (p : Nat) (f : Port → Port) (s : State) : (updPort p f s).tst = s.tst := rfl
@[simp] theorem updPort_bring (p : Nat) (f : Port → Port) (s : State) : (updPort p f s).bring = s.bring := rfl

@[simp] theorem updLn_pending (p : Nat) (f : PortLane → PortLane) (s : State) : (updLn p f s).pending = s.pending := rfl
@[simp] theorem updLn_free (p : Nat) (f : PortLane → PortLane) (s : State) : (updLn p f s).free = s.free := rfl
@[simp] theorem updLn_cts (p : Nat) (f : PortLane → PortLane) (s : State) : (updLn p f s).cts = s.cts := rfl
@[simp] theorem updLn_regs (p : Nat) (f : PortLane → PortLane) (s : State) : (updLn p f s).regs = s.regs := rfl
@[simp] theorem updLn_inForce (p : Nat) (f : PortLane → PortLane) (s : State) : (updLn p f s).inForce = s.inForce := rfl
@[simp] theorem updLn_bumps (p : Nat) (f : PortLane → PortLane) (s : State) : (updLn p f s).bumps = s.bumps := rfl
@[simp] theorem updLn_evts (p : Nat) (f : PortLane → PortLane) (s : State) : (updLn p f s).evts = s.evts := rfl
@[simp] theorem updLn_bnd (p : Nat) (f : PortLane → PortLane) (s : State) : (updLn p f s).bnd = s.bnd := rfl
@[simp] theorem updLn_flt (p : Nat) (f : PortLane → PortLane) (s : State) : (updLn p f s).flt = s.flt := rfl
@[simp] theorem updLn_efuse (p : Nat) (f : PortLane → PortLane) (s : State) : (updLn p f s).efuse = s.efuse := rfl
@[simp] theorem updLn_blsb (p : Nat) (f : PortLane → PortLane) (s : State) : (updLn p f s).blsb = s.blsb := rfl
@[simp] theorem updLn_tb (p : Nat) (f : PortLane → PortLane) (s : State) : (updLn p f s).tb = s.tb := rfl
@[simp] theorem updLn_lanes (p : Nat) (f : PortLane → PortLane) (s : State) : (updLn p f s).lanes = s.lanes := rfl
@[simp] theorem updLn_banks (p : Nat) (f : PortLane → PortLane) (s : State) : (updLn p f s).banks = s.banks := rfl
@[simp] theorem updLn_ips (p : Nat) (f : PortLane → PortLane) (s : State) : (updLn p f s).ips = s.ips := rfl
@[simp] theorem updLn_tx (p : Nat) (f : PortLane → PortLane) (s : State) : (updLn p f s).tx = s.tx := rfl
@[simp] theorem updLn_wb (p : Nat) (f : PortLane → PortLane) (s : State) : (updLn p f s).wb = s.wb := rfl
@[simp] theorem updLn_col (p : Nat) (f : PortLane → PortLane) (s : State) : (updLn p f s).col = s.col := rfl
@[simp] theorem updLn_dma (p : Nat) (f : PortLane → PortLane) (s : State) : (updLn p f s).dma = s.dma := rfl
@[simp] theorem updLn_granted (p : Nat) (f : PortLane → PortLane) (s : State) : (updLn p f s).granted = s.granted := rfl
@[simp] theorem updLn_prot (p : Nat) (f : PortLane → PortLane) (s : State) : (updLn p f s).prot = s.prot := rfl
@[simp] theorem updLn_lect (p : Nat) (f : PortLane → PortLane) (s : State) : (updLn p f s).lect = s.lect := rfl
@[simp] theorem updLn_quads (p : Nat) (f : PortLane → PortLane) (s : State) : (updLn p f s).quads = s.quads := rfl
@[simp] theorem updLn_leaving (p : Nat) (f : PortLane → PortLane) (s : State) : (updLn p f s).leaving = s.leaving := rfl
@[simp] theorem updLn_returning (p : Nat) (f : PortLane → PortLane) (s : State) : (updLn p f s).returning = s.returning := rfl
@[simp] theorem updLn_plv (p : Nat) (f : PortLane → PortLane) (s : State) : (updLn p f s).plv = s.plv := rfl
@[simp] theorem updLn_tst (p : Nat) (f : PortLane → PortLane) (s : State) : (updLn p f s).tst = s.tst := rfl
@[simp] theorem updLn_bring (p : Nat) (f : PortLane → PortLane) (s : State) : (updLn p f s).bring = s.bring := rfl

@[simp] theorem updLane_pending (l : Nat) (f : Lane → Lane) (s : State) : (updLane l f s).pending = s.pending := rfl
@[simp] theorem updLane_free (l : Nat) (f : Lane → Lane) (s : State) : (updLane l f s).free = s.free := rfl
@[simp] theorem updLane_cts (l : Nat) (f : Lane → Lane) (s : State) : (updLane l f s).cts = s.cts := rfl
@[simp] theorem updLane_regs (l : Nat) (f : Lane → Lane) (s : State) : (updLane l f s).regs = s.regs := rfl
@[simp] theorem updLane_inForce (l : Nat) (f : Lane → Lane) (s : State) : (updLane l f s).inForce = s.inForce := rfl
@[simp] theorem updLane_bumps (l : Nat) (f : Lane → Lane) (s : State) : (updLane l f s).bumps = s.bumps := rfl
@[simp] theorem updLane_evts (l : Nat) (f : Lane → Lane) (s : State) : (updLane l f s).evts = s.evts := rfl
@[simp] theorem updLane_bnd (l : Nat) (f : Lane → Lane) (s : State) : (updLane l f s).bnd = s.bnd := rfl
@[simp] theorem updLane_flt (l : Nat) (f : Lane → Lane) (s : State) : (updLane l f s).flt = s.flt := rfl
@[simp] theorem updLane_efuse (l : Nat) (f : Lane → Lane) (s : State) : (updLane l f s).efuse = s.efuse := rfl
@[simp] theorem updLane_blsb (l : Nat) (f : Lane → Lane) (s : State) : (updLane l f s).blsb = s.blsb := rfl
@[simp] theorem updLane_tb (l : Nat) (f : Lane → Lane) (s : State) : (updLane l f s).tb = s.tb := rfl
@[simp] theorem updLane_ports (l : Nat) (f : Lane → Lane) (s : State) : (updLane l f s).ports = s.ports := rfl
@[simp] theorem updLane_banks (l : Nat) (f : Lane → Lane) (s : State) : (updLane l f s).banks = s.banks := rfl
@[simp] theorem updLane_ips (l : Nat) (f : Lane → Lane) (s : State) : (updLane l f s).ips = s.ips := rfl
@[simp] theorem updLane_tx (l : Nat) (f : Lane → Lane) (s : State) : (updLane l f s).tx = s.tx := rfl
@[simp] theorem updLane_wb (l : Nat) (f : Lane → Lane) (s : State) : (updLane l f s).wb = s.wb := rfl
@[simp] theorem updLane_col (l : Nat) (f : Lane → Lane) (s : State) : (updLane l f s).col = s.col := rfl
@[simp] theorem updLane_dma (l : Nat) (f : Lane → Lane) (s : State) : (updLane l f s).dma = s.dma := rfl
@[simp] theorem updLane_granted (l : Nat) (f : Lane → Lane) (s : State) : (updLane l f s).granted = s.granted := rfl
@[simp] theorem updLane_prot (l : Nat) (f : Lane → Lane) (s : State) : (updLane l f s).prot = s.prot := rfl
@[simp] theorem updLane_lect (l : Nat) (f : Lane → Lane) (s : State) : (updLane l f s).lect = s.lect := rfl
@[simp] theorem updLane_quads (l : Nat) (f : Lane → Lane) (s : State) : (updLane l f s).quads = s.quads := rfl
@[simp] theorem updLane_leaving (l : Nat) (f : Lane → Lane) (s : State) : (updLane l f s).leaving = s.leaving := rfl
@[simp] theorem updLane_returning (l : Nat) (f : Lane → Lane) (s : State) : (updLane l f s).returning = s.returning := rfl
@[simp] theorem updLane_plv (l : Nat) (f : Lane → Lane) (s : State) : (updLane l f s).plv = s.plv := rfl
@[simp] theorem updLane_tst (l : Nat) (f : Lane → Lane) (s : State) : (updLane l f s).tst = s.tst := rfl
@[simp] theorem updLane_bring (l : Nat) (f : Lane → Lane) (s : State) : (updLane l f s).bring = s.bring := rfl

@[simp] theorem updT_pending (f : Transact → Transact) (s : State) : (updT f s).pending = s.pending := rfl
@[simp] theorem updT_free (f : Transact → Transact) (s : State) : (updT f s).free = s.free := rfl
@[simp] theorem updT_cts (f : Transact → Transact) (s : State) : (updT f s).cts = s.cts := rfl
@[simp] theorem updT_regs (f : Transact → Transact) (s : State) : (updT f s).regs = s.regs := rfl
@[simp] theorem updT_inForce (f : Transact → Transact) (s : State) : (updT f s).inForce = s.inForce := rfl
@[simp] theorem updT_bumps (f : Transact → Transact) (s : State) : (updT f s).bumps = s.bumps := rfl
@[simp] theorem updT_evts (f : Transact → Transact) (s : State) : (updT f s).evts = s.evts := rfl
@[simp] theorem updT_bnd (f : Transact → Transact) (s : State) : (updT f s).bnd = s.bnd := rfl
@[simp] theorem updT_flt (f : Transact → Transact) (s : State) : (updT f s).flt = s.flt := rfl
@[simp] theorem updT_efuse (f : Transact → Transact) (s : State) : (updT f s).efuse = s.efuse := rfl
@[simp] theorem updT_blsb (f : Transact → Transact) (s : State) : (updT f s).blsb = s.blsb := rfl
@[simp] theorem updT_tb (f : Transact → Transact) (s : State) : (updT f s).tb = s.tb := rfl
@[simp] theorem updT_lanes (f : Transact → Transact) (s : State) : (updT f s).lanes = s.lanes := rfl
@[simp] theorem updT_ports (f : Transact → Transact) (s : State) : (updT f s).ports = s.ports := rfl
@[simp] theorem updT_banks (f : Transact → Transact) (s : State) : (updT f s).banks = s.banks := rfl
@[simp] theorem updT_ips (f : Transact → Transact) (s : State) : (updT f s).ips = s.ips := rfl
@[simp] theorem updT_wb (f : Transact → Transact) (s : State) : (updT f s).wb = s.wb := rfl
@[simp] theorem updT_col (f : Transact → Transact) (s : State) : (updT f s).col = s.col := rfl
@[simp] theorem updT_dma (f : Transact → Transact) (s : State) : (updT f s).dma = s.dma := rfl
@[simp] theorem updT_granted (f : Transact → Transact) (s : State) : (updT f s).granted = s.granted := rfl
@[simp] theorem updT_prot (f : Transact → Transact) (s : State) : (updT f s).prot = s.prot := rfl
@[simp] theorem updT_lect (f : Transact → Transact) (s : State) : (updT f s).lect = s.lect := rfl
@[simp] theorem updT_quads (f : Transact → Transact) (s : State) : (updT f s).quads = s.quads := rfl
@[simp] theorem updT_leaving (f : Transact → Transact) (s : State) : (updT f s).leaving = s.leaving := rfl
@[simp] theorem updT_returning (f : Transact → Transact) (s : State) : (updT f s).returning = s.returning := rfl
@[simp] theorem updT_plv (f : Transact → Transact) (s : State) : (updT f s).plv = s.plv := rfl
@[simp] theorem updT_tst (f : Transact → Transact) (s : State) : (updT f s).tst = s.tst := rfl
@[simp] theorem updT_bring (f : Transact → Transact) (s : State) : (updT f s).bring = s.bring := rfl

@[simp] theorem updIp_pending (i : Nat) (f : InnerPort → InnerPort) (s : State) : (updIp i f s).pending = s.pending := rfl
@[simp] theorem updIp_free (i : Nat) (f : InnerPort → InnerPort) (s : State) : (updIp i f s).free = s.free := rfl
@[simp] theorem updIp_cts (i : Nat) (f : InnerPort → InnerPort) (s : State) : (updIp i f s).cts = s.cts := rfl
@[simp] theorem updIp_regs (i : Nat) (f : InnerPort → InnerPort) (s : State) : (updIp i f s).regs = s.regs := rfl
@[simp] theorem updIp_inForce (i : Nat) (f : InnerPort → InnerPort) (s : State) : (updIp i f s).inForce = s.inForce := rfl
@[simp] theorem updIp_bumps (i : Nat) (f : InnerPort → InnerPort) (s : State) : (updIp i f s).bumps = s.bumps := rfl
@[simp] theorem updIp_evts (i : Nat) (f : InnerPort → InnerPort) (s : State) : (updIp i f s).evts = s.evts := rfl
@[simp] theorem updIp_bnd (i : Nat) (f : InnerPort → InnerPort) (s : State) : (updIp i f s).bnd = s.bnd := rfl
@[simp] theorem updIp_flt (i : Nat) (f : InnerPort → InnerPort) (s : State) : (updIp i f s).flt = s.flt := rfl
@[simp] theorem updIp_efuse (i : Nat) (f : InnerPort → InnerPort) (s : State) : (updIp i f s).efuse = s.efuse := rfl
@[simp] theorem updIp_blsb (i : Nat) (f : InnerPort → InnerPort) (s : State) : (updIp i f s).blsb = s.blsb := rfl
@[simp] theorem updIp_tb (i : Nat) (f : InnerPort → InnerPort) (s : State) : (updIp i f s).tb = s.tb := rfl
@[simp] theorem updIp_lanes (i : Nat) (f : InnerPort → InnerPort) (s : State) : (updIp i f s).lanes = s.lanes := rfl
@[simp] theorem updIp_ports (i : Nat) (f : InnerPort → InnerPort) (s : State) : (updIp i f s).ports = s.ports := rfl
@[simp] theorem updIp_banks (i : Nat) (f : InnerPort → InnerPort) (s : State) : (updIp i f s).banks = s.banks := rfl
@[simp] theorem updIp_tx (i : Nat) (f : InnerPort → InnerPort) (s : State) : (updIp i f s).tx = s.tx := rfl
@[simp] theorem updIp_wb (i : Nat) (f : InnerPort → InnerPort) (s : State) : (updIp i f s).wb = s.wb := rfl
@[simp] theorem updIp_col (i : Nat) (f : InnerPort → InnerPort) (s : State) : (updIp i f s).col = s.col := rfl
@[simp] theorem updIp_dma (i : Nat) (f : InnerPort → InnerPort) (s : State) : (updIp i f s).dma = s.dma := rfl
@[simp] theorem updIp_granted (i : Nat) (f : InnerPort → InnerPort) (s : State) : (updIp i f s).granted = s.granted := rfl
@[simp] theorem updIp_prot (i : Nat) (f : InnerPort → InnerPort) (s : State) : (updIp i f s).prot = s.prot := rfl
@[simp] theorem updIp_lect (i : Nat) (f : InnerPort → InnerPort) (s : State) : (updIp i f s).lect = s.lect := rfl
@[simp] theorem updIp_quads (i : Nat) (f : InnerPort → InnerPort) (s : State) : (updIp i f s).quads = s.quads := rfl
@[simp] theorem updIp_leaving (i : Nat) (f : InnerPort → InnerPort) (s : State) : (updIp i f s).leaving = s.leaving := rfl
@[simp] theorem updIp_returning (i : Nat) (f : InnerPort → InnerPort) (s : State) : (updIp i f s).returning = s.returning := rfl
@[simp] theorem updIp_plv (i : Nat) (f : InnerPort → InnerPort) (s : State) : (updIp i f s).plv = s.plv := rfl
@[simp] theorem updIp_tst (i : Nat) (f : InnerPort → InnerPort) (s : State) : (updIp i f s).tst = s.tst := rfl
@[simp] theorem updIp_bring (i : Nat) (f : InnerPort → InnerPort) (s : State) : (updIp i f s).bring = s.bring := rfl

@[simp] theorem updWb_pending (u : Nat) (f : WbUnit → WbUnit) (s : State) : (updWb u f s).pending = s.pending := rfl
@[simp] theorem updWb_free (u : Nat) (f : WbUnit → WbUnit) (s : State) : (updWb u f s).free = s.free := rfl
@[simp] theorem updWb_cts (u : Nat) (f : WbUnit → WbUnit) (s : State) : (updWb u f s).cts = s.cts := rfl
@[simp] theorem updWb_regs (u : Nat) (f : WbUnit → WbUnit) (s : State) : (updWb u f s).regs = s.regs := rfl
@[simp] theorem updWb_inForce (u : Nat) (f : WbUnit → WbUnit) (s : State) : (updWb u f s).inForce = s.inForce := rfl
@[simp] theorem updWb_bumps (u : Nat) (f : WbUnit → WbUnit) (s : State) : (updWb u f s).bumps = s.bumps := rfl
@[simp] theorem updWb_evts (u : Nat) (f : WbUnit → WbUnit) (s : State) : (updWb u f s).evts = s.evts := rfl
@[simp] theorem updWb_bnd (u : Nat) (f : WbUnit → WbUnit) (s : State) : (updWb u f s).bnd = s.bnd := rfl
@[simp] theorem updWb_flt (u : Nat) (f : WbUnit → WbUnit) (s : State) : (updWb u f s).flt = s.flt := rfl
@[simp] theorem updWb_efuse (u : Nat) (f : WbUnit → WbUnit) (s : State) : (updWb u f s).efuse = s.efuse := rfl
@[simp] theorem updWb_blsb (u : Nat) (f : WbUnit → WbUnit) (s : State) : (updWb u f s).blsb = s.blsb := rfl
@[simp] theorem updWb_tb (u : Nat) (f : WbUnit → WbUnit) (s : State) : (updWb u f s).tb = s.tb := rfl
@[simp] theorem updWb_lanes (u : Nat) (f : WbUnit → WbUnit) (s : State) : (updWb u f s).lanes = s.lanes := rfl
@[simp] theorem updWb_ports (u : Nat) (f : WbUnit → WbUnit) (s : State) : (updWb u f s).ports = s.ports := rfl
@[simp] theorem updWb_banks (u : Nat) (f : WbUnit → WbUnit) (s : State) : (updWb u f s).banks = s.banks := rfl
@[simp] theorem updWb_ips (u : Nat) (f : WbUnit → WbUnit) (s : State) : (updWb u f s).ips = s.ips := rfl
@[simp] theorem updWb_tx (u : Nat) (f : WbUnit → WbUnit) (s : State) : (updWb u f s).tx = s.tx := rfl
@[simp] theorem updWb_col (u : Nat) (f : WbUnit → WbUnit) (s : State) : (updWb u f s).col = s.col := rfl
@[simp] theorem updWb_dma (u : Nat) (f : WbUnit → WbUnit) (s : State) : (updWb u f s).dma = s.dma := rfl
@[simp] theorem updWb_granted (u : Nat) (f : WbUnit → WbUnit) (s : State) : (updWb u f s).granted = s.granted := rfl
@[simp] theorem updWb_prot (u : Nat) (f : WbUnit → WbUnit) (s : State) : (updWb u f s).prot = s.prot := rfl
@[simp] theorem updWb_lect (u : Nat) (f : WbUnit → WbUnit) (s : State) : (updWb u f s).lect = s.lect := rfl
@[simp] theorem updWb_quads (u : Nat) (f : WbUnit → WbUnit) (s : State) : (updWb u f s).quads = s.quads := rfl
@[simp] theorem updWb_leaving (u : Nat) (f : WbUnit → WbUnit) (s : State) : (updWb u f s).leaving = s.leaving := rfl
@[simp] theorem updWb_returning (u : Nat) (f : WbUnit → WbUnit) (s : State) : (updWb u f s).returning = s.returning := rfl
@[simp] theorem updWb_plv (u : Nat) (f : WbUnit → WbUnit) (s : State) : (updWb u f s).plv = s.plv := rfl
@[simp] theorem updWb_tst (u : Nat) (f : WbUnit → WbUnit) (s : State) : (updWb u f s).tst = s.tst := rfl
@[simp] theorem updWb_bring (u : Nat) (f : WbUnit → WbUnit) (s : State) : (updWb u f s).bring = s.bring := rfl

@[simp] theorem updStream_pending (u : Nat) (f : Stream → Stream) (s : State) : (updStream u f s).pending = s.pending := rfl
@[simp] theorem updStream_free (u : Nat) (f : Stream → Stream) (s : State) : (updStream u f s).free = s.free := rfl
@[simp] theorem updStream_cts (u : Nat) (f : Stream → Stream) (s : State) : (updStream u f s).cts = s.cts := rfl
@[simp] theorem updStream_regs (u : Nat) (f : Stream → Stream) (s : State) : (updStream u f s).regs = s.regs := rfl
@[simp] theorem updStream_inForce (u : Nat) (f : Stream → Stream) (s : State) : (updStream u f s).inForce = s.inForce := rfl
@[simp] theorem updStream_bumps (u : Nat) (f : Stream → Stream) (s : State) : (updStream u f s).bumps = s.bumps := rfl
@[simp] theorem updStream_evts (u : Nat) (f : Stream → Stream) (s : State) : (updStream u f s).evts = s.evts := rfl
@[simp] theorem updStream_bnd (u : Nat) (f : Stream → Stream) (s : State) : (updStream u f s).bnd = s.bnd := rfl
@[simp] theorem updStream_flt (u : Nat) (f : Stream → Stream) (s : State) : (updStream u f s).flt = s.flt := rfl
@[simp] theorem updStream_efuse (u : Nat) (f : Stream → Stream) (s : State) : (updStream u f s).efuse = s.efuse := rfl
@[simp] theorem updStream_blsb (u : Nat) (f : Stream → Stream) (s : State) : (updStream u f s).blsb = s.blsb := rfl
@[simp] theorem updStream_tb (u : Nat) (f : Stream → Stream) (s : State) : (updStream u f s).tb = s.tb := rfl
@[simp] theorem updStream_lanes (u : Nat) (f : Stream → Stream) (s : State) : (updStream u f s).lanes = s.lanes := rfl
@[simp] theorem updStream_ports (u : Nat) (f : Stream → Stream) (s : State) : (updStream u f s).ports = s.ports := rfl
@[simp] theorem updStream_banks (u : Nat) (f : Stream → Stream) (s : State) : (updStream u f s).banks = s.banks := rfl
@[simp] theorem updStream_ips (u : Nat) (f : Stream → Stream) (s : State) : (updStream u f s).ips = s.ips := rfl
@[simp] theorem updStream_tx (u : Nat) (f : Stream → Stream) (s : State) : (updStream u f s).tx = s.tx := rfl
@[simp] theorem updStream_wb (u : Nat) (f : Stream → Stream) (s : State) : (updStream u f s).wb = s.wb := rfl
@[simp] theorem updStream_dma (u : Nat) (f : Stream → Stream) (s : State) : (updStream u f s).dma = s.dma := rfl
@[simp] theorem updStream_granted (u : Nat) (f : Stream → Stream) (s : State) : (updStream u f s).granted = s.granted := rfl
@[simp] theorem updStream_prot (u : Nat) (f : Stream → Stream) (s : State) : (updStream u f s).prot = s.prot := rfl
@[simp] theorem updStream_lect (u : Nat) (f : Stream → Stream) (s : State) : (updStream u f s).lect = s.lect := rfl
@[simp] theorem updStream_quads (u : Nat) (f : Stream → Stream) (s : State) : (updStream u f s).quads = s.quads := rfl
@[simp] theorem updStream_leaving (u : Nat) (f : Stream → Stream) (s : State) : (updStream u f s).leaving = s.leaving := rfl
@[simp] theorem updStream_returning (u : Nat) (f : Stream → Stream) (s : State) : (updStream u f s).returning = s.returning := rfl
@[simp] theorem updStream_plv (u : Nat) (f : Stream → Stream) (s : State) : (updStream u f s).plv = s.plv := rfl
@[simp] theorem updStream_tst (u : Nat) (f : Stream → Stream) (s : State) : (updStream u f s).tst = s.tst := rfl
@[simp] theorem updStream_bring (u : Nat) (f : Stream → Stream) (s : State) : (updStream u f s).bring = s.bring := rfl

@[simp] theorem updChan_pending (c : Nat) (f : Chan → Chan) (s : State) : (updChan c f s).pending = s.pending := rfl
@[simp] theorem updChan_free (c : Nat) (f : Chan → Chan) (s : State) : (updChan c f s).free = s.free := rfl
@[simp] theorem updChan_cts (c : Nat) (f : Chan → Chan) (s : State) : (updChan c f s).cts = s.cts := rfl
@[simp] theorem updChan_regs (c : Nat) (f : Chan → Chan) (s : State) : (updChan c f s).regs = s.regs := rfl
@[simp] theorem updChan_inForce (c : Nat) (f : Chan → Chan) (s : State) : (updChan c f s).inForce = s.inForce := rfl
@[simp] theorem updChan_bumps (c : Nat) (f : Chan → Chan) (s : State) : (updChan c f s).bumps = s.bumps := rfl
@[simp] theorem updChan_evts (c : Nat) (f : Chan → Chan) (s : State) : (updChan c f s).evts = s.evts := rfl
@[simp] theorem updChan_bnd (c : Nat) (f : Chan → Chan) (s : State) : (updChan c f s).bnd = s.bnd := rfl
@[simp] theorem updChan_flt (c : Nat) (f : Chan → Chan) (s : State) : (updChan c f s).flt = s.flt := rfl
@[simp] theorem updChan_efuse (c : Nat) (f : Chan → Chan) (s : State) : (updChan c f s).efuse = s.efuse := rfl
@[simp] theorem updChan_blsb (c : Nat) (f : Chan → Chan) (s : State) : (updChan c f s).blsb = s.blsb := rfl
@[simp] theorem updChan_tb (c : Nat) (f : Chan → Chan) (s : State) : (updChan c f s).tb = s.tb := rfl
@[simp] theorem updChan_lanes (c : Nat) (f : Chan → Chan) (s : State) : (updChan c f s).lanes = s.lanes := rfl
@[simp] theorem updChan_ports (c : Nat) (f : Chan → Chan) (s : State) : (updChan c f s).ports = s.ports := rfl
@[simp] theorem updChan_banks (c : Nat) (f : Chan → Chan) (s : State) : (updChan c f s).banks = s.banks := rfl
@[simp] theorem updChan_ips (c : Nat) (f : Chan → Chan) (s : State) : (updChan c f s).ips = s.ips := rfl
@[simp] theorem updChan_tx (c : Nat) (f : Chan → Chan) (s : State) : (updChan c f s).tx = s.tx := rfl
@[simp] theorem updChan_wb (c : Nat) (f : Chan → Chan) (s : State) : (updChan c f s).wb = s.wb := rfl
@[simp] theorem updChan_col (c : Nat) (f : Chan → Chan) (s : State) : (updChan c f s).col = s.col := rfl
@[simp] theorem updChan_granted (c : Nat) (f : Chan → Chan) (s : State) : (updChan c f s).granted = s.granted := rfl
@[simp] theorem updChan_prot (c : Nat) (f : Chan → Chan) (s : State) : (updChan c f s).prot = s.prot := rfl
@[simp] theorem updChan_lect (c : Nat) (f : Chan → Chan) (s : State) : (updChan c f s).lect = s.lect := rfl
@[simp] theorem updChan_quads (c : Nat) (f : Chan → Chan) (s : State) : (updChan c f s).quads = s.quads := rfl
@[simp] theorem updChan_leaving (c : Nat) (f : Chan → Chan) (s : State) : (updChan c f s).leaving = s.leaving := rfl
@[simp] theorem updChan_returning (c : Nat) (f : Chan → Chan) (s : State) : (updChan c f s).returning = s.returning := rfl
@[simp] theorem updChan_plv (c : Nat) (f : Chan → Chan) (s : State) : (updChan c f s).plv = s.plv := rfl
@[simp] theorem updChan_tst (c : Nat) (f : Chan → Chan) (s : State) : (updChan c f s).tst = s.tst := rfl
@[simp] theorem updChan_bring (c : Nat) (f : Chan → Chan) (s : State) : (updChan c f s).bring = s.bring := rfl

@[simp] theorem updQuad_pending (q : Nat) (f : Quad → Quad) (s : State) : (updQuad q f s).pending = s.pending := rfl
@[simp] theorem updQuad_free (q : Nat) (f : Quad → Quad) (s : State) : (updQuad q f s).free = s.free := rfl
@[simp] theorem updQuad_cts (q : Nat) (f : Quad → Quad) (s : State) : (updQuad q f s).cts = s.cts := rfl
@[simp] theorem updQuad_regs (q : Nat) (f : Quad → Quad) (s : State) : (updQuad q f s).regs = s.regs := rfl
@[simp] theorem updQuad_inForce (q : Nat) (f : Quad → Quad) (s : State) : (updQuad q f s).inForce = s.inForce := rfl
@[simp] theorem updQuad_bumps (q : Nat) (f : Quad → Quad) (s : State) : (updQuad q f s).bumps = s.bumps := rfl
@[simp] theorem updQuad_evts (q : Nat) (f : Quad → Quad) (s : State) : (updQuad q f s).evts = s.evts := rfl
@[simp] theorem updQuad_bnd (q : Nat) (f : Quad → Quad) (s : State) : (updQuad q f s).bnd = s.bnd := rfl
@[simp] theorem updQuad_flt (q : Nat) (f : Quad → Quad) (s : State) : (updQuad q f s).flt = s.flt := rfl
@[simp] theorem updQuad_efuse (q : Nat) (f : Quad → Quad) (s : State) : (updQuad q f s).efuse = s.efuse := rfl
@[simp] theorem updQuad_blsb (q : Nat) (f : Quad → Quad) (s : State) : (updQuad q f s).blsb = s.blsb := rfl
@[simp] theorem updQuad_tb (q : Nat) (f : Quad → Quad) (s : State) : (updQuad q f s).tb = s.tb := rfl
@[simp] theorem updQuad_lanes (q : Nat) (f : Quad → Quad) (s : State) : (updQuad q f s).lanes = s.lanes := rfl
@[simp] theorem updQuad_ports (q : Nat) (f : Quad → Quad) (s : State) : (updQuad q f s).ports = s.ports := rfl
@[simp] theorem updQuad_banks (q : Nat) (f : Quad → Quad) (s : State) : (updQuad q f s).banks = s.banks := rfl
@[simp] theorem updQuad_ips (q : Nat) (f : Quad → Quad) (s : State) : (updQuad q f s).ips = s.ips := rfl
@[simp] theorem updQuad_tx (q : Nat) (f : Quad → Quad) (s : State) : (updQuad q f s).tx = s.tx := rfl
@[simp] theorem updQuad_wb (q : Nat) (f : Quad → Quad) (s : State) : (updQuad q f s).wb = s.wb := rfl
@[simp] theorem updQuad_col (q : Nat) (f : Quad → Quad) (s : State) : (updQuad q f s).col = s.col := rfl
@[simp] theorem updQuad_dma (q : Nat) (f : Quad → Quad) (s : State) : (updQuad q f s).dma = s.dma := rfl
@[simp] theorem updQuad_granted (q : Nat) (f : Quad → Quad) (s : State) : (updQuad q f s).granted = s.granted := rfl
@[simp] theorem updQuad_prot (q : Nat) (f : Quad → Quad) (s : State) : (updQuad q f s).prot = s.prot := rfl
@[simp] theorem updQuad_lect (q : Nat) (f : Quad → Quad) (s : State) : (updQuad q f s).lect = s.lect := rfl
@[simp] theorem updQuad_leaving (q : Nat) (f : Quad → Quad) (s : State) : (updQuad q f s).leaving = s.leaving := rfl
@[simp] theorem updQuad_returning (q : Nat) (f : Quad → Quad) (s : State) : (updQuad q f s).returning = s.returning := rfl
@[simp] theorem updQuad_plv (q : Nat) (f : Quad → Quad) (s : State) : (updQuad q f s).plv = s.plv := rfl
@[simp] theorem updQuad_tst (q : Nat) (f : Quad → Quad) (s : State) : (updQuad q f s).tst = s.tst := rfl
@[simp] theorem updQuad_bring (q : Nat) (f : Quad → Quad) (s : State) : (updQuad q f s).bring = s.bring := rfl

@[simp] theorem updProt_pending (f : Protect → Protect) (s : State) : (updProt f s).pending = s.pending := rfl
@[simp] theorem updProt_free (f : Protect → Protect) (s : State) : (updProt f s).free = s.free := rfl
@[simp] theorem updProt_cts (f : Protect → Protect) (s : State) : (updProt f s).cts = s.cts := rfl
@[simp] theorem updProt_regs (f : Protect → Protect) (s : State) : (updProt f s).regs = s.regs := rfl
@[simp] theorem updProt_inForce (f : Protect → Protect) (s : State) : (updProt f s).inForce = s.inForce := rfl
@[simp] theorem updProt_bumps (f : Protect → Protect) (s : State) : (updProt f s).bumps = s.bumps := rfl
@[simp] theorem updProt_evts (f : Protect → Protect) (s : State) : (updProt f s).evts = s.evts := rfl
@[simp] theorem updProt_bnd (f : Protect → Protect) (s : State) : (updProt f s).bnd = s.bnd := rfl
@[simp] theorem updProt_flt (f : Protect → Protect) (s : State) : (updProt f s).flt = s.flt := rfl
@[simp] theorem updProt_efuse (f : Protect → Protect) (s : State) : (updProt f s).efuse = s.efuse := rfl
@[simp] theorem updProt_blsb (f : Protect → Protect) (s : State) : (updProt f s).blsb = s.blsb := rfl
@[simp] theorem updProt_tb (f : Protect → Protect) (s : State) : (updProt f s).tb = s.tb := rfl
@[simp] theorem updProt_lanes (f : Protect → Protect) (s : State) : (updProt f s).lanes = s.lanes := rfl
@[simp] theorem updProt_ports (f : Protect → Protect) (s : State) : (updProt f s).ports = s.ports := rfl
@[simp] theorem updProt_banks (f : Protect → Protect) (s : State) : (updProt f s).banks = s.banks := rfl
@[simp] theorem updProt_ips (f : Protect → Protect) (s : State) : (updProt f s).ips = s.ips := rfl
@[simp] theorem updProt_tx (f : Protect → Protect) (s : State) : (updProt f s).tx = s.tx := rfl
@[simp] theorem updProt_wb (f : Protect → Protect) (s : State) : (updProt f s).wb = s.wb := rfl
@[simp] theorem updProt_col (f : Protect → Protect) (s : State) : (updProt f s).col = s.col := rfl
@[simp] theorem updProt_dma (f : Protect → Protect) (s : State) : (updProt f s).dma = s.dma := rfl
@[simp] theorem updProt_granted (f : Protect → Protect) (s : State) : (updProt f s).granted = s.granted := rfl
@[simp] theorem updProt_lect (f : Protect → Protect) (s : State) : (updProt f s).lect = s.lect := rfl
@[simp] theorem updProt_quads (f : Protect → Protect) (s : State) : (updProt f s).quads = s.quads := rfl
@[simp] theorem updProt_leaving (f : Protect → Protect) (s : State) : (updProt f s).leaving = s.leaving := rfl
@[simp] theorem updProt_returning (f : Protect → Protect) (s : State) : (updProt f s).returning = s.returning := rfl
@[simp] theorem updProt_plv (f : Protect → Protect) (s : State) : (updProt f s).plv = s.plv := rfl
@[simp] theorem updProt_tst (f : Protect → Protect) (s : State) : (updProt f s).tst = s.tst := rfl
@[simp] theorem updProt_bring (f : Protect → Protect) (s : State) : (updProt f s).bring = s.bring := rfl

@[simp] theorem updTst_pending (f : TestCtl → TestCtl) (s : State) : (updTst f s).pending = s.pending := rfl
@[simp] theorem updTst_free (f : TestCtl → TestCtl) (s : State) : (updTst f s).free = s.free := rfl
@[simp] theorem updTst_cts (f : TestCtl → TestCtl) (s : State) : (updTst f s).cts = s.cts := rfl
@[simp] theorem updTst_regs (f : TestCtl → TestCtl) (s : State) : (updTst f s).regs = s.regs := rfl
@[simp] theorem updTst_inForce (f : TestCtl → TestCtl) (s : State) : (updTst f s).inForce = s.inForce := rfl
@[simp] theorem updTst_bumps (f : TestCtl → TestCtl) (s : State) : (updTst f s).bumps = s.bumps := rfl
@[simp] theorem updTst_evts (f : TestCtl → TestCtl) (s : State) : (updTst f s).evts = s.evts := rfl
@[simp] theorem updTst_bnd (f : TestCtl → TestCtl) (s : State) : (updTst f s).bnd = s.bnd := rfl
@[simp] theorem updTst_flt (f : TestCtl → TestCtl) (s : State) : (updTst f s).flt = s.flt := rfl
@[simp] theorem updTst_efuse (f : TestCtl → TestCtl) (s : State) : (updTst f s).efuse = s.efuse := rfl
@[simp] theorem updTst_blsb (f : TestCtl → TestCtl) (s : State) : (updTst f s).blsb = s.blsb := rfl
@[simp] theorem updTst_tb (f : TestCtl → TestCtl) (s : State) : (updTst f s).tb = s.tb := rfl
@[simp] theorem updTst_lanes (f : TestCtl → TestCtl) (s : State) : (updTst f s).lanes = s.lanes := rfl
@[simp] theorem updTst_ports (f : TestCtl → TestCtl) (s : State) : (updTst f s).ports = s.ports := rfl
@[simp] theorem updTst_banks (f : TestCtl → TestCtl) (s : State) : (updTst f s).banks = s.banks := rfl
@[simp] theorem updTst_ips (f : TestCtl → TestCtl) (s : State) : (updTst f s).ips = s.ips := rfl
@[simp] theorem updTst_tx (f : TestCtl → TestCtl) (s : State) : (updTst f s).tx = s.tx := rfl
@[simp] theorem updTst_wb (f : TestCtl → TestCtl) (s : State) : (updTst f s).wb = s.wb := rfl
@[simp] theorem updTst_col (f : TestCtl → TestCtl) (s : State) : (updTst f s).col = s.col := rfl
@[simp] theorem updTst_dma (f : TestCtl → TestCtl) (s : State) : (updTst f s).dma = s.dma := rfl
@[simp] theorem updTst_granted (f : TestCtl → TestCtl) (s : State) : (updTst f s).granted = s.granted := rfl
@[simp] theorem updTst_prot (f : TestCtl → TestCtl) (s : State) : (updTst f s).prot = s.prot := rfl
@[simp] theorem updTst_lect (f : TestCtl → TestCtl) (s : State) : (updTst f s).lect = s.lect := rfl
@[simp] theorem updTst_quads (f : TestCtl → TestCtl) (s : State) : (updTst f s).quads = s.quads := rfl
@[simp] theorem updTst_leaving (f : TestCtl → TestCtl) (s : State) : (updTst f s).leaving = s.leaving := rfl
@[simp] theorem updTst_returning (f : TestCtl → TestCtl) (s : State) : (updTst f s).returning = s.returning := rfl
@[simp] theorem updTst_plv (f : TestCtl → TestCtl) (s : State) : (updTst f s).plv = s.plv := rfl
@[simp] theorem updTst_bring (f : TestCtl → TestCtl) (s : State) : (updTst f s).bring = s.bring := rfl

@[simp] theorem updPlv_pending (f : Plovirko → Plovirko) (s : State) : (updPlv f s).pending = s.pending := rfl
@[simp] theorem updPlv_free (f : Plovirko → Plovirko) (s : State) : (updPlv f s).free = s.free := rfl
@[simp] theorem updPlv_cts (f : Plovirko → Plovirko) (s : State) : (updPlv f s).cts = s.cts := rfl
@[simp] theorem updPlv_regs (f : Plovirko → Plovirko) (s : State) : (updPlv f s).regs = s.regs := rfl
@[simp] theorem updPlv_inForce (f : Plovirko → Plovirko) (s : State) : (updPlv f s).inForce = s.inForce := rfl
@[simp] theorem updPlv_bumps (f : Plovirko → Plovirko) (s : State) : (updPlv f s).bumps = s.bumps := rfl
@[simp] theorem updPlv_evts (f : Plovirko → Plovirko) (s : State) : (updPlv f s).evts = s.evts := rfl
@[simp] theorem updPlv_bnd (f : Plovirko → Plovirko) (s : State) : (updPlv f s).bnd = s.bnd := rfl
@[simp] theorem updPlv_flt (f : Plovirko → Plovirko) (s : State) : (updPlv f s).flt = s.flt := rfl
@[simp] theorem updPlv_efuse (f : Plovirko → Plovirko) (s : State) : (updPlv f s).efuse = s.efuse := rfl
@[simp] theorem updPlv_blsb (f : Plovirko → Plovirko) (s : State) : (updPlv f s).blsb = s.blsb := rfl
@[simp] theorem updPlv_tb (f : Plovirko → Plovirko) (s : State) : (updPlv f s).tb = s.tb := rfl
@[simp] theorem updPlv_lanes (f : Plovirko → Plovirko) (s : State) : (updPlv f s).lanes = s.lanes := rfl
@[simp] theorem updPlv_ports (f : Plovirko → Plovirko) (s : State) : (updPlv f s).ports = s.ports := rfl
@[simp] theorem updPlv_banks (f : Plovirko → Plovirko) (s : State) : (updPlv f s).banks = s.banks := rfl
@[simp] theorem updPlv_ips (f : Plovirko → Plovirko) (s : State) : (updPlv f s).ips = s.ips := rfl
@[simp] theorem updPlv_tx (f : Plovirko → Plovirko) (s : State) : (updPlv f s).tx = s.tx := rfl
@[simp] theorem updPlv_wb (f : Plovirko → Plovirko) (s : State) : (updPlv f s).wb = s.wb := rfl
@[simp] theorem updPlv_col (f : Plovirko → Plovirko) (s : State) : (updPlv f s).col = s.col := rfl
@[simp] theorem updPlv_dma (f : Plovirko → Plovirko) (s : State) : (updPlv f s).dma = s.dma := rfl
@[simp] theorem updPlv_granted (f : Plovirko → Plovirko) (s : State) : (updPlv f s).granted = s.granted := rfl
@[simp] theorem updPlv_prot (f : Plovirko → Plovirko) (s : State) : (updPlv f s).prot = s.prot := rfl
@[simp] theorem updPlv_lect (f : Plovirko → Plovirko) (s : State) : (updPlv f s).lect = s.lect := rfl
@[simp] theorem updPlv_quads (f : Plovirko → Plovirko) (s : State) : (updPlv f s).quads = s.quads := rfl
@[simp] theorem updPlv_leaving (f : Plovirko → Plovirko) (s : State) : (updPlv f s).leaving = s.leaving := rfl
@[simp] theorem updPlv_returning (f : Plovirko → Plovirko) (s : State) : (updPlv f s).returning = s.returning := rfl
@[simp] theorem updPlv_tst (f : Plovirko → Plovirko) (s : State) : (updPlv f s).tst = s.tst := rfl
@[simp] theorem updPlv_bring (f : Plovirko → Plovirko) (s : State) : (updPlv f s).bring = s.bring := rfl

@[simp] theorem updBring_pending (f : Bringup → Bringup) (s : State) : (updBring f s).pending = s.pending := rfl
@[simp] theorem updBring_free (f : Bringup → Bringup) (s : State) : (updBring f s).free = s.free := rfl
@[simp] theorem updBring_cts (f : Bringup → Bringup) (s : State) : (updBring f s).cts = s.cts := rfl
@[simp] theorem updBring_regs (f : Bringup → Bringup) (s : State) : (updBring f s).regs = s.regs := rfl
@[simp] theorem updBring_inForce (f : Bringup → Bringup) (s : State) : (updBring f s).inForce = s.inForce := rfl
@[simp] theorem updBring_bumps (f : Bringup → Bringup) (s : State) : (updBring f s).bumps = s.bumps := rfl
@[simp] theorem updBring_evts (f : Bringup → Bringup) (s : State) : (updBring f s).evts = s.evts := rfl
@[simp] theorem updBring_bnd (f : Bringup → Bringup) (s : State) : (updBring f s).bnd = s.bnd := rfl
@[simp] theorem updBring_flt (f : Bringup → Bringup) (s : State) : (updBring f s).flt = s.flt := rfl
@[simp] theorem updBring_efuse (f : Bringup → Bringup) (s : State) : (updBring f s).efuse = s.efuse := rfl
@[simp] theorem updBring_blsb (f : Bringup → Bringup) (s : State) : (updBring f s).blsb = s.blsb := rfl
@[simp] theorem updBring_tb (f : Bringup → Bringup) (s : State) : (updBring f s).tb = s.tb := rfl
@[simp] theorem updBring_lanes (f : Bringup → Bringup) (s : State) : (updBring f s).lanes = s.lanes := rfl
@[simp] theorem updBring_ports (f : Bringup → Bringup) (s : State) : (updBring f s).ports = s.ports := rfl
@[simp] theorem updBring_banks (f : Bringup → Bringup) (s : State) : (updBring f s).banks = s.banks := rfl
@[simp] theorem updBring_ips (f : Bringup → Bringup) (s : State) : (updBring f s).ips = s.ips := rfl
@[simp] theorem updBring_tx (f : Bringup → Bringup) (s : State) : (updBring f s).tx = s.tx := rfl
@[simp] theorem updBring_wb (f : Bringup → Bringup) (s : State) : (updBring f s).wb = s.wb := rfl
@[simp] theorem updBring_col (f : Bringup → Bringup) (s : State) : (updBring f s).col = s.col := rfl
@[simp] theorem updBring_dma (f : Bringup → Bringup) (s : State) : (updBring f s).dma = s.dma := rfl
@[simp] theorem updBring_granted (f : Bringup → Bringup) (s : State) : (updBring f s).granted = s.granted := rfl
@[simp] theorem updBring_prot (f : Bringup → Bringup) (s : State) : (updBring f s).prot = s.prot := rfl
@[simp] theorem updBring_lect (f : Bringup → Bringup) (s : State) : (updBring f s).lect = s.lect := rfl
@[simp] theorem updBring_quads (f : Bringup → Bringup) (s : State) : (updBring f s).quads = s.quads := rfl
@[simp] theorem updBring_leaving (f : Bringup → Bringup) (s : State) : (updBring f s).leaving = s.leaving := rfl
@[simp] theorem updBring_returning (f : Bringup → Bringup) (s : State) : (updBring f s).returning = s.returning := rfl
@[simp] theorem updBring_plv (f : Bringup → Bringup) (s : State) : (updBring f s).plv = s.plv := rfl
@[simp] theorem updBring_tst (f : Bringup → Bringup) (s : State) : (updBring f s).tst = s.tst := rfl

@[simp] theorem updBnd_pending (f : Boundary → Boundary) (s : State) : (updBnd f s).pending = s.pending := rfl
@[simp] theorem updBnd_free (f : Boundary → Boundary) (s : State) : (updBnd f s).free = s.free := rfl
@[simp] theorem updBnd_cts (f : Boundary → Boundary) (s : State) : (updBnd f s).cts = s.cts := rfl
@[simp] theorem updBnd_regs (f : Boundary → Boundary) (s : State) : (updBnd f s).regs = s.regs := rfl
@[simp] theorem updBnd_inForce (f : Boundary → Boundary) (s : State) : (updBnd f s).inForce = s.inForce := rfl
@[simp] theorem updBnd_bumps (f : Boundary → Boundary) (s : State) : (updBnd f s).bumps = s.bumps := rfl
@[simp] theorem updBnd_evts (f : Boundary → Boundary) (s : State) : (updBnd f s).evts = s.evts := rfl
@[simp] theorem updBnd_flt (f : Boundary → Boundary) (s : State) : (updBnd f s).flt = s.flt := rfl
@[simp] theorem updBnd_efuse (f : Boundary → Boundary) (s : State) : (updBnd f s).efuse = s.efuse := rfl
@[simp] theorem updBnd_blsb (f : Boundary → Boundary) (s : State) : (updBnd f s).blsb = s.blsb := rfl
@[simp] theorem updBnd_tb (f : Boundary → Boundary) (s : State) : (updBnd f s).tb = s.tb := rfl
@[simp] theorem updBnd_lanes (f : Boundary → Boundary) (s : State) : (updBnd f s).lanes = s.lanes := rfl
@[simp] theorem updBnd_ports (f : Boundary → Boundary) (s : State) : (updBnd f s).ports = s.ports := rfl
@[simp] theorem updBnd_banks (f : Boundary → Boundary) (s : State) : (updBnd f s).banks = s.banks := rfl
@[simp] theorem updBnd_ips (f : Boundary → Boundary) (s : State) : (updBnd f s).ips = s.ips := rfl
@[simp] theorem updBnd_tx (f : Boundary → Boundary) (s : State) : (updBnd f s).tx = s.tx := rfl
@[simp] theorem updBnd_wb (f : Boundary → Boundary) (s : State) : (updBnd f s).wb = s.wb := rfl
@[simp] theorem updBnd_col (f : Boundary → Boundary) (s : State) : (updBnd f s).col = s.col := rfl
@[simp] theorem updBnd_dma (f : Boundary → Boundary) (s : State) : (updBnd f s).dma = s.dma := rfl
@[simp] theorem updBnd_granted (f : Boundary → Boundary) (s : State) : (updBnd f s).granted = s.granted := rfl
@[simp] theorem updBnd_prot (f : Boundary → Boundary) (s : State) : (updBnd f s).prot = s.prot := rfl
@[simp] theorem updBnd_lect (f : Boundary → Boundary) (s : State) : (updBnd f s).lect = s.lect := rfl
@[simp] theorem updBnd_quads (f : Boundary → Boundary) (s : State) : (updBnd f s).quads = s.quads := rfl
@[simp] theorem updBnd_leaving (f : Boundary → Boundary) (s : State) : (updBnd f s).leaving = s.leaving := rfl
@[simp] theorem updBnd_returning (f : Boundary → Boundary) (s : State) : (updBnd f s).returning = s.returning := rfl
@[simp] theorem updBnd_plv (f : Boundary → Boundary) (s : State) : (updBnd f s).plv = s.plv := rfl
@[simp] theorem updBnd_tst (f : Boundary → Boundary) (s : State) : (updBnd f s).tst = s.tst := rfl
@[simp] theorem updBnd_bring (f : Boundary → Boundary) (s : State) : (updBnd f s).bring = s.bring := rfl

@[simp] theorem bump_pending (a : Nat) (lo : Nat) (w : Nat) (s : State) : (bump a lo w s).pending = s.pending := rfl
@[simp] theorem bump_free (a : Nat) (lo : Nat) (w : Nat) (s : State) : (bump a lo w s).free = s.free := rfl
@[simp] theorem bump_cts (a : Nat) (lo : Nat) (w : Nat) (s : State) : (bump a lo w s).cts = s.cts := rfl
@[simp] theorem bump_inForce (a : Nat) (lo : Nat) (w : Nat) (s : State) : (bump a lo w s).inForce = s.inForce := rfl
@[simp] theorem bump_evts (a : Nat) (lo : Nat) (w : Nat) (s : State) : (bump a lo w s).evts = s.evts := rfl
@[simp] theorem bump_bnd (a : Nat) (lo : Nat) (w : Nat) (s : State) : (bump a lo w s).bnd = s.bnd := rfl
@[simp] theorem bump_flt (a : Nat) (lo : Nat) (w : Nat) (s : State) : (bump a lo w s).flt = s.flt := rfl
@[simp] theorem bump_efuse (a : Nat) (lo : Nat) (w : Nat) (s : State) : (bump a lo w s).efuse = s.efuse := rfl
@[simp] theorem bump_blsb (a : Nat) (lo : Nat) (w : Nat) (s : State) : (bump a lo w s).blsb = s.blsb := rfl
@[simp] theorem bump_tb (a : Nat) (lo : Nat) (w : Nat) (s : State) : (bump a lo w s).tb = s.tb := rfl
@[simp] theorem bump_lanes (a : Nat) (lo : Nat) (w : Nat) (s : State) : (bump a lo w s).lanes = s.lanes := rfl
@[simp] theorem bump_ports (a : Nat) (lo : Nat) (w : Nat) (s : State) : (bump a lo w s).ports = s.ports := rfl
@[simp] theorem bump_banks (a : Nat) (lo : Nat) (w : Nat) (s : State) : (bump a lo w s).banks = s.banks := rfl
@[simp] theorem bump_ips (a : Nat) (lo : Nat) (w : Nat) (s : State) : (bump a lo w s).ips = s.ips := rfl
@[simp] theorem bump_tx (a : Nat) (lo : Nat) (w : Nat) (s : State) : (bump a lo w s).tx = s.tx := rfl
@[simp] theorem bump_wb (a : Nat) (lo : Nat) (w : Nat) (s : State) : (bump a lo w s).wb = s.wb := rfl
@[simp] theorem bump_col (a : Nat) (lo : Nat) (w : Nat) (s : State) : (bump a lo w s).col = s.col := rfl
@[simp] theorem bump_dma (a : Nat) (lo : Nat) (w : Nat) (s : State) : (bump a lo w s).dma = s.dma := rfl
@[simp] theorem bump_granted (a : Nat) (lo : Nat) (w : Nat) (s : State) : (bump a lo w s).granted = s.granted := rfl
@[simp] theorem bump_prot (a : Nat) (lo : Nat) (w : Nat) (s : State) : (bump a lo w s).prot = s.prot := rfl
@[simp] theorem bump_lect (a : Nat) (lo : Nat) (w : Nat) (s : State) : (bump a lo w s).lect = s.lect := rfl
@[simp] theorem bump_quads (a : Nat) (lo : Nat) (w : Nat) (s : State) : (bump a lo w s).quads = s.quads := rfl
@[simp] theorem bump_leaving (a : Nat) (lo : Nat) (w : Nat) (s : State) : (bump a lo w s).leaving = s.leaving := rfl
@[simp] theorem bump_returning (a : Nat) (lo : Nat) (w : Nat) (s : State) : (bump a lo w s).returning = s.returning := rfl
@[simp] theorem bump_plv (a : Nat) (lo : Nat) (w : Nat) (s : State) : (bump a lo w s).plv = s.plv := rfl
@[simp] theorem bump_tst (a : Nat) (lo : Nat) (w : Nat) (s : State) : (bump a lo w s).tst = s.tst := rfl
@[simp] theorem bump_bring (a : Nat) (lo : Nat) (w : Nat) (s : State) : (bump a lo w s).bring = s.bring := rfl

@[simp] theorem bumpN_pending (a : Nat) (lo : Nat) (w : Nat) (n : Nat) (s : State) : (bumpN a lo w n s).pending = s.pending := rfl
@[simp] theorem bumpN_free (a : Nat) (lo : Nat) (w : Nat) (n : Nat) (s : State) : (bumpN a lo w n s).free = s.free := rfl
@[simp] theorem bumpN_cts (a : Nat) (lo : Nat) (w : Nat) (n : Nat) (s : State) : (bumpN a lo w n s).cts = s.cts := rfl
@[simp] theorem bumpN_inForce (a : Nat) (lo : Nat) (w : Nat) (n : Nat) (s : State) : (bumpN a lo w n s).inForce = s.inForce := rfl
@[simp] theorem bumpN_evts (a : Nat) (lo : Nat) (w : Nat) (n : Nat) (s : State) : (bumpN a lo w n s).evts = s.evts := rfl
@[simp] theorem bumpN_bnd (a : Nat) (lo : Nat) (w : Nat) (n : Nat) (s : State) : (bumpN a lo w n s).bnd = s.bnd := rfl
@[simp] theorem bumpN_flt (a : Nat) (lo : Nat) (w : Nat) (n : Nat) (s : State) : (bumpN a lo w n s).flt = s.flt := rfl
@[simp] theorem bumpN_efuse (a : Nat) (lo : Nat) (w : Nat) (n : Nat) (s : State) : (bumpN a lo w n s).efuse = s.efuse := rfl
@[simp] theorem bumpN_blsb (a : Nat) (lo : Nat) (w : Nat) (n : Nat) (s : State) : (bumpN a lo w n s).blsb = s.blsb := rfl
@[simp] theorem bumpN_tb (a : Nat) (lo : Nat) (w : Nat) (n : Nat) (s : State) : (bumpN a lo w n s).tb = s.tb := rfl
@[simp] theorem bumpN_lanes (a : Nat) (lo : Nat) (w : Nat) (n : Nat) (s : State) : (bumpN a lo w n s).lanes = s.lanes := rfl
@[simp] theorem bumpN_ports (a : Nat) (lo : Nat) (w : Nat) (n : Nat) (s : State) : (bumpN a lo w n s).ports = s.ports := rfl
@[simp] theorem bumpN_banks (a : Nat) (lo : Nat) (w : Nat) (n : Nat) (s : State) : (bumpN a lo w n s).banks = s.banks := rfl
@[simp] theorem bumpN_ips (a : Nat) (lo : Nat) (w : Nat) (n : Nat) (s : State) : (bumpN a lo w n s).ips = s.ips := rfl
@[simp] theorem bumpN_tx (a : Nat) (lo : Nat) (w : Nat) (n : Nat) (s : State) : (bumpN a lo w n s).tx = s.tx := rfl
@[simp] theorem bumpN_wb (a : Nat) (lo : Nat) (w : Nat) (n : Nat) (s : State) : (bumpN a lo w n s).wb = s.wb := rfl
@[simp] theorem bumpN_col (a : Nat) (lo : Nat) (w : Nat) (n : Nat) (s : State) : (bumpN a lo w n s).col = s.col := rfl
@[simp] theorem bumpN_dma (a : Nat) (lo : Nat) (w : Nat) (n : Nat) (s : State) : (bumpN a lo w n s).dma = s.dma := rfl
@[simp] theorem bumpN_granted (a : Nat) (lo : Nat) (w : Nat) (n : Nat) (s : State) : (bumpN a lo w n s).granted = s.granted := rfl
@[simp] theorem bumpN_prot (a : Nat) (lo : Nat) (w : Nat) (n : Nat) (s : State) : (bumpN a lo w n s).prot = s.prot := rfl
@[simp] theorem bumpN_lect (a : Nat) (lo : Nat) (w : Nat) (n : Nat) (s : State) : (bumpN a lo w n s).lect = s.lect := rfl
@[simp] theorem bumpN_quads (a : Nat) (lo : Nat) (w : Nat) (n : Nat) (s : State) : (bumpN a lo w n s).quads = s.quads := rfl
@[simp] theorem bumpN_leaving (a : Nat) (lo : Nat) (w : Nat) (n : Nat) (s : State) : (bumpN a lo w n s).leaving = s.leaving := rfl
@[simp] theorem bumpN_returning (a : Nat) (lo : Nat) (w : Nat) (n : Nat) (s : State) : (bumpN a lo w n s).returning = s.returning := rfl
@[simp] theorem bumpN_plv (a : Nat) (lo : Nat) (w : Nat) (n : Nat) (s : State) : (bumpN a lo w n s).plv = s.plv := rfl
@[simp] theorem bumpN_tst (a : Nat) (lo : Nat) (w : Nat) (n : Nat) (s : State) : (bumpN a lo w n s).tst = s.tst := rfl
@[simp] theorem bumpN_bring (a : Nat) (lo : Nat) (w : Nat) (n : Nat) (s : State) : (bumpN a lo w n s).bring = s.bring := rfl

@[simp] theorem bumpWrap_pending (a : Nat) (n : Nat) (s : State) : (bumpWrap a n s).pending = s.pending := rfl
@[simp] theorem bumpWrap_free (a : Nat) (n : Nat) (s : State) : (bumpWrap a n s).free = s.free := rfl
@[simp] theorem bumpWrap_cts (a : Nat) (n : Nat) (s : State) : (bumpWrap a n s).cts = s.cts := rfl
@[simp] theorem bumpWrap_inForce (a : Nat) (n : Nat) (s : State) : (bumpWrap a n s).inForce = s.inForce := rfl
@[simp] theorem bumpWrap_evts (a : Nat) (n : Nat) (s : State) : (bumpWrap a n s).evts = s.evts := rfl
@[simp] theorem bumpWrap_bnd (a : Nat) (n : Nat) (s : State) : (bumpWrap a n s).bnd = s.bnd := rfl
@[simp] theorem bumpWrap_flt (a : Nat) (n : Nat) (s : State) : (bumpWrap a n s).flt = s.flt := rfl
@[simp] theorem bumpWrap_efuse (a : Nat) (n : Nat) (s : State) : (bumpWrap a n s).efuse = s.efuse := rfl
@[simp] theorem bumpWrap_blsb (a : Nat) (n : Nat) (s : State) : (bumpWrap a n s).blsb = s.blsb := rfl
@[simp] theorem bumpWrap_tb (a : Nat) (n : Nat) (s : State) : (bumpWrap a n s).tb = s.tb := rfl
@[simp] theorem bumpWrap_lanes (a : Nat) (n : Nat) (s : State) : (bumpWrap a n s).lanes = s.lanes := rfl
@[simp] theorem bumpWrap_ports (a : Nat) (n : Nat) (s : State) : (bumpWrap a n s).ports = s.ports := rfl
@[simp] theorem bumpWrap_banks (a : Nat) (n : Nat) (s : State) : (bumpWrap a n s).banks = s.banks := rfl
@[simp] theorem bumpWrap_ips (a : Nat) (n : Nat) (s : State) : (bumpWrap a n s).ips = s.ips := rfl
@[simp] theorem bumpWrap_tx (a : Nat) (n : Nat) (s : State) : (bumpWrap a n s).tx = s.tx := rfl
@[simp] theorem bumpWrap_wb (a : Nat) (n : Nat) (s : State) : (bumpWrap a n s).wb = s.wb := rfl
@[simp] theorem bumpWrap_col (a : Nat) (n : Nat) (s : State) : (bumpWrap a n s).col = s.col := rfl
@[simp] theorem bumpWrap_dma (a : Nat) (n : Nat) (s : State) : (bumpWrap a n s).dma = s.dma := rfl
@[simp] theorem bumpWrap_granted (a : Nat) (n : Nat) (s : State) : (bumpWrap a n s).granted = s.granted := rfl
@[simp] theorem bumpWrap_prot (a : Nat) (n : Nat) (s : State) : (bumpWrap a n s).prot = s.prot := rfl
@[simp] theorem bumpWrap_lect (a : Nat) (n : Nat) (s : State) : (bumpWrap a n s).lect = s.lect := rfl
@[simp] theorem bumpWrap_quads (a : Nat) (n : Nat) (s : State) : (bumpWrap a n s).quads = s.quads := rfl
@[simp] theorem bumpWrap_leaving (a : Nat) (n : Nat) (s : State) : (bumpWrap a n s).leaving = s.leaving := rfl
@[simp] theorem bumpWrap_returning (a : Nat) (n : Nat) (s : State) : (bumpWrap a n s).returning = s.returning := rfl
@[simp] theorem bumpWrap_plv (a : Nat) (n : Nat) (s : State) : (bumpWrap a n s).plv = s.plv := rfl
@[simp] theorem bumpWrap_tst (a : Nat) (n : Nat) (s : State) : (bumpWrap a n s).tst = s.tst := rfl
@[simp] theorem bumpWrap_bring (a : Nat) (n : Nat) (s : State) : (bumpWrap a n s).bring = s.bring := rfl

@[simp] theorem peak_pending (a : Nat) (lo : Nat) (w : Nat) (u : Nat) (s : State) : (peak a lo w u s).pending = s.pending := rfl
@[simp] theorem peak_free (a : Nat) (lo : Nat) (w : Nat) (u : Nat) (s : State) : (peak a lo w u s).free = s.free := rfl
@[simp] theorem peak_cts (a : Nat) (lo : Nat) (w : Nat) (u : Nat) (s : State) : (peak a lo w u s).cts = s.cts := rfl
@[simp] theorem peak_inForce (a : Nat) (lo : Nat) (w : Nat) (u : Nat) (s : State) : (peak a lo w u s).inForce = s.inForce := rfl
@[simp] theorem peak_evts (a : Nat) (lo : Nat) (w : Nat) (u : Nat) (s : State) : (peak a lo w u s).evts = s.evts := rfl
@[simp] theorem peak_bnd (a : Nat) (lo : Nat) (w : Nat) (u : Nat) (s : State) : (peak a lo w u s).bnd = s.bnd := rfl
@[simp] theorem peak_flt (a : Nat) (lo : Nat) (w : Nat) (u : Nat) (s : State) : (peak a lo w u s).flt = s.flt := rfl
@[simp] theorem peak_efuse (a : Nat) (lo : Nat) (w : Nat) (u : Nat) (s : State) : (peak a lo w u s).efuse = s.efuse := rfl
@[simp] theorem peak_blsb (a : Nat) (lo : Nat) (w : Nat) (u : Nat) (s : State) : (peak a lo w u s).blsb = s.blsb := rfl
@[simp] theorem peak_tb (a : Nat) (lo : Nat) (w : Nat) (u : Nat) (s : State) : (peak a lo w u s).tb = s.tb := rfl
@[simp] theorem peak_lanes (a : Nat) (lo : Nat) (w : Nat) (u : Nat) (s : State) : (peak a lo w u s).lanes = s.lanes := rfl
@[simp] theorem peak_ports (a : Nat) (lo : Nat) (w : Nat) (u : Nat) (s : State) : (peak a lo w u s).ports = s.ports := rfl
@[simp] theorem peak_banks (a : Nat) (lo : Nat) (w : Nat) (u : Nat) (s : State) : (peak a lo w u s).banks = s.banks := rfl
@[simp] theorem peak_ips (a : Nat) (lo : Nat) (w : Nat) (u : Nat) (s : State) : (peak a lo w u s).ips = s.ips := rfl
@[simp] theorem peak_tx (a : Nat) (lo : Nat) (w : Nat) (u : Nat) (s : State) : (peak a lo w u s).tx = s.tx := rfl
@[simp] theorem peak_wb (a : Nat) (lo : Nat) (w : Nat) (u : Nat) (s : State) : (peak a lo w u s).wb = s.wb := rfl
@[simp] theorem peak_col (a : Nat) (lo : Nat) (w : Nat) (u : Nat) (s : State) : (peak a lo w u s).col = s.col := rfl
@[simp] theorem peak_dma (a : Nat) (lo : Nat) (w : Nat) (u : Nat) (s : State) : (peak a lo w u s).dma = s.dma := rfl
@[simp] theorem peak_granted (a : Nat) (lo : Nat) (w : Nat) (u : Nat) (s : State) : (peak a lo w u s).granted = s.granted := rfl
@[simp] theorem peak_prot (a : Nat) (lo : Nat) (w : Nat) (u : Nat) (s : State) : (peak a lo w u s).prot = s.prot := rfl
@[simp] theorem peak_lect (a : Nat) (lo : Nat) (w : Nat) (u : Nat) (s : State) : (peak a lo w u s).lect = s.lect := rfl
@[simp] theorem peak_quads (a : Nat) (lo : Nat) (w : Nat) (u : Nat) (s : State) : (peak a lo w u s).quads = s.quads := rfl
@[simp] theorem peak_leaving (a : Nat) (lo : Nat) (w : Nat) (u : Nat) (s : State) : (peak a lo w u s).leaving = s.leaving := rfl
@[simp] theorem peak_returning (a : Nat) (lo : Nat) (w : Nat) (u : Nat) (s : State) : (peak a lo w u s).returning = s.returning := rfl
@[simp] theorem peak_plv (a : Nat) (lo : Nat) (w : Nat) (u : Nat) (s : State) : (peak a lo w u s).plv = s.plv := rfl
@[simp] theorem peak_tst (a : Nat) (lo : Nat) (w : Nat) (u : Nat) (s : State) : (peak a lo w u s).tst = s.tst := rfl
@[simp] theorem peak_bring (a : Nat) (lo : Nat) (w : Nat) (u : Nat) (s : State) : (peak a lo w u s).bring = s.bring := rfl

/-! ### Read-back -/

@[simp] theorem getReg_putReg (a : Nat) (v : Word) (s : State) : getReg (putReg a v s) a = v := tget_tset_self ..
theorem getReg_putReg_ne {a b : Nat} (h : b ≠ a) (v : Word) (s : State) : getReg (putReg a v s) b = getReg s b := tget_tset_ne _ _ _ h
theorem getReg_setF_ne {a b : Nat} (h : b ≠ a) (lo w x : Nat) (s : State) : getReg (setF a lo w x s) b = getReg s b :=
  getReg_putReg_ne h _ s
theorem getEvt_raise_ne {b c : Nat} (h : c ≠ b) (e : Nat) (s : State) : getEvt (raise b e s) c = getEvt s c := by
  unfold getEvt raise; dsimp only; rw [tget_tmod_ne _ _ _ h]
@[simp] theorem port_updPort (k : Nat) (f : Port → Port) (s : State) : (updPort k f s).port k = f (s.port k) := tget_tmod_self ..
theorem port_updPort_ne {k j : Nat} (h : j ≠ k) (f : Port → Port) (s : State) : (updPort k f s).port j = s.port j := tget_tmod_ne _ _ _ h
@[simp] theorem lane_updLane (k : Nat) (f : Lane → Lane) (s : State) : (updLane k f s).lane k = f (s.lane k) := tget_tmod_self ..
theorem lane_updLane_ne {k j : Nat} (h : j ≠ k) (f : Lane → Lane) (s : State) : (updLane k f s).lane j = s.lane j := tget_tmod_ne _ _ _ h
@[simp] theorem ip_updIp (k : Nat) (f : InnerPort → InnerPort) (s : State) : (updIp k f s).ip k = f (s.ip k) := tget_tmod_self ..
theorem ip_updIp_ne {k j : Nat} (h : j ≠ k) (f : InnerPort → InnerPort) (s : State) : (updIp k f s).ip j = s.ip j := tget_tmod_ne _ _ _ h
@[simp] theorem stream_updStream (k : Nat) (f : Stream → Stream) (s : State) : (updStream k f s).stream k = f (s.stream k) := tget_tmod_self ..
theorem stream_updStream_ne {k j : Nat} (h : j ≠ k) (f : Stream → Stream) (s : State) : (updStream k f s).stream j = s.stream j := tget_tmod_ne _ _ _ h
@[simp] theorem chan_updChan (k : Nat) (f : Chan → Chan) (s : State) : (updChan k f s).chan k = f (s.chan k) := tget_tmod_self ..
theorem chan_updChan_ne {k j : Nat} (h : j ≠ k) (f : Chan → Chan) (s : State) : (updChan k f s).chan j = s.chan j := tget_tmod_ne _ _ _ h
@[simp] theorem quad_updQuad (k : Nat) (f : Quad → Quad) (s : State) : (updQuad k f s).quad k = f (s.quad k) := tget_tmod_self ..
theorem quad_updQuad_ne {k j : Nat} (h : j ≠ k) (f : Quad → Quad) (s : State) : (updQuad k f s).quad j = s.quad j := tget_tmod_ne _ _ _ h
@[simp] theorem wbUnit_updWb (k : Nat) (f : WbUnit → WbUnit) (s : State) : (updWb k f s).wbUnit k = f (s.wbUnit k) := tget_tmod_self ..
theorem wbUnit_updWb_ne {k j : Nat} (h : j ≠ k) (f : WbUnit → WbUnit) (s : State) : (updWb k f s).wbUnit j = s.wbUnit j := tget_tmod_ne _ _ _ h
@[simp] theorem port_updLn (k : Nat) (f : PortLane → PortLane) (s : State) :
    (updLn k f s).port k = { s.port k with ln := f (s.port k).ln } := by
  unfold updLn; rw [port_updPort]
@[simp] theorem getReg_raise (a : Nat) (b : Nat) (e : Nat) (s : State) : getReg (raise b e s) a = getReg s a := rfl
@[simp] theorem getReg_handOver (a : Nat) (src : Nat) (unit : Nat) (lvl : FaultLevel) (code : Nat) (act : FaultAct) (detail : Nat) (s : State) : getReg (handOver src unit lvl code act detail s) a = getReg s a := rfl
@[simp] theorem getReg_updPort (a : Nat) (p : Nat) (f : Port → Port) (s : State) : getReg (updPort p f s) a = getReg s a := rfl
@[simp] theorem getReg_updLn (a : Nat) (p : Nat) (f : PortLane → PortLane) (s : State) : getReg (updLn p f s) a = getReg s a := rfl
@[simp] theorem getReg_updLane (a : Nat) (l : Nat) (f : Lane → Lane) (s : State) : getReg (updLane l f s) a = getReg s a := rfl
@[simp] theorem getReg_updT (a : Nat) (f : Transact → Transact) (s : State) : getReg (updT f s) a = getReg s a := rfl
@[simp] theorem getReg_updIp (a : Nat) (i : Nat) (f : InnerPort → InnerPort) (s : State) : getReg (updIp i f s) a = getReg s a := rfl
@[simp] theorem getReg_updWb (a : Nat) (u : Nat) (f : WbUnit → WbUnit) (s : State) : getReg (updWb u f s) a = getReg s a := rfl
@[simp] theorem getReg_updStream (a : Nat) (u : Nat) (f : Stream → Stream) (s : State) : getReg (updStream u f s) a = getReg s a := rfl
@[simp] theorem getReg_updChan (a : Nat) (c : Nat) (f : Chan → Chan) (s : State) : getReg (updChan c f s) a = getReg s a := rfl
@[simp] theorem getReg_updQuad (a : Nat) (q : Nat) (f : Quad → Quad) (s : State) : getReg (updQuad q f s) a = getReg s a := rfl
@[simp] theorem getReg_updProt (a : Nat) (f : Protect → Protect) (s : State) : getReg (updProt f s) a = getReg s a := rfl
@[simp] theorem getReg_updTst (a : Nat) (f : TestCtl → TestCtl) (s : State) : getReg (updTst f s) a = getReg s a := rfl
@[simp] theorem getReg_updPlv (a : Nat) (f : Plovirko → Plovirko) (s : State) : getReg (updPlv f s) a = getReg s a := rfl
@[simp] theorem getReg_updBring (a : Nat) (f : Bringup → Bringup) (s : State) : getReg (updBring f s) a = getReg s a := rfl
@[simp] theorem getReg_updBnd (a : Nat) (f : Boundary → Boundary) (s : State) : getReg (updBnd f s) a = getReg s a := rfl

end Sys2Proof.Machine
end

