-- ==== Sys2Proof/Laws/Ops.lean ====
section
/-!
SUPPORT. What the shared operations over registers, events, the clock and the fault hand-off do, said once each.
-/
namespace Sys2Proof.Machine

/-! ### Fields of a word -/

/-- A field is below its width's power of two. -/
theorem fld_lt (v : Word) (lo w : Nat) : fld v lo w < 2 ^ w := Nat.mod_lt _ (Nat.two_pow_pos w)

/-- A field's part of a word is at most the word. -/
theorem fld_mul_le (v : Word) (lo w : Nat) : fld v lo w * 2 ^ lo ≤ v.toNat :=
  Nat.le_trans (Nat.mul_le_mul_right _ (Nat.mod_le _ _)) (Nat.div_mul_le_self _ _)

/-- A number taken apart at a field: what is above, the field, what is below. -/
theorem split_field (n lo w : Nat) :
    n = n / 2 ^ (lo + w) * 2 ^ (lo + w) + n / 2 ^ lo % 2 ^ w * 2 ^ lo + n % 2 ^ lo := by
  have h1 := Nat.div_add_mod n (2 ^ lo)
  have h2 := Nat.div_add_mod (n / 2 ^ lo) (2 ^ w)
  rw [Nat.div_div_eq_div_mul, ← Nat.pow_add] at h2
  have h3 : 2 ^ (lo + w) = 2 ^ w * 2 ^ lo := by rw [Nat.pow_add, Nat.mul_comm]
  calc n = 2 ^ lo * (n / 2 ^ lo) + n % 2 ^ lo := h1.symm
    _ = 2 ^ lo * (2 ^ w * (n / 2 ^ (lo + w)) + n / 2 ^ lo % 2 ^ w) + n % 2 ^ lo := by rw [h2]
    _ = _ := by rw [h3, Nat.mul_add, Nat.mul_comm (2 ^ lo) (n / 2 ^ lo % 2 ^ w), Nat.mul_comm (2 ^ lo) (2 ^ w * _),
      Nat.mul_comm (2 ^ w), Nat.mul_assoc]

/-- A number with the field of `w` bits from `lo` replaced, as the operations on words and counters write it. -/
theorem set_field (n lo w x : Nat) :
    n - n / 2 ^ lo % 2 ^ w * 2 ^ lo + x * 2 ^ lo = n / 2 ^ (lo + w) * 2 ^ (lo + w) + x * 2 ^ lo + n % 2 ^ lo := by
  have := split_field n lo w; omega

/-- The low part of such a number is below the field's end. -/
theorem low_part_lt {lo w x : Nat} (n : Nat) (hx : x < 2 ^ w) : x * 2 ^ lo + n % 2 ^ lo < 2 ^ (lo + w) := by
  calc x * 2 ^ lo + n % 2 ^ lo < x * 2 ^ lo + 2 ^ lo := Nat.add_lt_add_left (Nat.mod_lt _ (Nat.two_pow_pos lo)) _
    _ = (x + 1) * 2 ^ lo := by rw [Nat.add_mul, Nat.one_mul]
    _ ≤ 2 ^ w * 2 ^ lo := Nat.mul_le_mul_right _ hx
    _ = 2 ^ (lo + w) := by rw [Nat.pow_add, Nat.mul_comm]

/-- It stays within the width of the whole. -/
theorem set_field_lt {n lo w x W : Nat} (hn : n < 2 ^ W) (hx : x < 2 ^ w) (h : lo + w ≤ W) :
    n - n / 2 ^ lo % 2 ^ w * 2 ^ lo + x * 2 ^ lo < 2 ^ W := by
  have hq : n / 2 ^ (lo + w) < 2 ^ (W - (lo + w)) := by
    rw [Nat.div_lt_iff_lt_mul (Nat.two_pow_pos _), ← Nat.pow_add, Nat.sub_add_cancel h]; exact hn
  rw [set_field, Nat.add_assoc]
  calc n / 2 ^ (lo + w) * 2 ^ (lo + w) + (x * 2 ^ lo + n % 2 ^ lo)
      < n / 2 ^ (lo + w) * 2 ^ (lo + w) + 2 ^ (lo + w) := Nat.add_lt_add_left (low_part_lt n hx) _
    _ = (n / 2 ^ (lo + w) + 1) * 2 ^ (lo + w) := by rw [Nat.add_mul, Nat.one_mul]
    _ ≤ 2 ^ (W - (lo + w)) * 2 ^ (lo + w) := Nat.mul_le_mul_right _ hq
    _ = 2 ^ W := by rw [← Nat.pow_add, Nat.sub_add_cancel h]

/-- The field reads as it was set. -/
theorem set_field_self {n lo w x : Nat} (hx : x < 2 ^ w) :
    (n - n / 2 ^ lo % 2 ^ w * 2 ^ lo + x * 2 ^ lo) / 2 ^ lo % 2 ^ w = x := by
  rw [set_field, Nat.pow_add, ← Nat.mul_assoc, Nat.mul_right_comm, ← Nat.add_mul,
    Nat.add_comm, Nat.add_mul_div_right _ _ (Nat.two_pow_pos lo), Nat.div_eq_of_lt (Nat.mod_lt _ (Nat.two_pow_pos lo)), Nat.zero_add,
    Nat.mul_add_mod', Nat.mod_eq_of_lt hx]

/-- A field above it, or below it, reads as before. -/
theorem set_field_other {n lo w x l u : Nat} (hx : x < 2 ^ w) (hd : l + u ≤ lo ∨ lo + w ≤ l) :
    (n - n / 2 ^ lo % 2 ^ w * 2 ^ lo + x * 2 ^ lo) / 2 ^ l % 2 ^ u = n / 2 ^ l % 2 ^ u := by
  rw [set_field]
  rcases hd with hd | hd
  · have : ∀ n : Nat, n / 2 ^ l % 2 ^ u = n % 2 ^ lo / 2 ^ l % 2 ^ u := by
      intro n
      have e : 2 ^ lo = 2 ^ l * 2 ^ (lo - l) := by rw [← Nat.pow_add]; congr 1; omega
      have e2 : 2 ^ (lo - l) = 2 ^ u * 2 ^ (lo - l - u) := by rw [← Nat.pow_add]; congr 1; omega
      rw [e, Nat.mod_mul_right_div_self, e2, Nat.mod_mul_right_mod]
    rw [this, this n]
    congr 2
    rw [Nat.pow_add, ← Nat.mul_assoc, Nat.mul_right_comm, ← Nat.add_mul, Nat.mul_add_mod', Nat.mod_mod]
  · have : ∀ n : Nat, n / 2 ^ l % 2 ^ u = n / 2 ^ (lo + w) / 2 ^ (l - (lo + w)) % 2 ^ u := by
      intro n; rw [Nat.div_div_eq_div_mul, ← Nat.pow_add]; congr 3; omega
    rw [this, this n]
    congr 2
    rw [Nat.add_assoc, Nat.add_comm, Nat.add_mul_div_right _ _ (Nat.two_pow_pos _), Nat.div_eq_of_lt (low_part_lt n hx), Nat.zero_add]

/-- The number a word has after a field of it is set. -/
theorem setFld_toNat (v : Word) {lo w : Nat} (x : Nat) (h : lo + w ≤ 32) :
    (setFld v lo w x).toNat = v.toNat - v.toNat / 2 ^ lo % 2 ^ w * 2 ^ lo + x % 2 ^ w * 2 ^ lo := by
  unfold setFld fld
  rw [BitVec.toNat_ofNat]
  exact Nat.mod_eq_of_lt (set_field_lt v.isLt (Nat.mod_lt _ (Nat.two_pow_pos w)) h)

/-- The field set reads as it was set. -/
theorem fld_setFld (v : Word) {lo w : Nat} (x : Nat) (h : lo + w ≤ 32) : fld (setFld v lo w x) lo w = x % 2 ^ w := by
  unfold fld; rw [setFld_toNat v x h]; exact set_field_self (Nat.mod_lt _ (Nat.two_pow_pos w))

/-- A field above, or below, the one that is set reads as before. -/
theorem fld_setFld_ne (v : Word) {lo w : Nat} (x : Nat) (h : lo + w ≤ 32) {l u : Nat} (hd : l + u ≤ lo ∨ lo + w ≤ l) :
    fld (setFld v lo w x) l u = fld v l u := by
  unfold fld; rw [setFld_toNat v x h]; exact set_field_other (Nat.mod_lt _ (Nat.two_pow_pos w)) hd

/-! ### Registers -/

/-- A field that is set reads as it was set. -/
theorem getF_setF (a : Nat) {lo w : Nat} (x : Nat) (s : State) (h : lo + w ≤ 32) : getF (setF a lo w x s) a lo w = x % 2 ^ w := by
  unfold getF setF; rw [getReg_putReg]; exact fld_setFld _ x h

/-- The other fields of the register read as before. -/
theorem getF_setF_other (a : Nat) {lo w : Nat} (x : Nat) (s : State) (h : lo + w ≤ 32) {l u : Nat} (hd : l + u ≤ lo ∨ lo + w ≤ l) :
    getF (setF a lo w x s) a l u = getF s a l u := by
  unfold getF setF; rw [getReg_putReg]; exact fld_setFld_ne _ x h hd

/-- Every other register reads as before. -/
theorem getF_setF_ne {a b : Nat} (hb : b ≠ a) (lo w x l u : Nat) (s : State) : getF (setF a lo w x s) b l u = getF s b l u := by
  unfold getF; rw [getReg_setF_ne hb]

/-! ### Events (R10) -/

/-- The number the counters make after one of them is set. -/
theorem setCount_toNat (k : EvtBlock) {e : Nat} (v : Nat) (he : e < 32) :
    (k.setCount e v).cnt.toNat = k.cnt.toNat - k.cnt.toNat / 2 ^ (8 * e) % 256 * 2 ^ (8 * e) + v % 256 * 2 ^ (8 * e) := by
  have hl : k.cnt.toNat - k.cnt.toNat / 2 ^ (8 * e) % 256 * 2 ^ (8 * e) + v % 256 * 2 ^ (8 * e) < 2 ^ 256 :=
    set_field_lt (w := 8) k.cnt.isLt (Nat.mod_lt _ (by decide)) (by omega)
  unfold EvtBlock.setCount EvtBlock.count
  dsimp only
  rw [BitVec.toNat_ofNat, Nat.mod_eq_of_lt hl]

/-- The counter set reads as it was set. -/
theorem count_setCount (k : EvtBlock) {e : Nat} (v : Nat) (he : e < 32) : (k.setCount e v).count e = v % 256 := by
  unfold EvtBlock.count
  rw [setCount_toNat k v he]
  exact set_field_self (w := 8) (Nat.mod_lt _ (by decide))

/-- The other counters read as before. -/
theorem count_setCount_ne (k : EvtBlock) {e j : Nat} (v : Nat) (he : e < 32) (hj : j ≠ e) : (k.setCount e v).count j = k.count j := by
  unfold EvtBlock.count
  rw [setCount_toNat k v he]
  exact set_field_other (w := 8) (u := 8) (Nat.mod_lt _ (by decide)) (by omega)

/-- A counter is below 256. -/
theorem count_lt (k : EvtBlock) (e : Nat) : k.count e < 256 := Nat.mod_lt _ (by decide)

/-- The block an event is raised in, after. -/
theorem getEvt_raise (b e : Nat) (s : State) : getEvt (raise b e s) b = (getEvt s b).hardware e := by
  unfold getEvt raise; dsimp only; rw [tget_tmod_self]

/-- A second event of one cycle changes nothing but what it had set already. -/
theorem hardware_again {k : EvtBlock} {e : Nat} (h : k.hw &&& BitVec.ofNat 32 (2 ^ e) ≠ 0) :
    k.hardware e = { k with raw := k.raw ||| BitVec.ofNat 32 (2 ^ e) } := by
  unfold EvtBlock.hardware; dsimp only; rw [if_neg h]

/-- The first of a cycle is counted. -/
theorem hardware_first {k : EvtBlock} {e : Nat} (h : k.hw &&& BitVec.ofNat 32 (2 ^ e) = 0) :
    k.hardware e = { (k.occur e) with hw := k.hw ||| BitVec.ofNat 32 (2 ^ e) } := by
  unfold EvtBlock.hardware; dsimp only; rw [if_pos h]

/-- A power of two below 2^32 that meets a word stands in it already. -/
theorem or_of_meets {x : BitVec 32} {e : Nat} (h : x &&& BitVec.ofNat 32 (2 ^ e) ≠ 0) : x ||| BitVec.ofNat 32 (2 ^ e) = x := by
  have key : ∀ i : Nat, i < 32 → (BitVec.ofNat 32 (2 ^ e)).getLsbD i = decide (i = e) := by
    intro i hi
    rw [BitVec.getLsbD_ofNat, Nat.testBit_two_pow]
    simp [hi, eq_comm]
  have hx : ∃ i, i < 32 ∧ x.getLsbD i = true ∧ i = e := by
    refine Classical.byContradiction fun hn => h ?_
    apply BitVec.eq_of_getLsbD_eq
    intro i hi
    rw [BitVec.getLsbD_and, key i hi]
    by_cases hie : i = e
    · have : x.getLsbD i ≠ true := fun hc => hn ⟨i, hi, hc, hie⟩
      simp [Bool.eq_false_iff.mpr this]
    · simp [hie]
  obtain ⟨i, _, h1, rfl⟩ := hx
  apply BitVec.eq_of_getLsbD_eq
  intro j hj
  rw [BitVec.getLsbD_or, key j hj]
  by_cases hji : j = i
  · subst hji; simp [h1]
  · simp [hji]

/-- Raising an event is what `Raised` says (R10). -/
theorem raise_raised (b : Nat) {e : Nat} (he : e < 32) (s : State) : Raised b e s (raise b e s) := by
  unfold Raised Occurred
  rw [getEvt_raise]
  by_cases h : (getEvt s b).hw &&& BitVec.ofNat 32 (2 ^ e) = 0
  · rw [hardware_first h]
    refine ⟨rfl, ?_, fun j hj hj' => count_setCount_ne _ _ he hj, rfl, rfl, rfl, fun c hc => getEvt_raise_ne (by simpa using hc) e s⟩
    rw [if_neg (by rw [h]; decide)]
    exact (count_setCount _ _ he).trans (Nat.mod_eq_of_lt (by omega))
  · rw [hardware_again h]
    exact ⟨rfl, by rw [if_pos (bne_iff_ne.mpr h)]; rfl, fun j _ _ => rfl, (or_of_meets h).symm, rfl, rfl,
      fun c hc => getEvt_raise_ne (by simpa using hc) e s⟩

/-- `Raised` speaks of the event blocks only. -/
theorem Raised.of_evts {b e : Nat} {s t : State} (h : t.evts = (raise b e s).evts) (he : e < 32) : Raised b e s t := by
  have := raise_raised b he s
  unfold Raised KeepsEvts getEvt at *
  rw [h]; exact this

/-- Setting a field sets that field and nothing else. -/
theorem setF_fieldSet (a : Nat) {lo w x : Nat} (s : State) (h : lo + w ≤ 32) (hx : x < 2 ^ w) : FieldSet a lo w x s (setF a lo w x s) :=
  ⟨(getF_setF a x s h).trans (Nat.mod_eq_of_lt hx), fun _ _ hd => getF_setF_other a x s h hd,
   fun b hb => getReg_setF_ne (by simpa using hb) lo w x s⟩

/-- `FieldSet` speaks of the registers only. -/
theorem FieldSet.of_regs {a lo w x : Nat} {s t : State} (h : t.regs = (setF a lo w x s).regs) (hl : lo + w ≤ 32) (hx : x < 2 ^ w) :
    FieldSet a lo w x s t := by
  have := setF_fieldSet a s hl hx
  unfold FieldSet KeepsRegs getF getReg at *
  rw [h]; exact this

end Sys2Proof.Machine
end

