-- ==== Sys2Proof/WellFormed.lean ====
section
/-!
DEFINITION. Which commands are well formed: what a command brings with it has the size that the adapter's boundary or
its own units give it. The meanings are total and answer for an ill-formed command too; no statement rests on this file.
-/
namespace Sys2Proof

/-- A flit as it is received: 272 bytes (R129). -/
def flitWf (flit : List Byte) : Bool := flit.length == 272

/-- Data beats of one transfer: at most 17, and the last-beat mark on none but the last of them (R28, R32). -/
def beatsWf (bs : List Beat) : Bool := bs.length ≤ 17 && bs.dropLast.all (fun b => !b.last)

/-- A collection in which nothing stands twice. -/
def noRepeat {α : Type} [DecidableEq α] : List α → Bool
  | [] => true
  | a :: rest => !rest.contains a && noRepeat rest

/-- What a Lectern thread sends with an access: nothing for a READ, its bytes for a WRITE, the operand block of 32 bytes for an
ATOMIC (R219, R239). -/
def accessWf (kind : AccessKind) (bytes : BitVec 13) (data : List Byte) : Bool :=
  match kind with
  | .read => data.isEmpty && 1 ≤ bytes.toNat && bytes.toNat ≤ 4096
  | .write => data.length == bytes.toNat && 1 ≤ bytes.toNat && bytes.toNat ≤ 4096
  | .atomic => data.length == 32

/-- What a command brings with it has its size. -/
def Instr.wf : Instr → Bool
  | .badFlitRx _ _ flit | .dataFlitRx _ _ flit | .idleFlitRx _ _ flit | .ledgerRx _ flit _ | .trainingFlitRx _ _ flit _ => flitWf flit
  | .markerRx _ f _ => flitWf f.flit && (f.spare.isEmpty || flitWf f.spare)
  | .freqTransfer _ _ beats | .hrspTransfer _ _ beats => beatsWf beats
  | .trainingPhaseEnd _ _ skews => skews.length == 5
  | .plvReqUpdate bytes => bytes.length == 528
  | .lecternRemoteAccess _ kind _ _ bytes data => accessWf kind bytes data
  | .calendarRead _ bad badFlows => noRepeat bad && noRepeat badFlows
  | .targetRequest _ _ _ wins | .scheduledDelivery _ _ wins => noRepeat wins
  | .bistStep _ fails => noRepeat fails
  | .tapWsp w => w.cells.ips.length == 16
  | _ => true

end Sys2Proof
end

