-- ==== Sys2Proof/Tests/Slice0.lean ====
section
/-!
SUPPORT. The model's own tests. A theorem `test_…` runs single commands on small states and compares what they leave with what the
rules of the specification say. For each statement of Obligations.lean that has hypotheses a theorem `meets_…` shows states and
operands that meet them, clause by clause: `clauses` is the statement with every conclusion left out, and `met` asks that each clause
is reached by one of the cases listed. Ill-formed commands are refused by the well-formedness check.
-/
namespace Sys2Proof.Tests
open Host Sys2Proof Sys2Proof.Machine
set_option Elab.async false

/-- Every check of a list passes. -/
def all (l : List Bool) : Bool := l.all id

/-- The state a command answers. -/
def nx (c : Instr) (s : State) : State :=
  match exec c s with
  | .next t => t
  | .fault _ => s
  | .refused _ => s

/-- Boundary of an adapter past bring-up, in a given adapter state. -/
def up (a : AdpState) : Boundary :=
  { adp := a, step := .done, pllLock := true, clkOut := true, cellsDark := false, portsLow := false, blsbCk := true, mready := true }

/-- An adapter in a given state that acts, at cycle 0 of tick 100,000,000. -/
def inState (a : AdpState) : State := { State.reset with bnd := up a, cts := 102400000000 }

/-- An adapter in RUN. -/
def run : State := inState .run

/-- A port whose link is up in P0 at width 4. -/
def upPort : Port := { ln := { lstate := .up, width := 4 }, rx := { dark := false, lastGood := some 102400000000 } }

/-- RUN with port 0 up, its lanes 0 to 3 active and lane 4 spare. -/
def link : State :=
  { run with
    ports := [(0, upPort)]
    lanes := [(0, { role := .active, cdr := true }), (1, { role := .active, cdr := true }), (2, { role := .active, cdr := true }),
      (3, { role := .active, cdr := true }), (4, { role := .spare, cdr := true })] }

/-- The raw bit of an event. -/
def ev (b e : Nat) (s : State) : Bool := (getEvt s b).raw.getLsbD e


/-! ### Well-formedness -/

theorem short_flits_are_ill_formed :
    all [!(Instr.badFlitRx 0 1 []).wf, !(Instr.dataFlitRx 0 1 (List.replicate 271 0)).wf, !(Instr.idleFlitRx 0 1 []).wf,
      !(Instr.markerRx 0 ⟨[], []⟩ 0).wf, !(Instr.markerRx 0 ⟨List.replicate 272 0, [0]⟩ 0).wf, !(Instr.ledgerRx 0 [] false).wf,
      !(Instr.trainingFlitRx 0 1 [] 0).wf, (Instr.dataFlitRx 0 1 (List.replicate 272 0)).wf] = true := by decide +kernel

theorem marks_within_beats_are_ill_formed :
    all [!(Instr.freqTransfer 0 none (List.replicate 18 ⟨0, 0, false⟩)).wf, !(Instr.hrspTransfer 0 none [⟨0, 0, true⟩, ⟨0, 0, true⟩]).wf,
      (Instr.freqTransfer 0 none [⟨0, 0, false⟩, ⟨0, 0, true⟩]).wf] = true := by decide +kernel

theorem wrong_sizes_are_ill_formed :
    all [!(Instr.trainingPhaseEnd 0 0 [0, 0, 0, 0]).wf, !(Instr.plvReqUpdate [0]).wf, !(Instr.lecternRemoteAccess 0 .read 0 0 0 []).wf,
      !(Instr.lecternRemoteAccess 0 .write 0 0 2 [0]).wf, !(Instr.lecternRemoteAccess 0 .atomic 0 0 32 [0]).wf,
      (Instr.lecternRemoteAccess 0 .write 0 0 1 [0]).wf] = true := by decide +kernel

theorem short_cells_are_ill_formed :
    all [!(Instr.tapWsp ⟨1, { ips := [] }⟩).wf, (Instr.tapWsp ⟨1, { ips := List.replicate 16 {} }⟩).wf] = true := by decide +kernel

theorem repeats_are_ill_formed :
    all [!(Instr.calendarRead 0 [3, 3] []).wf, !(Instr.calendarRead 0 [] [7, 7]).wf, !(Instr.targetRequest 0 false false [1, 1]).wf,
      !(Instr.scheduledDelivery 0 false [0, 0]).wf, !(Instr.bistStep 0 [(1, 2), (1, 2)]).wf, (Instr.bistStep 0 [(1, 2), (2, 1)]).wf] = true := by
  decide +kernel

/-! ### The machine -/

theorem meets_StepRunsTheFrontCommand :
    { run with pending := [Instr.ident] }.pending = Instr.ident :: [] := by decide

theorem meets_EmptyQueuePassesACycle :
    all [State.reset.pending = [], !State.reset.counts, run.pending = [], run.counts] = true := by decide +kernel

theorem meets_CommandsTouchOnlyTheirParts : exec .tapBypass run = .next (nx .tapBypass run) := rfl

theorem meets_AdapterStatesChangeAsAllowed :
    (∃ t, exec .freeze run = .next t ∧ t.bnd.adp = .frozen) ∧ moves .freeze .run .frozen run.bnd.prev = true :=
  ⟨⟨_, rfl, rfl⟩, by decide +kernel⟩

theorem meets_StepKeepsBoundary : BoundaryOk run := by
  unfold BoundaryOk
  decide +kernel

theorem test_EventBlockWrites_events : all [ev evGlb 31 (raise evGlb 31 run), (getEvt (raise evGlb 31 run) evGlb).count 31 = 1] = true := by decide +kernel

/-- Frozen out of RUN, with commands of the test port waiting. -/
def frozen : State := { nx .freeze run with pending := [.tapScan, .tickBoundary] }

theorem meets_FrozenStaysFrozen : StaysFrozen frozen := by
  unfold StaysFrozen BoundaryOk
  decide +kernel

/-! ### Resets, clocks and supplies -/

theorem test_Resets :
    all [(nx .porstAssert run).bnd = State.reset.bnd, getF (nx .porstAssert run) glbRstcause 0 1 = 1,
      getF (nx .vddcLowReset run) glbRstcause 1 1 = 1, getF (nx .porstAssert frozen) glbRstcause 3 1 = 1, run.tst.burning = none,
      State.reset.bnd.step = .heldPll, run.bnd.step ≠ .heldPll, run.flt.held = [],
      (nx .warmReset run).bnd.pllLock, getF (nx .warmReset run) glbRstcause 2 1 = 1] = true := by decide +kernel

/-- OFF, at a step of the sequence to BOOT. -/
def off (x : ResetStep) : State := { State.reset with bnd := { State.reset.bnd with step := x, pllLock := x ≠ .pllLock ∧ x ≠ .heldPll } }

theorem test_ReleaseToBoot :
    all [(off .heldPll).bnd.step = .heldPll, (nx .resetRelease (off .heldPll)).bnd.step = .pllLock,
      (nx .resetRelease (off .heldEFuse)).bnd.step = .eFuse, (nx .resetRelease (off .heldSram)).bnd.step = .sram,
      (nx .pllLock (off .pllLock)).bnd.step = .eFuse, (nx .efuseLoad (off .eFuse)).bnd.step = .sram,
      (nx .sramInitDone (off .sram)).bnd.step = .lectern, (nx .lecternStart (off .lectern)).bnd.adp = .boot] = true := by decide +kernel

theorem test_ClocksAndSupplies :
    let lost := { run with bnd := { run.bnd with refLost := some (run.tick - 64) } }
    let fresh := { run with bnd := { run.bnd with refLost := some (run.tick - 63) } }
    all [(off .pllLock).bnd.adp = .off, (nx .resetStepOverrun (off .pllLock)).bnd.adp = .fault, run.clocked, run.bnd.pllLock,
      (nx .pllUnlock run).bnd.adp = .fault, ev evGlb 5 (nx .pllUnlock run), (nx .refclkLossExpiry lost).bnd.adp = .fault,
      (nx .refclkLossExpiry lost).bnd.pllLock = false, getF (nx .supplyA run) glbBsts 2 1 = 0, getF (nx .supplyH run) glbBsts 3 1 = 0,
      ev evGlb 2 (nx .supplyA run), ev evGlb 3 (nx .supplyH run), getF (nx (.supplyRestored false) (nx .supplyA run)) glbBsts 2 1 = 1,
      run.bnd.refLost = none, ev evGlb 4 (nx .refclkLoss run), (nx .refclkReturn fresh).bnd.refLost = none,
      getF (nx .refclkReturn fresh) glbBsts 1 1 = 1] = true := by decide +kernel

theorem test_FreezeStops :
    all [run.bnd.adp ≠ .off, run.bnd.adp ≠ .frozen, frozen.bnd.adp.code = 7, frozen.bnd.pllLock, frozen.cts = run.cts,
      !(State.reset.bnd.adp = .frozen)] = true := by decide +kernel

theorem test_PaceLines :
    all [run.alive, paceLevel 255 run = 0, run.acts, getF (nx (.paceEdge 255) run) (glbPaceLvl 7) 31 1 = 1,
      getF (nx (.paceLevelFall 255) (nx (.paceEdge 255) run)) (glbPaceLvl 7) 31 1 = 0] = true := by decide +kernel

/-! ### Registers and event blocks -/

theorem test_EventBlockWrites : WriteTaken (evtBase .glb + 0x0C) run ∧
    all [ev evGlb 0 (nx (.evtSetWrite .glb 1) run), !ev evGlb 0 (nx (.evtClrWrite .glb 1) (raise evGlb 0 (latchEvents run))) ||
        ev evGlb 0 (nx (.evtClrWrite .glb 1) (raise evGlb 0 run)), evtDefined evGlb 10,
      (getEvt (nx (.evtCntWrite .glb 2 0x00FE0000) run) evGlb).count 10 = 254] = true := by
  unfold WriteTaken
  decide +kernel

theorem test_RegisterWrites :
    let fault := inState .fault
    let locked := { run with bnd := { run.bnd with rwlLocked := true } }
    WriteTaken calCfg run ∧
    all [evtAt calCfg = none, fault.acts = false, faultWritable calCfg = false, (nx (.registerWrite false 0x1000 0) fault).bnd.mrerr,
      inPro calCfg = false, regFields 0x7FFFC = none, !governed calCfg, (regFields calCfg).isSome,
      getF (nx (.registerWrite false 0x1000 0x00818064) run) calCfg 0 12 = 100,
      ev evGlb 0 (nx (.registerWrite false 0x1000 0) run), lockedReg ((regFields tbLimits).getD []) locked, inPro tbLimits = false,
      !governed tbLimits, evtAt tbLimits = none, !lockedReg ((regFields tbLimits).getD []) run,
      ev evGlb 1 (nx (.registerWrite false (BitVec.ofNat 17 (tbLimits / 4)) 0) locked), !ownBehaviour calCfg] = true := by
  unfold WriteTaken
  decide +kernel

theorem test_ManagementPort :
    let late : MgtAccess := { write := false, agent := false, addr := 0, data := 0, since := run.cts - 1024 }
    let busy := { run with bnd := { run.bnd with access := some late, mready := false } }
    all [run.bnd.mready, (nx .tbCtsLoRead run).bnd.mrdata = BitVec.ofNat 32 run.cts,
      getF (nx .tbCtsLoRead run) tbCtsHi 0 32 = run.cts / 2 ^ 32, busy.alive, ev evGlb 6 (nx .mgtTimeout busy),
      (nx .mgtTimeout busy).bnd.mrerr, ((nx (.prtCold 63) run).port 63).ln.coldDue = some false,
      ((nx (.prtRetrain 0) run).port 0).ln.resetDue = some 2, (link.lane 3).role = .active, (link.lane 3).due = none,
      (spareOf (portOf 3) link).isSome, ((nx (.lnDcalReq 3) link).lane 3).due = some (.requested, link.tick, false),
      spareOf 1 (updLane 5 (fun x => { x with role := .active }) run) = none,
      ev (evLn 5) 8 (nx (.lnDcalReq 5) (updLane 5 (fun x => { x with role := .active }) run)),
      getReg (nx (.lnCntClr 0) run) (lnErrcnt 0) = 0, run.lect.restart = none, mailboxBusy run = false,
      getF (nx .mbxGo run) mgtMbxSts 0 2 = 1, mailboxBusy (nx .mbxGo run)] = true := by decide +kernel

/-! ### Lanes -/

theorem test_RepairRequests :
    let noSpare := updLane 4 (fun x => { x with role := .off }) link
    let late := { link with cts := link.cts + 768 }
    all [(link.port (portOf 3)).pw.state = .p0, (link.port 0).ln.swap = none, (link.port 0).ln.dcal = none, (link.lane 3).role = .active,
      spareOf (portOf 3) link = some 4, (link.lane 4).role = .spare, spareOf (portOf 3) noSpare = none, (noSpare.lane 3).role = .active,
      ((requestRepair 3 .los link).port 0).ln.swap = some ⟨3, 4, false, link.tick + 2, true, .los⟩,
      ((requestRepair 3 .los late).port 0).ln.swap = some ⟨3, 4, false, link.tick + 3, true, .los⟩,
      ((requestRepair 3 .los link).port 0).tx.hatCtl = [LaneMsg.slot ⟨.swapReq, 3, 4, false, (link.tick + 2) % 65536⟩],
      ((requestRepair 4 .cdr link).port 0).ln.failing = [(4, .cdr)], ((requestRepair 4 .cdr link).port 0).ln.resetDue = none,
      ((requestRepair 3 .err noSpare).port 0).ln.failing = [(3, .err)], ((requestRepair 3 .err noSpare).port 0).ln.resetDue = some 1,
      ((requestRepair 3 .err noSpare).port 0).ln.dueTick = link.tick + 1] = true := by decide +kernel

theorem test_LanesAndSwaps_lanes :
    let busy := updLane 0 (fun x => { x with lastWindow := 1025 }) link
    let training := updLn 0 (fun x => { x with lstate := .training, training := some { phase := .verify, cold := false, began := 0, lanes := 31 } })
      (updLane 0 (fun x => { x with role := .training }) link)
    all [reports 0 link, reports 0 busy, getF busy calThr 0 16 < (busy.lane 0).lastWindow,
      ev (evLn 0) 0 (nx (.lossOfLight 0) link), ev (evLn 0) 1 (nx (.cdrUnlock ⟨0, false⟩) link),
      ev (evLn 0) 2 (nx (.laneErrWindow 0) busy), !ev (evLn 0) 2 (nx (.laneErrWindow 0) link),
      (nx (.lossOfLight 0) link).lane 0 = { link.lane 0 with los := true }, ev (evLn 0) 3 (nx (.gapCalStep 0 0 none true) link),
      !reports 0 training, inTraining 0 training, ((nx (.lossOfLight 0) training).lane 0).los,
      !ev (evLn 0) 0 (nx (.lossOfLight 0) training), !((nx (.cdrUnlock ⟨0, false⟩) training).lane 0).cdr] = true := by decide +kernel

/-- A lane-control message released at port 0. -/
def control (k : LKind) (s : State) : State := updRx 0 (fun x => { x with hat := [LaneMsg.slot ⟨k, 3, 4, false, (s.tick + 3) % 65536⟩] }) s

theorem test_LanesAndSwaps_swaps :
    let agreed := updLn 0 (fun x => { x with swap := some ⟨3, 4, false, link.tick, true, .los⟩ }) link
    all [agreed.acts, (agreed.port 0).ln.swap = some ⟨3, 4, false, agreed.tick, true, .los⟩,
      ((nx (.laneSwapEffective 0) agreed).lane 3).role = .failed, ((nx (.laneSwapEffective 0) agreed).lane 4).role = .active,
      getF (nx (.laneSwapEffective 0) agreed) (prtLswap 0) 0 16 = 1, ((nx (.laneSwapEffective 0) agreed).flt.held.map (·.unit)) = [cellOf 0 3],
      (takeCtl 0 .swapReq (control .swapReq link)).isSome, ((nx (.swapReq 0 false) (control .swapReq link)).port 0).ln.swap.isSome,
      ((nx (.swapReq 0 false) (control .swapReq link)).port 0).tx.hatCtl = [LaneMsg.slot ⟨.swapAck, 3, 4, false, (link.tick + 3) % 65536⟩],
      (takeCtl 0 .swapAck (control .swapAck link)).isSome,
      ((nx (.swapAck 0 false) (control .swapAck link)).port 0).rx.hat = []] = true := by decide +kernel

theorem test_BadControlMessages :
    all ([(Instr.swapReq 0 true, LKind.swapReq), (.swapAck 0 true, .swapAck), (.calOutReq 0 true, .calOutReq), (.calOutAck 0 true, .calOutAck),
      (.calInReq 0 true, .calInReq), (.calInAck 0 true, .calInAck), (.calRefuse 0 true, .calRefuse)].map (fun c =>
        (takeCtl 0 c.2 (control c.2 link)).isSome && ev (evPrt 0) 15 (nx c.1 (control c.2 link)) &&
          decide (((nx c.1 (control c.2 link)).port 0).rx.hat = []))) = true := by decide +kernel

/-- Port 0 with a deep calibration of lane 3 at a stage. -/
def calibrating (x : DcalStage) : State := updLn 0 (fun y => { y with dcal := some ⟨3, 4, x, true, false, .ring⟩ }) link

theorem test_DeepCalibration_due :
    let due := updLane 3 (fun x => { x with due := some (.period, link.tick - 1600000, false) }) link
    all [link.acts, getF link calCfg 12 8 = 24, ((nx (.dcalDue 3 25) link).lane 3).due = some (.drift, link.tick, false),
      ((nx (.dcalDue 3 24) (updLane 3 (fun x => { x with dueBase := link.tick }) link)).lane 3).due = none,
      ((nx (.calOverdue 3) due).lane 3).due = some (.period, link.tick - 1600000, true), ev (evLn 3) 9 (nx (.calOverdue 3) due),
      dcalPorts due < min (getF due calCfg 20 4) 8, chooseDue due = some 3, spareOf (portOf 3) due = some 4,
      ((nx .dcalStart due).port 0).ln.dcal = some ⟨3, 4, .out (effTick due), true, false, .ring⟩] = true := by decide +kernel

theorem test_DeepCalibration_messages :
    let full := setF calCfg 20 4 0 (control .calOutReq link)
    let out := control .calRefuse (calibrating (.out 5))
    let inC := control .calInReq (calibrating (.inCal 5))
    all [(takeCtl 0 .calOutReq (control .calOutReq link)).isSome,
      ((nx (.calOutReq 0 false) (control .calOutReq link)).port 0).tx.hatCtl = [LaneMsg.slot ⟨.calOutAck, 3, 4, false, (link.tick + 3) % 65536⟩],
      ((nx (.calOutReq 0 false) (control .calOutReq link)).port 0).ln.dcal.isSome, (takeCtl 0 .calOutReq full).isSome,
      ((nx (.calOutReq 0 false) full).port 0).ln.dcal = none,
      ((nx (.calOutReq 0 false) full).port 0).tx.hatCtl = [LaneMsg.slot ⟨.calRefuse, 3, 4, false, (link.tick + 3) % 65536⟩],
      (takeCtl 0 .calOutAck (control .calOutAck (calibrating (.out 5)))).isSome,
      ((nx (.calOutAck 0 false) (control .calOutAck (calibrating (.out 5)))).port 0).ln.dcal = some ⟨3, 4, .out 5, true, true, .ring⟩,
      (takeCtl 0 .calInAck (control .calInAck (calibrating (.back 5 4)))).isSome,
      ((nx (.calInAck 0 false) (control .calInAck (calibrating (.back 5 4)))).port 0).ln.dcal = some ⟨3, 4, .back 5 4, true, true, .ring⟩,
      (takeCtl 0 .calRefuse out).isSome, ((nx (.calRefuse 0 false) out).port 0).ln.dcal = some ⟨3, 4, .retry (link.tick + 64), true, false, .ring⟩,
      ev evCal 0 (nx (.calRefuse 0 false) out), (takeCtl 0 .calInReq inC).isSome,
      ((nx (.calInReq 0 false) inC).port 0).tx.hatCtl = [LaneMsg.slot ⟨.calInAck, 3, 4, false, (link.tick + 3) % 65536⟩],
      ((nx (.dcalRetry 0) (calibrating (.retry link.tick))).port 0).ln.dcal = some ⟨3, 4, .out (effTick link), true, false, .ring⟩] = true := by decide +kernel

theorem test_DeepCalibration_handover :
    let out := nx (.calHandoverEffective 0) (calibrating (.out link.tick))
    let back := nx (.calHandoverEffective 0) (calibrating (.back link.tick 9))
    let late := nx (.dcalTimeout 0) (calibrating (.inCal (link.tick - 12800)))
    all [(out.lane 3).role = .cal, (out.lane 4).role = .active, (out.port 0).ln.dcal = some ⟨3, 4, .inCal link.tick, true, false, .ring⟩,
      (back.lane 3).role = .active, (back.lane 4).role = .spare, (back.lane 3).dcts = link.cts, (back.port 0).ln.dcal = none,
      ((nx (.dcalConverged 0 77 9) (calibrating (.inCal 5))).lane 3).heater = some 77,
      ((nx (.dcalConverged 0 77 9) (calibrating (.inCal 5))).port 0).ln.dcal = some ⟨3, 4, .back (effTick link) 5, true, false, .ring⟩,
      (late.lane 3).role = .failed, (late.port 0).ln.dcal = none, ev (evLn 3) 7 late, late.flt.held.map (·.code) = [0x0105]] = true := by
  decide +kernel

/-! ### Training -/

theorem test_TrainingsBegin :
    let reset := updLn 0 (fun x => { x with resetDue := some 0, dueTick := link.tick }) link
    let cold := updLn 0 (fun x => { x with coldDue := some false, dueTick := link.tick }) link
    let deaf := updRx 0 (fun x => { x with empty := 8 }) link
    let masked := setF (mgtPortMask 0) 0 1 0 cold
    all [(reset.port 0).ln.failing = [], ((nx (.linkReset 0) reset).port 0).ln.lstate = .training,
      ((nx (.linkReset 0) reset).lane 3).role = .training,
      ((nx (.linkReset 0) reset).port 0).ln.training.map (·.phase) = some .cdr,
      (nx (.linkReset 0) reset).flt.held.map (·.code) = [0x0201], (link.port 0).ln.lstate = .up,
      ((nx (.noFlitTimeout 0) deaf).port 0).ln.resetDue = some 0,
      ((nx (.peerTrainingJoin 0 false) link).port 0).ln.resetDue = some 5,
      ((nx (.peerTrainingJoin 0 true) link).port 0).ln.coldDue = some false, absent 0 cold = false, getF cold (prtEng 0) 0 5 ≠ 31,
      ((nx (.coldTraining 0) cold).port 0).ln.training.map (·.phase) = some .ring,
      ((nx (.coldTraining 0) cold).port 0).ln.coldDue = none, absent 0 masked,
      ((nx (.coldTraining 0) masked).port 0).ln.coldDue = none, ((nx (.coldTraining 0) masked).port 0).ln.training = none] = true := by decide +kernel

/-- Port 0 in a training phase with all lanes. -/
def training (ph : TPhase) : State :=
  updLn 0 (fun x => { x with lstate := .training, training := some { phase := ph, cold := false, began := 0, lanes := 31, active := 15, spare := some 4, upCount := 4 } }) link

theorem test_TrainingsEnd :
    let peer := updLn 0 (fun x => { x with training := x.training.map (fun t => { t with peerDone := true }) }) (training .cdr)
    all [(training .cdr).acts, ((nx (.trainingPhaseEnd 0 31 []) peer).port 0).ln.training.map (·.phase) = some .level,
      ((nx (.trainingPhaseEnd 0 31 []) (training .cdr)).port 0).ln.training.map (·.phase) = some .level,
      ((nx (.trainingPhaseEnd 0 0 []) (training .level)).port 0).ln.training = none,
      getF (nx (.trainingPhaseEnd 0 0 []) (training .level)) (prtLtrn 0) 0 8 = 0x34,
      ((nx (.linkUp 0) (training .up)).port 0).ln.width = 4, ((nx (.linkUp 0) (training .up)).lane 3).role = .active,
      ((nx (.linkUp 0) (training .up)).lane 4).role = .spare] = true := by decide +kernel

/-! ### Sideband, time base and tick -/

theorem test_SidebandFrames :
    let reqs : List BlsbReq := [{ owner := .gap, seq := 1, kind := kindHeaterSet, cell := 319, value := 77, sent := 0 },
      { owner := .site, seq := 2, kind := kindLaserRead, cell := 0x1FF, value := 0, sent := 0, reissues := 3 }]
    let s := { run with blsb := { run.blsb with waiting := reqs } }
    let laser (x : Nat) := blsbFrame 0xA 0x1FF x 2
    all [s.bnd.blsbCk, frameOk 1 = false, ev evGlb 7 (nx (.blsbFrameRx 1) s), frameOk (blsbFrame 8 0 0 9), blsbMatch (blsbFrame 8 0 0 9) s = none,
      frameOk (blsbFrame 8 319 0 1), (blsbMatch (blsbFrame 8 319 0 1) s).isSome, ((nx (.blsbFrameRx (blsbFrame 8 319 0 1)) s).lane 319).heater = some 77,
      (blsbMatch (laser 1) s).isSome, ev evGlb 9 (nx (.blsbFrameRx (laser 1)) s), ev evGlb 10 (nx (.blsbFrameRx (laser 2)) s),
      getF (nx (.blsbFrameRx (laser 2)) s) glbBsts 4 2 = 2, getF (nx (.blsbFrameRx (laser 0)) s) glbBsts 4 2 = 0,
      (nx (.blsbRequestTimeout 1) s).blsb.out.map (·.2) = some (blsbFrame 1 319 77 1), ev evGlb 8 (nx (.blsbRequestTimeout 2) s),
      (nx (.blsbRequestTimeout 2) s).blsb.waiting.length = 1, (nx .laserStatusRead s).blsb.waiting.length = 3,
      s.blsb.laserTick + 1600 ≤ s.tick, getF (nx .laserUnknown s) glbBsts 4 2 = 3] = true := by decide +kernel

theorem test_TicksAndTime_tick :
    let fault := inState .fault
    let sixteenth := { run with tb := { run.tb with overruns := [(7 * 16384 + 3, (run.tick - 1, 15))] } }
    all [run.counts, run.acts, run.bnd.nextState = none, (nx .tickBoundary run).cts = 102400001024, (nx .tickBoundary run).bnd.adp = .run,
      fault.acts = false, fault.counts, (nx .tickBoundary fault).cts = 102400001024, !State.reset.counts,
      ev evTb 0 (nx (.tickOverrun 7 3) run), getF (nx (.tickOverrun 7 3) run) (tbOvrCnt 1) 24 8 = 1, overrunRun 7 3 sixteenth = 16,
      overrunRun 7 3 run = 1, getF (nx (.tickOverrun 7 3) run) tbOvrSts 0 3 = 7,
      (nx (.tickOverrun 7 3) sixteenth).flt.held.any (fun r => r.unit == 3 && r.code == 0x0406)] = true := by decide +kernel

theorem test_TicksAndTime_time :
    let locked := setF tbCfg 0 2 1 { run with tb := { run.tb with state := .locked, miss := 7 } }
    let held := { run with tb := { run.tb with state := .holdover, hold := 4096 } }
    let aOnly := { run with tb := { run.tb with mode := .aOnly } }
    let bOnly := { run with tb := { run.tb with mode := .bOnly } }
    all [locked.upstream.isSome, !locked.markerSeen, (nx .markerLost locked).tb.state = .holdover, ev evTb 1 (nx .markerLost locked),
      ev evTb 3 (nx .markerLost locked), (nx .markerLost { locked with tb := { locked.tb with miss := 6 } }).tb.state = .locked,
      2 ^ getF held tbLimits 8 5 ≤ held.tb.hold, (nx .holdoverExpired held).tb.expired, run.alive, !run.tb.dead, run.tb.mode = .pair,
      (nx (.tbMismatch true true false false) run).bnd.adp = .fault, (nx (.tbMismatch true false true true) run).tb.mode = .bOnly,
      (nx (.tbMismatch false false false true) run).tb.mode = .bOnly, (nx (.tbMismatch false true true true) run).tb.mode = .aOnly,
      (nx (.tbMismatch false false true true) run).tb.mode = .aOnly, getF (nx (.tbMismatch true false true true) run) glbLock 0 2 = 2,
      (nx (.tbMismatch false true true true) aOnly).bnd.adp = .run, (nx (.tbMismatch true false true true) aOnly).bnd.adp = .fault,
      (nx (.tbMismatch true false true true) bOnly).bnd.adp = .run, (nx (.tbMismatch false true true true) bOnly).tb.dead] = true := by decide +kernel

theorem test_BringUpAndQuiescing :
    let train := { inState .train with regs := [(mgtPortMask 0, 0), (mgtPortMask 1, 0)], tb := { State.reset.tb with state := .locked }, bring := { others := true, trainFrom := run.tick - 16000 } }
    let quiesce := { inState .quiesce with bring := { quietFrom := 0 } }
    let stuck := { quiesce with dma := [(0, { st := .run })] }
    all [train.bnd.adp = .train, train.cyc = 0, trained train, ev evMgt 6 (nx .trainStall train),
      (nx .trainStall train).bring.trainSaid, quiesce.cyc = 0, drained quiesce, !drained stuck,
      stuck.bring.quietFrom + rspTimeout stuck * (retryLim stuck + 1) ≤ stuck.tick, ev evMgt 7 (nx .quiesceStall stuck)] = true := by decide +kernel

/-! ### Slots -/

theorem test_PortTasks :
    let t := nx (.powerTask 0) { link with ports := [(0, { upPort with pw := { sent := some (link.tick, 0x5F, true), peerTick := some link.tick, peerPwr := 0x5F } })] }
    let busy := updRx 0 (fun x => { x with ackDue := true }) link
    all [(link.port 0).stopped = false, ((nx (.markerBuild 0) link).port 0).marker.map (·.1) = some (link.tick + 1),
      ((nx (.markerBuild 0) link).port 0).marker.map (·.2.ctsTx) = some (link.cts + 1024), link.role ≠ 2,
      (setF tbCfg 0 2 2 link).role = 2, ((nx (.ledgerBuild 0) link).port 0).cr.ledger.map (·.1) = some link.tick,
      ((nx (.calendarRead 0 [] []) link).port 0).sc.readNext = 256, (t.port 0).pw.next.isSome,
      (t.port 0).pw.enter = some (.p1, link.tick + 1), linkBusy 0 busy,
      ((nx (.powerTask 0) busy).port 0).pw.next.map (·.2.1) = some 0, ownPwr 0 link = none] = true := by decide +kernel

/-- Port 0 up in a power state. -/
def powered (st : PState) : State := updPw 0 (fun x => { x with state := st }) link

theorem test_FlitSlots :
    let m : Marker := { ctsTx := link.cts, gmid := 0, stratum := 0, tq := 0, tsv := true, calph := 0, pwr := 0 }
    let s := updPort 0 (fun x => { x with marker := some (link.tick, m) }) link
    let sends (x : State) := (x.port 0).tx.wire.isSome
    all [link.acts, !link.bnd.cellsDark, link.cyc ≤ 3, (link.port 0).ln.training = none, slotPresent 4 255, sends (nx (.flitSlot 0 0 false false) s),
      (s.port 0).marker = some (s.tick, m), sends (nx (.flitSlot 0 128 false false) link), sends (nx (.flitSlot 0 255 false false) link),
      sends (nx (.flitSlot 0 0 false false) (powered .p1)), !sends (nx (.flitSlot 0 255 false false) (powered .p1)),
      !sends (nx (.flitSlot 0 0 false false) (powered .p2)), !sends (nx (.flitSlot 0 128 false false) (powered .p3)),
      !sends (nx (.flitSlot 0 255 false false) (training .level)), sends (nx (.flitSlot 0 255 false false) (training .delay))] = true := by
  decide +kernel

/-! ### Flits received -/

/-- A flit of a kind with a sequence number and a first slot. -/
def flit (kind seq nslot : Nat) (x : Slot) : Flit := { hdr := { kind := kind, seq := seq, nslot := nslot }, slots := x :: List.replicate 14 0 }

theorem test_FlitsByNumber_uncorrectable :
    let s := nx (.badFlitRx 0 255 (List.replicate 272 255)) link
    all [receives 0 link, (link.port 0).ln.training = none, quiet 0 255 link = false, (readFlit (List.replicate 272 255)) = .uncorr,
      ev (evPrt 0) 0 s, (s.port 0).rx.nakDue] = true := by decide +kernel

/-- A whole flit whose 256 protected bytes are 1 and then zeros: its parity is right and its CRC is not. -/
def badCrc : List Byte :=
  let p := 1 :: List.replicate 255 0
  bytesOf (p ++ interleave (rsParity (evens p)) (rsParity (evens (p.drop 1))))

theorem test_FlitsByNumber_crc :
    all [match readFlit badCrc with | .crcFail _ => true | _ => false] = true := by
  decide +kernel

/-- A ledger flit with its valid bit. -/
def ledger (v : Bool) : Flit :=
  { hdr := { kind := 3, nslot := 15 }
    slots := Ledger.slots { valid := v, cfg := {}, rtick := link.tick % 65536, epoch := 0, digest := 0, hfreeCtl := 7, hfreePlv := 0
                            counts := List.replicate 9 (0, 0, 0), summary := [0, 5, 0] } }

/-! ### The send side of a link -/

/-- A two-slot packet to die 5, of a flow or of none. -/
def packet (flow : Option Nat) : Packet := { slots := [PktHdr.slot { opc := opRead, len := 1, dst := 5, cls := 1 }, 0], flow := flow }

/-- Port 0 with a packet staged, and credit published by the peer. -/
def sending (flow : Option Nat) : State :=
  updPort 0 (fun x => { x with tx := { x.tx with staged := [packet flow] }, cr := { x.cr with peer := some {} } }) link

theorem test_PacketsAndTimers_packets :
    let flowing := { sending (some 9) with
      banks := { link.banks with calAct := [(1, 0x80000009)], flowAct := [(9, 0x80000000)] }
      ports := [(0, { (sending (some 9)).port 0 with sc := { d := 0, sched := true, readNow := 256 } })] }
    let rest (s : State) := demoteStarted 0 (demoteStaged 0 s)
    all [takesPackets 0 (sending none), nextFlow 0 (rest (sending none)) = none, ((rest (sending none)).port 0).tx.cur = none,
      (nextStart 0 (rest (sending none))).isSome, ((nx (.packetHandoff 0 0) (sending none)).port 0).tx.staged = [],
      ((nx (.packetHandoff 0 0) (sending none)).port 0).tx.nextPid = 1, takesPackets 0 flowing, (nextFlow 0 (rest flowing)).isSome,
      ((nx (.packetHandoff 0 0) flowing).port 0).sc.flows.length = 1,
      takesPackets 0 (updCr 0 (fun x => { x with peer := some {} }) link),
      nextStart 0 (rest (updCr 0 (fun x => { x with peer := some {} }) link)) = none] = true := by decide +kernel

theorem test_PacketsAndTimers_timers :
    let asm := updTx 0 (fun x => { x with asm := { pks := [{ bits := 0, pid := 0, first := true, last := true, pool := 0 }], first := 0 } }) link
    let acc := updRx 0 (fun x => { x with ackTimer := some 0 }) link
    let timed := updTx 0 (fun x => { x with timer := some 0, nextTx := 1 }) link
    let dark := updRx 0 (fun x => { x with dark := true }) timed
    let sel := updTx 0 (fun x => { x with selective := true, sb := [{ seq := 0, hslot := 0, slots := [], sent := 0, pids := [] }] }) timed
    let ratio := { updTx 0 (fun x => { x with winFirst := 1, winCopies := 1023 }) link with cts := (link.tick / 64 * 64 + 63) * 1024 }
    let clean := updTx 0 (fun x => { x with selective := true, cleanTicks := 65535 }) link
    all [(asm.port 0).tx.asm.first + effF asm (prtPoolcfg 0) 8 8 ≤ asm.cts, ((nx (.flushTimer 0) asm).port 0).tx.asm.sealed,
      ackTimer 0 acc ≤ acc.cts, ((nx (.ackTimerExpiry 0) acc).port 0).rx.ackDue, 0 < (timed.port 0).tx.unacked, !isDark 0 timed,
      isDark 0 dark, effF timed (prtLinkCtl 0) 14 12 ≤ timed.cts, ev (evPrt 0) 4 (nx (.replayTimeout 0) timed),
      ((nx (.replayTimeout 0) dark).port 0).tx.expiredDark, ((nx (.replayTimeout 0) sel).port 0).tx.selQueue.map (·.1) = [0],
      ((nx (.darkEntry 0) dark).port 0).rx.dark, selCtl 0 ratio = 0, ratio.tick % 64 = 63,
      ((nx (.selEnter 0) ratio).port 0).tx.modeNext = some true, effF clean (prtLinkCtl2 0) 10 16 ≤ 65535,
      ((nx (.selExit 0) clean).port 0).tx.modeNext = some false] = true := by decide +kernel

/-! ### Power states -/

theorem test_PowerStates :
    let enter := updPw 0 (fun x => { x with enter := some (.p2, link.tick) }) (updTx 0 (fun x => { x with timer := some 0 }) link)
    let late := updPw 0 (fun x => { x with enterLate := some (.p3, link.tick) }) link
    let force (st : PState) := updPw 0 (fun x => { x with force := some 0 }) (powered st)
    let stir := updPw 0 (fun x => { x with stir := some 0 }) (powered .p1)
    let waking (w : Wake) := updPw 0 (fun x => { x with wake := some w }) (powered .p2)
    let exceeded : Wake := { u := link.tick - 32, own := true, ready := true, lit := true }
    let unlit : Wake := { u := link.tick - 8, own := true, began := link.tick - 1 }
    all [((nx (.powerEntry 0) enter).port 0).pw.state = .p2, ((nx (.powerEntry 0) enter).port 0).tx.timer = none,
      getF (nx (.powerEntry 0) enter) (prtPwrCnt 0) 0 16 = 1, ((nx (.powerEntryLate 0) late).port 0).pw.state = .p3,
      link.cyc = 0, demand 0 (force .p1), ((force .p1).port 0).ln.standing = [], ((nx (.p1Wake 0) (force .p1)).port 0).pw.state = .p0,
      ((nx (.p1Wake 0) stir).port 0).pw.state = .p0, ((nx (.wakeStart 0) (force .p2)).port 0).pw.wake.map (·.u) = some link.tick,
      ((nx (.wakeStart 0) (force .p3)).port 0).ln.coldDue = some false, (powered .p2).cts ≥ ((powered .p2).port 0).pw.watchFrom,
      ((nx (.lightWatch 0) (powered .p2)).port 0).pw.wake.map (·.own) = some false, ((nx (.lightWatch 0) (powered .p3)).port 0).ln.coldDue = some false,
      ((nx (.lightWatch 0) (waking unlit)).port 0).pw.wake = some { unlit with lit := true },
      ((nx (.wakeComplete 0) (waking exceeded)).port 0).pw.state = .p0, wakeOver unlit link.tick,
      ((nx (.wakeFail 0) (waking unlit)).port 0).ln.resetDue = some 6, ev (evPrt 0) 21 (nx (.wakeFail 0) (waking unlit))] = true := by decide +kernel

/-! ### Inner ports -/

/-- A FREQ or HRSP header beat. -/
def hdr (kind tag bytes addr die : Nat) : BitVec 128 := IpHdr.beat { kind := kind, tag := tag, bytes := bytes, addr := addr, die := die }

theorem test_HostRequests :
    let go (b : BitVec 128) := nx (.freqTransfer 15 b []) run
    let used := nx (.freqTransfer 15 (hdr kRead 1023 1 0 5) []) run
    let poison := IpHdr.beat { kind := kRead, tag := 3, bytes := 4096, addr := 0, die := 5, poison := true }
    all [run.portsOpen, run.bnd.adp = .run, rreOut 15 run < 512, headerParOk 1 = false, ev (evQd 3) 0 (go 1), getF (go 1) (qdIpErrcnt 15) 0 16 = 1,
      headerParOk (hdr kRead 1023 1 0 5), ((used.ip 15).freq.map (·.tag)) = [1023], used.tx.waiting.map (·.dst) = [5],
      ev (evQd 3) 2 (nx (.freqTransfer 15 (hdr kRead 1023 1 0 5) []) used), headerParOk (hdr 0x99 2 0 0 5),
      ((go (hdr 0x99 2 0 0 5)).ip 15).frsp.map (·.resp) = [8], headerParOk poison, ((go poison).ip 15).frsp.map (·.resp) = [3],
      ((go (hdr kRead 2 4096 4095 5)).ip 15).freq.map (·.parts.length) = [2], (go (hdr kRead 2 4096 4095 5)).tx.waiting.length = 2] = true := by
  decide +kernel

/-! ### Transactions -/

/-- A request to a die that waits to be committed. -/
def asked (dst : Nat) : State :=
  updT (fun x => { x with waiting := [{ dst := dst, slots := [PktHdr.slot { opc := opRead, len := 1, dst := dst, cls := 1 }, 0], client := .thread 0 }] }) run

/-- A request packet of die 7 in the Cupboard of port 7: a READ of `n` bytes at 0x100. -/
def received (h : PktHdr) (n : Nat) (s : State) : State :=
  updRx 7 (fun x => { x with cup := [{ id := 0, slots := [h.slot, BitVec.ofNat 128 n], need := 2 }] }) s

/-- RUN with window 0: 1 MiB at address 0 of inner port 0, atomics allowed, open to source group 0. -/
def windowed : State := { run with prot := { img := [(4, 0x1029), (5, 1)] } }

theorem test_Requests_commit :
    let paired := setSrc 5 (some { next := 0xFFFFF }) (asked 5)
    let cut := updPort 5 (fun x => { x with rt := { lost := true } }) (asked 5)
    let commit (s : State) := nx .requestCommit s
    let gone (bad : Bool) := cut.tx.waiting.head?.elim cut (fun q => unreachable q (relayRead bad 5 cut))
    all [route 5 (asked 5) = .port 5 false, getSrc (asked 5) 5 = none, ((commit (asked 5)).port 5).tx.staged.length = 1,
      (getSrc (commit (asked 5)) 5).map (·.next) = some 1, getSrc paired 5 = some { next := 0xFFFFF },
      (asked 5).tx.waiting.find? (fun q => committable q (asked 5)) = (asked 5).tx.waiting.head?,
      paired.tx.waiting.find? (fun q => committable q paired) = paired.tx.waiting.head?, (getSrc (commit paired) 5).map (·.next) = some 0,
      route 5 cut = .none, [false, true].all (fun b => route 5 (relayRead b 5 cut) = .none && getF (gone b) (glbTxCnt 2) 0 16 == 1 &&
        ((gone b).thread 0).resp == some 6),
      route 0 (asked 0) = .loop, (commit (asked 0)).tx.waiting = [], (commit (asked 0)).tx.spairs = []] = true := by decide +kernel

theorem test_Requests_target :
    let rd : PktHdr := { opc := opRead, len := 1, src := 7, dst := 0, cls := 1, sync := true, txid := 4, addr := 0x100 }
    let wr : PktHdr := { opc := opWrite, len := 1, src := 7, dst := 0, cls := 1, retry := true, txid := 4, addr := 0x100 }
    let s := received rd 4096 windowed
    let go (s : State) := nx (.targetRequest 7 false false []) s
    let test := received rd 16 { inState .test with prot := windowed.prot }
    let pair (t : TxState) (s : State) := setTgt 7 (some { nextExp := 4, map := [(4, t)] }) s
    all [(firstPkt 7 (fun c => requestFor s c && !c.timed) s).isSome,
      (nx (.targetRequest 7 true false []) s).flt.held.map (·.code) = [0x0501],
      (firstPkt 7 (fun c => requestFor s c && !c.timed) (received { rd with dup := true } 1 windowed)).map badRequest = some true,
      getF (go (received { rd with dup := true } 1 windowed)) (glbTxCnt 2) 16 16 = 1,
      (firstPkt 7 (fun c => requestFor test c && !c.timed) test).map badRequest = some false, getF (go test) (glbTxCnt 5) 0 16 = 1,
      (gate rd s).1 = .fresh, (match checkWindow 0x100 (groupOf 7 (gate rd s).2) false false (gate rd s).2 with | .inr x => x = (0, 0x100) | .inl _ => false),
      ((go (received rd 256 windowed)).ip 0).wait.map (fun r => (r.addr, r.bytes, r.write, r.die)) = [(0x100, 256, false, 7)],
      ((go (pair .pending (received wr 0 windowed))).ip 0).wait = [], getF (go (pair .pending (received wr 0 windowed))) (glbTxCnt 0) 0 16 = 1,
      (getTgt (pair .applied (received wr 0 windowed)) 7).isSome, ((go (pair .applied (received wr 0 windowed))).ip 0).wait = [],
      TgtPair.inMap { nextExp := 4, map := [] } 4] = true := by decide +kernel

/-- A request to die 7 outstanding, transmitted at a tick and counted. -/
def awaiting (count : Nat) (sent busy : Option Nat) : State :=
  let slots := [PktHdr.slot { opc := opRead, len := 1, dst := 7, cls := 1, txid := 4 }, 16]
  setSrc 7 (some { next := 5, reqs := [{ txid := 4, slots := slots, client := .thread 0, flow := none, count := count, sent := sent, busyAt := busy }] }) run

/-- A response of die 7 in the Cupboard of port 7, with its code. -/
def answeredBy (h : PktHdr) (s : State) : State := updRx 7 (fun x => { x with cup := [{ id := 0, slots := [h.slot, 0].take (h.len + 1), need := h.len + 1 }] }) s

theorem test_RequestsAnswered_responses :
    let ok : PktHdr := { opc := opReadData, len := 1, src := 7, dst := 0, txid := 4, addr := respAddr 4 .ok }
    let busy : PktHdr := { opc := opReadData, src := 7, dst := 0, txid := 4, addr := respAddr 4 .busy }
    let go (h : PktHdr) (s : State) := nx (.responseRx 7 false) (answeredBy h s)
    all [badResponse { ok with cls := 1 }, getF (go { ok with cls := 1 } run) (glbTxCnt 2) 16 16 = 1, !badResponse ok,
      (nx (.responseRx 7 true) (answeredBy ok run)).flt.held.map (·.code) = [0x0501], ok.txidLast = 4, !badResponse { ok with txid := 3, addr := respAddr 3 .ok },
      getF (go { ok with txid := 3, addr := respAddr 3 .ok } (awaiting 1 none none)) (glbTxCnt 0) 16 16 = 1,
      (getSrc (go ok (awaiting 1 (some 0) none)) 7).map (·.reqs.length) = some 0, !badResponse busy, busy.resp = 4,
      (getSrc (go busy (awaiting 1 (some 0) none)) 7).map (fun k => k.reqs.map (·.busyAt)) = some [some run.tick],
      1 < retryLim run] = true := by decide +kernel

theorem test_RequestsAnswered_timers :
    let s := awaiting 1 (some 0) none
    let lastTry := awaiting (retryLim run) (some 0) none
    let cut := updPort 7 (fun x => { x with rt := { lost := true } }) s
    let go (s : State) := nx (.rspTimeout 7 4) s
    all [(getReq 7 4 s).isSome, rspTimeout s ≤ s.tick, route 7 s = .port 7 false, ((go s).port 7).tx.staged.length = 1, (getReq 7 4 (go s)).map (·.count) = some 2,
      route 7 cut = .none, getReq 7 4 (go cut) = none, (getReq 7 4 lastTry).map (·.count) = some (retryLim run), getReq 7 4 (go lastTry) = none,
      getF (go lastTry) (glbTxCnt 1) 16 16 = 1, (getReq 7 4 (nx (.busyResend 7 4) (awaiting 1 none (some (run.tick - 64))))).map (·.count) = some 2] = true := by
  decide +kernel

theorem test_Routes :
    let through : PktHdr := { opc := opRead, len := 1, src := 7, dst := 9, cls := 1, addr := 0x100 }
    let spur := { updRx 0 (fun x => { x with cup := [{ id := 3, slots := [through.slot, 16], need := 2 }] }) run with
      prot := { img := [(576, 1)] } }
    let far := received through 16 run
    let due (c : LossCause) (l : Bool) := updPort 7 (fun x => { x with rt := { lossDue := some c, lost := l } }) run
    let drain := updPort 7 (fun x => { x with rt := { rstate := .draining } }) run
    let master := { link with tb := { link.tb with state := .master } }
    let sched := updPort 0 (fun x => { x with sc := { x.sc with dValid := true, phases := List.replicate 16 true, peerTq := 5 }, pw := { x.pw with peerTick := some link.tick } }) master
    all [(firstPkt 0 (fun c => c.complete && decide (c.hdr.dst ≠ spur.die)) spur).isSome, forwardPort 7 through far = none,
      getF (nx (.relayForward 7) far) (glbTxCnt 2) 0 16 = 1, forwardPort 0 through spur = some 9,
      getF (nx (.relayForward 0) spur) (glbTxCnt 3) 0 32 = 1, ((nx (.relayForward 0) spur).port 9).tx.staged.length = 1,
      ((nx (.portLost ⟨7, false⟩) (due .engine true)).port 7).rt.lossDue = none, ((nx (.portLost ⟨7, false⟩) (due .training false)).port 7).rt.lost,
      ((nx (.portLost ⟨7, false⟩) (due .engine false)).port 7).ln.lstate = .down, ev (evPrt 7) 22 (nx (.portLost ⟨7, false⟩) (due .wake false)),
      relayOutstanding 7 drain = false, ((nx (.drainComplete 7) drain).port 7).rt.rstate = .direct, ev (evPrt 7) 24 (nx (.drainComplete 7) drain),
      (drain.port 7).rt.drainFrom + rspTimeout drain * (retryLim drain + 1) ≤ drain.tick, ((nx (.drainTimeout 7) drain).port 7).rt.rstate = .direct,
      schedWanted 0 sched, ((nx (.schedModeChange 0) sched).port 0).sc.sched, !schedWanted 0 link,
      ev (evPrt 0) 19 (nx (.schedModeChange 0) (updPort 0 (fun x => { x with sc := { x.sc with sched := true } }) link))] = true := by decide +kernel

/-! ### Fences, atomics and the Lectern's accesses -/

theorem test_FencesAndThreads :
    let paired := setSrc 5 (some { next := 77 }) run
    let busy := nx (.fenceGo 0 5) paired
    let out : SrcReq := { txid := 4, slots := [PktHdr.slot { opc := opWrite, dst := 7, txid := 4 }], client := .thread 0, flow := none }
    let held := setFence 0 { dst := 7, busy := true, mark := 5 } (setSrc 7 (some { next := 6, reqs := [out] }) run)
    all [run.bnd.mready, run.acts, !(getFence run 0).busy, getFence busy 0 = { dst := 5, busy := true, mark := 77 },
      getFence (nx (.fenceGo 0 6) busy) 0 = getFence busy 0, getSrc run 5 = none,
      (getFence (nx (.fenceGo 0 5) run) 0).busy = false, fenceDone (getFence busy 0) busy,
      (getFence (nx (.fenceComplete 0) busy) 0).busy = false, !fenceDone (getFence held 0) held, !eightThreads run,
      eightThreads (inState .boot), (run.thread 0).parked = false,
      ((nx (.lecternRemoteAccess 0 .read 5 0xFFF 1 []) run).thread 0).parked] = true := by
  decide +kernel

/-- An ADD64 of 1 to the word at 0x100, and RUN with it at the lane of quad 0. -/
def atom : Atom := { client := .thread 0, src := 7, aop := 2, opa := 1, opb := 0, addr := 0x100, ip := 0, win := 0 }
def lane (l : AtomLane) : State := updALane 0 (fun _ => l) run

theorem test_AtomicUnit :
    let w : LiveWord := { h := 0x100, ip := 0, win := 0, value := some 41, queue := [atom] }
    let fullLane : AtomLane := { words := (List.range 64).map (fun i => { h := 0x1000 + 8 * i, ip := 0, win := 0 }), arrivals := [atom] }
    let go (l : AtomLane) := nx (.atomicLaneEntry 0) (lane l)
    let apply (l : AtomLane) := nx (.atomicApply 0) (lane l)
    let chest (f : Option Nat) := updT (fun x => { x with chest := [{ src := 7, txid := 4, filled := f }] }) run
    let rel : PktHdr := { opc := opAtomicRelease, src := 7, dst := 0, cls := 1, txid := 4 }
    let release (s : State) := nx (.atomicReleaseRx ⟨7, false⟩) (answeredBy rel s)
    all [((go { words := [w], arrivals := [atom] }).alane 0).words.map (·.queue.length) = [2], ((go { arrivals := [atom] }).ip 0).wait.map (·.addr) = [0x100],
      fullLane.words.length = 64, fullLane.words.any (fun w => w.h == atom.word) = false, ev evAtm 5 (go fullLane), ((go fullLane).alane 0).arrivals = [atom],
      ((apply { words := [w] }).ip 0).wait.map (·.data.length) = [8], ((apply { words := [{ w with writing := true }] }).alane 0).words.map (·.value) = [some 42],
      ((apply { words := [{ w with queue := [atom, atom] }] }).alane 0).words.map (·.queue.length) = [1],
      (chestFind 7 4 (chest (some 0))).isSome, effF run atmCtl 0 16 ≤ run.tick, chestFind 7 4 (nx (.chestAgeExpiry 7 4) (chest (some 0))) = none,
      (chestFind 7 4 (nx (.chestAgeExpiry 7 4) (chest (some run.tick)))).isSome, chestFind 7 4 (release (chest (some run.tick))) = none,
      (chestFind 7 4 (release (chest none))).map (·.released) = some true, ev evAtm 3 (release run)] = true := by decide +kernel

/-! ### Scheduled deliveries and epochs -/

theorem test_SchedulesAndEpochs :
    let rd : PktHdr := { opc := opRead, len := 1, src := 7, dst := 0, cls := 2, sync := true, txid := 4, addr := 0x100 }
    let s := updPort 7 (fun x => { x with sc := { x.sc with d := 64 } }) (received rd 16 windowed)
    let c := (firstPkt 7 (fun c => requestFor s c && c.timed) s).getD { id := 9, slots := [], need := 0 }
    let at_ (d : Nat) := { s with cts := deliverAt 7 c s + d }
    let pend := { run with banks := { run.banks with calStg := [(0, 5)], pend := some { tick := run.tick, epoch := 3, digest := 77 } } }
    let act := nx .epochActivation pend
    all [(firstPkt 7 (fun c => requestFor s c && c.timed) s).isSome, (firstPkt 7 (fun c => requestFor (at_ 0) c && c.timed) (at_ 0)).isSome,
      (at_ 0).cts = deliverAt 7 c (at_ 0), ((nx (.scheduledDelivery 7 false []) (at_ 0)).ip 0).wait.length = 1,
      deliverAt 7 c (at_ 1) < (at_ 1).cts, ev (evPrt 7) 20 (nx (.scheduledDelivery 7 false []) (at_ 1)),
      getF (nx (.scheduledDelivery 7 false []) (at_ 1)) (prtSchedCnt 7 3) 16 16 = 1, pend.banks.copying = false, act.banks.calAct = [(0, 5)],
      act.banks.abank, act.banks.copying, getF act mgtEpoch 0 32 = 3, digestNow act = 77, ev evPwr 1 act, (nx .bankCopyBack act).banks.pend = none,
      (nx .bankCopyBack act).banks.calStg = [(0, 5)]] = true := by decide +kernel

/-! ### Workbench and collectives -/

/-- A binary32 sum of two contributions of two elements, for segment (0, 0) of stream 1. -/
def sumSeg : WbSeg := { use := .col 1 0 0 0, op := { rop := 0, out := 0, n := 2 }, ncont := 2, room := 8 }

/-- The contribution of an index: 1.0 and 2.0. -/
def part (i : Nat) : Contrib := { use := .col 1 0 0 0, idx := i, fmt := 0, data := bytesOf (leBytes 8 0x400000003F800000) }

/-- Unit 7 with segments and waiting contributions. -/
def unit (gs : List WbSeg) (cs : List Contrib) : State := updWb 7 (fun x => { x with segs := gs, wait := cs }) run

theorem test_WorkbenchUnits :
    let folding := { sumSeg with next := 1, acc := [0x3F800000, 0x40000000], folding := some (run.cts, part 1) }
    let other (i : Nat) : WbSeg := { sumSeg with use := .col 2 i 0 0, held := List.replicate 32 (part 1) }
    let full := unit [sumSeg, other 0, other 1] [part 1]
    let ready := { folding with next := 2, folding := none, ready := some run.cts }
    let go (s : State) := (nx (.contributionArrival 7 false) s)
    let folded := nx (.foldComplete 7 false) (unit [folding] [])
    all [(run.wbUnit 7).inFree ≤ run.cts, (nextContrib ((unit [sumSeg] [part 0]).wbUnit 7) run.cts).map (·.2.2) = some .fold,
      ((go (unit [sumSeg] [part 0])).wbUnit 7).segs.map (·.folding) = [some (run.cts + 12, part 0)],
      (nextContrib ((unit [sumSeg] [part 1]).wbUnit 7) run.cts).map (·.2.2) = some .hold,
      ((go (unit [sumSeg] [part 1])).wbUnit 7).segs.map (·.held) = [[part 1]],
      (nextContrib ((unit [folding] [part 0]).wbUnit 7) run.cts).map (·.2.2) = some .dup, ev evWb 7 (go (unit [folding] [part 0])),
      (nextContrib (full.wbUnit 7) run.cts).map (·.2.2) = some .full, ev evWb 4 (go full), ((go full).wbUnit 7).wait.length = 1,
      foldDue ((unit [folding] []).wbUnit 7) run.cts = some (folding, part 1), (folded.wbUnit 7).segs.map (·.acc) = [[0x40000000, 0x40800000]],
      (folded.wbUnit 7).segs.map (·.ready) = [some (run.cts + 9)], ev evWb 6 (nx (.foldComplete 7 true) (unit [folding] [])),
      (takeEncoded 7 (unit [ready] [])).isSome, (takeEncoded 7 (unit [{ ready with use := .chan 0 0 }] [])).isSome,
      ((nx (.segmentEncoded 7) (unit [ready] [])).wbUnit 7).segs = [],
      stalledSeg 7 (unit [sumSeg] []) = some sumSeg, ev evWb 5 (nx (.orderStall 7) (unit [sumSeg] []))] = true := by decide +kernel

/-- An ALLREDUCE by members 0 and 7, of two binary32 elements, in RUN at stream 1. -/
def reducing : Stream :=
  { st := .run, members := [0, 7], index := 0
    d := { cid := 9, kind := 0, rop := 0, chunkElem := 2, segElem := 2, nelem := 2, outAddr := 0x1000 } }

/-- Stream 1 in a state. -/
def streaming (x : Stream) (s : State) : State := updStream 1 (fun _ => x) s

/-- The bytes of a descriptor: CID 9, ALLREDUCE by DIRECT of two binary32 elements over group 3. -/
def descBytes : List Byte :=
  bytesOf (leBytes 8 9 ++ leBytes 8 3 ++ leBytes 8 (2 + 2 * 2 ^ 32) ++ leBytes 8 2 ++ List.replicate 32 0)

theorem test_CollectiveControl_commands :
    let abort := nx (.colAbort 1) (streaming reducing run)
    let waiting := streaming { reducing with st := .wait } run
    let timed := streaming { reducing with st := .wait, d := { reducing.d with startEn := true, start := (run.tick + 5) % 2 ^ 32 } } run
    let huge := streaming { reducing with st := .wait, d := { reducing.d with chunkElem := 2 ^ 22, segElem := 2 ^ 22 } } run
    let due := streaming { reducing with st := .wait, runTick := some run.tick } run
    all [(reducing).open_, ev evGlb 0 (nx (.colGo 1) (streaming reducing run)), !(run.stream 1023).open_, ((nx (.colGo 1023) run).stream 1023).st = .fetch,
      ((nx (.colGo 1023) run).ip ((hipPorts run).headD 0)).wait.map (·.bytes) = [64], (abort.stream 1).st = .failed, (abort.stream 1).code = 9,
      abort.tx.waiting.map (·.dst) = [7], (nx (.colAbort 1) run).col = run.col, (waiting.stream 1).reserved = none,
      colReserved waiting + reducing.d.demand ≤ (wbUnits waiting).length * wbScratch,
      ((nx (.scratchReserved 1) waiting).stream 1).runTick = some (run.tick + 1), ((nx (.scratchReserved 1) timed).stream 1).runTick = some (run.tick + 5),
      (wbUnits huge).length * wbScratch < colReserved huge + (huge.stream 1).d.demand, ((nx (.colStartTick 1) due).stream 1).st = .run] = true := by
  decide +kernel

theorem test_CollectiveControl_descriptor :
    let s := streaming { st := .fetch, jobs := [{ n := 4, job := .desc, bytes := 64 }] }
      { run with banks := { run.banks with grpAct := [(3, 0x08008000)], memAct := [(1, 7)] } }
    let answered (r : Nat) (bs : List Byte) (s : State) := updT (fun x => { x with done := [{ client := .stream 1 4, resp := r, data := bs }] }) s
    let go (r : Nat) (bs : List Byte) (s : State) := (nx (.colDescriptorRx ⟨1, false⟩) (answered r bs s)).stream 1
    all [(s.stream 1).jobs.any (fun w => w.n == 4 && decide (w.job = .desc)), (s.stream 1).st = .fetch, (go 3 [] s).code = 4, (go 3 [] s).st = .failed,
      badColDesc (List.replicate 64 255), (go 0 (List.replicate 64 255) s).code = 3, !badColDesc (nats descBytes), !cidTaken 1 9 s,
      groupMembers 3 { s with banks := run.banks } = none, (go 0 descBytes { s with banks := run.banks }).code = 5,
      groupMembers 3 s = some [0, 7], !hasTwice [0, 7], (go 0 descBytes s).st = .wait, (go 0 descBytes s).members = [0, 7],
      (go 0 descBytes s).index = 0] = true := by decide +kernel

/-- A REDUCE of die 7 in the Cupboard of port 7: its reduce slot, and the data slots behind it. -/
def reduced (x : Slot) (data : List Slot) (s : State) : State :=
  updRx 7 (fun r => { r with cup := [{ id := 0, need := 2 + data.length
                                       slots := PktHdr.slot { opc := opReduce, len := 1 + data.length, src := 7, dst := 0, cls := 2, sync := true, txid := 4 } :: x :: data }] }) s

/-- The reduce slots of CID 9: a FOLD and a FOLD2, a PLACE of eight bytes, READY, RESTART and ABORT. -/
def fold1 : Slot := slotOf [(0, 32, 9), (80, 13, 1), (93, 13, 2), (114, 13, 8)]
def place (off : Nat) : Slot := slotOf [(0, 32, 9), (32, 48, off), (106, 3, 2), (114, 13, 8)]
def readySlot : Slot := slotOf [(0, 32, 9), (32, 32, 3), (106, 3, 3)]
def restart : Slot := slotOf [(0, 32, 9), (106, 3, 4), (109, 4, 1)]
def abortSlot : Slot := slotOf [(0, 32, 9), (32, 4, 9), (106, 3, 5)]

theorem test_ReducePackets_damage :
    let held (i : Instr) (x : Slot) (n : Nat) := (nx i (reduced x (List.replicate n 0) run)).flt.held.map (·.code)
    all [held (.reduceFoldRx 7 true) fold1 1 = [0x0501], held (.reducePlaceRx 7 true) (place 0) 1 = [0x0501], held (.reduceReadyRx 7 true) readySlot 0 = [0x0501],
      held (.reduceRestartRx 7 true) restart 0 = [0x0501], held (.reduceAbortRx 7 true) abortSlot 0 = [0x0501]] = true := by decide +kernel

theorem test_ReducePackets_no_stream :
    let lost (i : Instr) (x : Slot) (n : Nat) := ev evWb 12 (nx i (reduced x (List.replicate n 0) run))
    let h := PktHdr.ofSlot (((reduced fold1 [0] run).port 7).rx.cup.flatMap (·.slots)).head!
    all [run.bnd.adp ≠ .test, (gate h (reduced fold1 [0] run)).1 = .fresh, streamFor 9 true run = none, lost (.reduceFoldRx 7 false) fold1 1,
      lost (.reducePlaceRx 7 false) (place 0) 1, lost (.reduceReadyRx 7 false) readySlot 0, lost (.reduceRestartRx 7 false) restart 0,
      lost (.reduceAbortRx 7 false) abortSlot 0] = true := by decide +kernel

theorem test_ReducePackets_stream :
    let s := streaming reducing run
    let moving := streaming { reducing with d := { reducing.d with kind := 2 } } run
    let outside := streaming { reducing with members := [0, 5] } run
    let go (i : Instr) (x : Slot) (n : Nat) (s : State) := nx i (reduced x (List.replicate n 0) s)
    all [streamFor 9 false s = some 1, getF (go (.reduceFoldRx 7 false) fold1 1 moving) (glbTxCnt 2) 16 16 = 1,
      0 < reducing.d.chunks reducing.d.nelem, 0 < reducing.d.segsOf 2 0, (reducing.plan 0).2.find? (fun f => f.level == 0) = some ⟨0, 2, some 0⟩,
      redBytes fold1 = reducing.d.size 0 (reducing.d.segLen 2 0 0), sf fold1 93 13 = 2, sf fold1 80 13 = 1,
      (reducing.sender 0 0 1).map (fun m => reducing.members.getD m 0) = some 7, ((go (.reduceFoldRx 7 false) fold1 1 s).stream 1).early.map (·.idx) = [1],
      reducing.region false = 8, getF (go (.reducePlaceRx 7 false) (place 1) 1 s) (glbTxCnt 2) 16 16 = 1, reducing.members.contains 7,
      ((go (.reducePlaceRx 7 false) (place 0) 1 s).ip (colPort 0 s)).wait.map (·.addr) = [0x1000], !(outside.stream 1).members.contains 7,
      getF (go (.reduceReadyRx 7 false) readySlot 0 outside) (glbTxCnt 4) 16 16 = 1,
      ((go (.reduceReadyRx 7 false) readySlot 0 s).stream 1).readyIn = 3, (reduceAt 7 (fun k => k == 4) (reduced restart [] s)).isSome,
      ((go (.reduceAbortRx 7 false) abortSlot 0 s).stream 1).st = .failed, ((go (.reduceAbortRx 7 false) abortSlot 0 s).stream 1).code = 9] = true := by
  decide +kernel

/-! ### DMA -/

/-- A descriptor image: word 0, source, destination, endpoints, length, and the last word. -/
def image (w0 src dst w3 len next : Nat) : List Nat :=
  [w0, src, dst, w3, len, 0, 0, next].flatMap (leBytes 8)

/-- A plain copy of 256 bytes from 0 to 0x1000, owned. -/
def copy : List Nat := image 1 0 0x1000 0 256 0

/-- Channel 5 as given, its shadow registers holding the copy, in a mode (bit 0 RING, bit 3 pace). -/
def chan5 (cfg : Nat) (x : Chan) : State :=
  updChan 5 (fun _ => x) { run with regs := tset regReset (tset regReset (tset regReset [] (chCfg 5) (BitVec.ofNat 32 cfg)) (chShd 5 4) 0x1000) (chShd 5 8) 256 }

/-- The image the shadow registers hold. -/
def shadow (s : State) : List Nat := (List.range 16).flatMap (fun k => leBytes 4 (getReg s (chShd 5 k)).toNat)

theorem test_DmaCommands_refused :
    let range (i : Instr) (s : State) := ev evGlb 0 (nx i s)
    let fault := inState .fault
    all [!(frozen.bnd.mready), nx (.dmaStart 5) frozen = frozen, fault.bnd.mready, !fault.acts, (nx (.dmaStart 5) fault).bnd.mrerr,
      ringMode 5 (chan5 1 {}), !ringMode 5 (chan5 0 {}), range (.dmaStart 5) (chan5 1 { st := .run }), range (.dmaStart 5) (chan5 0 {}),
      range (.dmaLoad 5) (chan5 1 {}), range (.dmaLoad 5) (chan5 0 { shadow := true }), range (.dmaLoad 5) (chan5 0 { st := .ringWait }),
      range (.dmaDoorbell 5) (chan5 0 {}), range (.dmaStop 5) (chan5 0 {}), range (.dmaResume 5) (chan5 0 {}),
      range (.dmaResume 5) (chan5 0 { st := .halted, ovl := true }), range (.dmaSkip 5) (chan5 0 {}),
      range (.dmaSkip 5) (chan5 0 { st := .halted, wbFailed := true }), range (.dmaReset 5) (chan5 0 { st := .run })] = true := by decide +kernel

theorem test_DmaCommands_accepted :
    let st (i : Instr) (s : State) := ((nx i s).chan 5).st
    let two := image 1 0 0x1000 0 0 0
    let short := { chan5 0 {} with regs := (chan5 0 {}).regs.filter (fun e => e.1 != chShd 5 8) }
    all [st (.dmaStart 5) (chan5 1 {}) = .run, ((nx (.dmaStart 5) (chan5 1 {})).chan 5).ask, st (.dmaStart 5) (chan5 0 { st := .stopped }) = .idle,
      badHead (shadow (chan5 0 {})) (paceEn 5 (chan5 0 {})) = false, st (.dmaLoad 5) (chan5 0 {}) = .run,
      ((nx (.dmaLoad 5) (chan5 0 {})).chan 5).piece.map (·.len) = some 256, st (.dmaStart 5) (chan5 0 { st := .stopped, shadow := true }) = .run,
      badHead two false, badHead (shadow short) (paceEn 5 short), st (.dmaLoad 5) short = .halting, ((nx (.dmaLoad 5) short).chan 5).fail.map (·.code) = some 1] = true := by decide +kernel

theorem test_DmaCommands_running :
    let st (i : Instr) (s : State) := ((nx i s).chan 5).st
    let failed : Chan := { st := .halted, cur := copy, fail := some { code := 0x12, dir := 0, addr := 0 } }
    all [((nx (.dmaLoad 5) (chan5 0 { st := .run })).chan 5).shadow, ((nx (.dmaDoorbell 5) (chan5 1 { st := .run, busy := true })).chan 5).askPre,
      ((nx (.dmaDoorbell 5) (chan5 1 { st := .ringWait })).chan 5).ask, (nx (.dmaDoorbell 5) (chan5 1 {})).chan 5 = {},
      st (.dmaStop 5) (chan5 0 { st := .run, busy := true }) = .stopping, st (.dmaStop 5) (chan5 0 { st := .run }) = .stopped,
      ev (evDmaCh 5) 3 (nx (.dmaStop 5) (chan5 0 { st := .run })), st (.dmaStop 5) (chan5 1 { st := .ringWait }) = .stopped,
      ((nx (.dmaStop 5) (chan5 0 failed)).chan 5).stopPend, ((nx (.dmaResume 5) (chan5 1 { failed with wbFailed := true })).chan 5).askWb,
      badHead copy false = false, st (.dmaResume 5) (chan5 0 { failed with taken := 3, credit := 2 }) = .run,
      ((nx (.dmaResume 5) (chan5 0 { failed with taken := 3, credit := 2 })).chan 5).credit = 5,
      ((nx (.dmaSkip 5) (chan5 1 failed)).chan 5).askWb, getF (nx (.dmaSkip 5) (chan5 0 failed)) (chSts 5) 16 9 = 0x112,
      st (.dmaSkip 5) (chan5 0 { failed with stopPend := true }) = .stopped, st (.dmaReset 5) (chan5 0 failed) = .idle,
      paceEn 5 (chan5 8 {}), edges 5 (chan5 8 {}) < 65535, getF (nx (.dmaSwedge 5) (chan5 8 {})) (chEdges 5) 0 16 = 1,
      ev (evDmaCh 5) 5 (nx (.dmaSwedge 5) (setF (chEdges 5) 0 16 65535 (chan5 8 {}))), (nx (.dmaSwedge 5) (chan5 0 {})).regs = (chan5 0 {}).regs] = true := by
  decide +kernel

/-- Channel 5 with one transaction outstanding, and its answer. -/
def answer (job : DmaJob) (resp : Nat) (data : List Nat) (s : State) : State :=
  updT (fun x => { x with done := [{ client := .chan 5 9, resp := resp, data := bytesOf data }] })
    (updChan 5 (fun x => { x with waits := [{ n := 9, job := job, addr := 0x40, fab := false, die := 0, eng := 0 }] }) s)

theorem test_DmaDescriptors_fetches :
    let fetched (resp : Nat) (d : List Nat) (x : Chan) := nx (.descriptorFetched 5) (answer .head resp d (chan5 1 x))
    let ext (t : Nat) := image (t * 16) 0 0x2000 0 256 0
    let more := image 18 0 0x2000 0 256 0x80
    let extended (resp : Nat) (d : List Nat) := nx (.extensionFetched 5) (answer .ext resp d (chan5 1 { st := .run, busy := true, cur := copy, hops := 7 }))
    all [(takeAnswer 5 (fun j => decide (j = .head) || decide (j = .prefetch)) (answer .head 0 copy (chan5 1 {}))).isSome,
      ((fetched 0 copy { st := .stopping }).chan 5).st = .stopped, ev (evDmaCh 5) 3 (fetched 0 copy { st := .stopping }),
      ((fetched 7 [] { st := .run }).chan 5).fail.map (·.code) = some 0x10, ((fetched 3 [] { st := .ringWait }).chan 5).fail.map (·.code) = some 0x11,
      hOwn copy, badHead copy false = false, ((fetched 0 copy { st := .run }).chan 5).busy, ((fetched 0 copy { st := .run }).chan 5).cur = copy,
      !hOwn (image 0 0 0 0 4 0), ((fetched 0 (image 0 0 0 0 4 0) { st := .run }).chan 5).st = .ringWait, ev (evDmaCh 5) 4 (fetched 0 (image 0 0 0 0 4 0) { st := .run }),
      ((nx (.descriptorFetched 5) (answer .prefetch 0 copy (chan5 1 { st := .run }))).chan 5).pre = some copy,
      badExt (ext 3), ((extended 0 (ext 3)).chan 5).fail.map (·.code) = some 1, ((extended 7 []).chan 5).fail.map (·.code) = some 0x10,
      !badExt (ext 1), dw (ext 1) 0 4 4 = 1, !hExt (ext 1), ((extended 0 (ext 1)).chan 5).st = .run, !badExt more, hExt more,
      0 < effF run dmaCtl 0 11, ((extended 0 more).chan 5).loop.isSome ∨ 8 < effF run dmaCtl 0 11] = true := by decide +kernel

theorem test_DmaDescriptors_ends :
    let done (resp : Nat) (x : Chan) := nx (.writeBackAnswer 5) (answer .writeBack resp [] (setF (chRing 5) 0 5 3 (chan5 1 x)))
    let table (es : List Nat) (imax : Nat) : Chan :=
      { st := .run, busy := true, cur := image (1 + 3 * 256) 0 0x1000 0 256 0, moving := true, tab := [(0, es)]
        piece := some { hop := 0, at_ := 0, sAddr := 0, dAddr := 0x1000, sDie := 0, dDie := 0, sFab := false, dFab := false, ip := 0, len := 256
                        p := [0x8000, 128 + 7 * 2 ^ 17 + imax * 2 ^ 32] } }
    let pass (es : List Nat) (imax : Nat) := (nx (.indexCheckPass 5) (chan5 0 (table es imax))).chan 5
    let halting : Chan := { st := .halting, fail := some { code := 4, dir := 3, addr := 0 } }
    all [((done 3 { st := .run, askWb := true }).chan 5).wbFailed, headIdx 5 (done 0 { st := .run }) = 1, ((done 0 { st := .run }).chan 5).ask,
      ((done 0 { st := .run, pre := some copy }).chan 5).cur = copy, ((done 0 { st := .stopping }).chan 5).st = .stopped,
      ev (evDmaCh 5) 0 (done 0 { st := .run, cur := image 5 0 0 0 4 0 }), (table [2, 7] 8).piece.map (·.nidx) = some 2,
      (pass [2, 8] 8).fail.map (·.code) = some 4, (pass [2, 8] 8).fail.map (·.addr) = some 0x8004, (pass [2, 7] 8).tabOk, (pass [2, nullIdx] 8).tabOk,
      ((nx (.halt 5) (chan5 0 halting)).chan 5).st = .halted, ev (evDmaCh 5) 1 (nx (.halt 5) (chan5 0 halting)),
      (nx (.halt 5) (answer .ext 0 [] (chan5 0 halting))).chan 5 = (answer .ext 0 [] (chan5 0 halting)).chan 5, (run.chan 5).st ≠ .halting,
      getF run (chStall 5) 0 16 ≤ 65535, ((nx (.dmaStall 5) (chan5 0 { st := .run, busy := true, stall := 65535 })).chan 5).stalled,
      !ev (evDmaCh 5) 2 (nx (.dmaStall 5) (chan5 0 { st := .run, busy := true, stall := 65535, stalled := true }))] = true := by decide +kernel

theorem test_DmaTransfers :
    let k : Piece := pieceOf 0 0 copy
    let moving : Chan := { st := .run, busy := true, cur := copy, piece := some k, moving := true, fence := some false }
    let asks := chan5 1 { st := .run, ask := true }
    let writes := chan5 0 { moving with rpos := 256, src := [(0, List.replicate 256 7)] }
    let go (i : Nat) (resp : Nat) (job : DmaJob) := (nx (.dmaTransactionAnswer 5) (answer job resp (List.replicate 256 i) (chan5 0 moving)))
    let paced : Chan := { moving with cur := image 17 0 0x1000 0 256 0 }
    let burst (x : Chan) (n : Nat) := nx (.burstStart 5) (setF (chEdges 5) 0 16 n (chan5 8 x))
    let re : Fin 16 := Fin.ofNat 16 (readEng 5 run)
    let we : Fin 16 := Fin.ofNat 16 (writeEng 5 run)
    all [run.bnd.portsLow = false, grantee re run = none, (grantee re (chansGo re asks)).map (·.1) = some 5, engInSvc re (chansGo re asks), engOut re (chansGo re asks) < 512,
      ((nx (.dmaEngineGrant re false) asks).chan 5).waits.map (·.job) = [.head], (grantee we (chansGo we writes)).map (·.2.job) = some (.write 0 256),
      ((nx (.dmaEngineGrant we false) writes).chan 5).waits.map (·.job) = [.write 0 256], ((nx (.dmaEngineGrant we true) writes).chan 5).fail.map (·.code) = some 0x13,
      ((go 7 0 (.index 0)).chan 5).tab.map (·.2.length) = [64], ((go 7 0 (.read 0 256)).chan 5).src.map (·.1) = [0],
      ((go 7 0 (.write 0 256)).chan 5).wdone = 256, ((go 7 3 (.read 0 256)).chan 5).fail.map (·.code) = some 0x13,
      ((go 7 7 (.write 0 256)).chan 5).fail.map (·.code) = some 0x12, ((go 7 6 (.index 0)).chan 5).fail.map (·.code) = some 0x15,
      ((go 7 8 (.read 0 256)).chan 5).fail.map (·.code) = some 0x14, hPaced paced.cur, ((burst { paced with credit := 2 } 0).chan 5).credit = 1,
      edges 5 (burst paced 1) = 0, ((burst paced 1).chan 5).taken = 1, ((burst paced 0).chan 5).taken = 0,
      (nx (.dmaEngineLost 15) run).leaving = [(unitDmaEng 15, run.tick + 1)]] = true := by decide +kernel

/-! ### Failover and the fault log -/

/-- Quad 0 with its shadow attached to port 0. -/
def shadowed (d : Nat) : State := updQuad 0 (fun x => { x with attached := some (0, d) }) link

theorem test_EngineHandOvers_shadow :
    let rot := shadowed (link.tick - 2 ^ 16)
    let mism (e f : Bool) := ((nx (.engMismatch 0 e f) (shadowed 0)).quad 0).hand
    let e0 : EngineId := Fin.ofNat 17 (engOf 0 link)
    all [link.cyc ≤ 3, (link.quad 0).attached = none, (link.quad 0).reset = none, shadowFree 0 link, shadowable 0 link,
      ((nx (.shadowAttach 0) link).quad 0).attached = some (0, link.tick), (List.range 16).all (fun i => !shadowable (16 + i) link),
      (nx (.shadowAttach 1) link).quads = link.quads, (rot.quad 0).dwell = 16, effF rot (qdShdCtl 0) 0 1 = 1, engOf 0 (nx (.shadowRotation 0) rot) = seng 0 link,
      seng 0 (nx (.shadowRotation 0) rot) = 31, (mism true false).map (·.eng) = [seng 0 link], (mism false true).map (·.eng) = [engOf 0 link],
      (mism false false).map (·.reset) = [true], (mism true true).map (·.eng) = [31], engIn 0 e0 (shadowed 0),
      ((nx (.engSelfcheck 0 e0 false false) (shadowed 0)).quad 0).hand = mism true false] = true := by decide +kernel

theorem test_EngineHandOvers_alone :
    let e0 : EngineId := Fin.ofNat 17 (engOf 0 link)
    let sh : EngineId := Fin.ofNat 17 (seng 0 link)
    let hand (p e : Nat) : HandOver := { port := p, since := link.cts, eng := e, eff := link.tick, reset := true, change := true }
    let taken := updQuad 0 (fun x => { x with hand := [{ hand 9 sh.val with eff := link.tick + 1 }] }) link
    let none_ := setF (qdShdSts 0) 0 5 31 link
    let due (h : HandOver) (s : State) := nx (.handoverEffective 0) (updQuad 0 (fun x => { x with hand := [h] }) s)
    all [engIn 0 sh link, seng 0 (nx (.engSelfcheck 0 sh false false) link) = 31, ev (evQd 0) 11 (nx (.engSelfcheck 0 sh false false) link),
      servedBy 0 e0 link = some 0, shadowFree 0 link, ((nx (.engSelfcheck 0 e0 false false) link).quad 0).hand.map (·.eng) = [sh.val],
      !shadowFree 0 taken, displaced 0 0 taken = some { hand 9 sh.val with eff := link.tick + 1 },
      ((nx (.engSelfcheck 0 e0 false false) taken).quad 0).hand.map (·.port) = [0], !shadowFree 0 none_, displaced 0 0 none_ = none,
      ((nx (.engSelfcheck 0 e0 false false) none_).port 0).rt.lossDue = some .engine, !engIn 0 e0 (retireEng 0 e0 link),
      (nx (.handoverEffective 0) taken).quad 0 = taken.quad 0, engOf 0 (due (hand 0 sh.val) link) = sh.val, seng 0 (due (hand 0 sh.val) link) = 31,
      ((due (hand 0 sh.val) link).port 0).ln.resetDue.isSome, engOf 0 (due (hand 0 31) link) = 31,
      ((due (hand 0 sh.val) (powered .p2)).port 0).pw.wake.isSome, ((due (hand 0 sh.val) (training .level)).port 0).ln.training.isSome] = true := by
  decide +kernel

theorem test_UnitFailures :
    let arb := updQuad 0 (fun x => { x with reset := some (link.tick - 64) }) link
    let one := { link with lect := { link.lect with mode := .aOnly } }
    let two := { link with lect := { link.lect with mode := .bOnly } }
    let later := { link with lect := { link.lect with ended := some (link.tick - 1601), lockstep := true } }
    let r (c : Nat) : FaultRec := { cts := c, unit := 3 }
    let held (c : Nat) (l : FaultLog) := { link with flt := { l with held := [r c] } }
    let full : FaultLog := { count := 1024 }
    all [(link.quad 0).reset = none, ((nx (.arbSelfcheck 0) link).quad 0).reset = some link.tick,
      ((nx (.arbSelfcheck 0) link).port 0).ln.resetDue.isSome, ((nx (.quadResetComplete 0) arb).quad 0).reset = none,
      ((nx (.quadResetTimeout 0) arb).port 15).rt.lossDue = some .engine, getF link wbSts 7 1 = 1,
      (nx (.wbSelfcheck 7) link).leaving = [(unitWb 7, link.tick + 1)], (nx (.centralSelfcheck .keyStore) link).bnd.adp = .fault,
      link.tst.run = none, (nx .testControllerSelfcheck link).tst.broken, !link.lect.dead, link.lect.ended = none,
      (nx (.lecternMismatch true false) link).lect.mode = .bOnly, (nx (.lecternMismatch false true) link).lect.mode = .aOnly,
      (nx (.lecternMismatch true true) link).lect.mode = .pair, (nx (.lecternMismatch false false) link).lect.mode = .pair,
      (nx (.lecternMismatch false false) later).lect.mode = .pair, (nx (.lecternMismatch true false) one).bnd.adp = .fault,
      (nx (.lecternMismatch false true) two).lect.dead, nx (.lecternMismatch false true) one = one,
      nx (.lecternMismatch true false) two = two, (nx .lecternRestartDone (nx (.lecternMismatch true true) link)).lect.recovery,
      (nx (.lecternMismatch true true) link).lect.restart.isSome, (nx .faultLogEntry (held (link.cts - 16) {})).flt.count = 1,
      (nx .faultLogEntry (held (link.cts - 15) {})).flt.count = 0, ev evTb 10 (nx .faultLogEntry (held 0 full)),
      getF link fltCtl 0 1 = 0, getF (setF fltCtl 0 1 1 link) fltCtl 0 1 = 1,
      getF (nx .faultLogEntry (held 0 full)) fltLost 0 32 = 1] = true := by decide +kernel

/-! ### Protection -/

/-- RUN with the protection lock held by the host, and PSTATE and a change as given. -/
def locked (ps : Nat) (c : Option ArmedChange) : State :=
  setF proSts 0 2 ps (setF proSts 5 1 1 { run with prot := { change := c, lockTick := run.tick } })

theorem test_ProtectionChange_host :
    let armed : ArmedChange := { fm := true, dig := 0, nonce := 0, tick := run.tick }
    let old := locked 2 (some { armed with tick := run.tick - 65536 })
    let raised (i : Instr) (s : State) := ev evPro 6 (nx i s)
    all [raised (.proLockRel true) run, raised (.proStgWrite false 1) (locked 0 none), raised (.proLockAcq false) run, raised (.proKeyStgWrite true 7 1) (locked 2 none),
      raised (.proCmdArm true) run, raised (.proCmdCommit false) (locked 2 (some armed)), raised (.proCmdAbort true) run, !lockHeld run,
      lockHeld (nx (.proLockAcq true) run), !lockHeld (nx (.proLockRel true) (locked 0 none)), pstate (locked 0 none) = 0,
      tget word0 (nx (.proStgWrite true 5) (locked 0 none)).prot.stg 0 = 5, (nx (.proKeyStgWrite true 7 0x04030201) (locked 0 none)).prot.stgKey.map (·.drop 28) = some [1, 2, 3, 4],
      !armExpired (locked 0 none), getF (nx (.proCmdArm true) (locked 1 none)) proSts 8 4 = 5, pstate (nx (.proCmdArm true) (locked 0 none)) = 1,
      getF (nx (.proCmdCommit true) (locked 0 none)) proSts 8 4 = 0xA, getF (nx (.proCmdCommit true) (locked 1 (some armed))) proSts 8 4 = 5,
      getF (nx (.proCmdCommit true) (locked 2 (some { armed with fm := false }))) proSts 8 4 = 3, argDig (locked 2 none) = 0, argNonce (locked 2 none) = 0,
      pstate (nx (.proCmdCommit true) (locked 2 (some armed))) = 3, (nx (.proCmdCommit true) (locked 2 (some armed))).prot.applyAt = some (run.tick + 1),
      (nx (.proCmdAbort true) (locked 2 (some armed))).prot.change = none, ev evPro 2 (nx (.proCmdAbort true) (locked 2 (some armed))),
      getF (nx (.proCmdAbort true) (locked 3 (some armed))) proSts 8 4 = 0xA, armExpired old, ev evPro 3 (nx .armExpiry old), (nx .armExpiry old).prot.change = none,
      lockHeld { locked 0 none with cts := run.cts + 65536 * 1024 }, !lockHeld (nx .proLockTimeout { locked 0 none with cts := run.cts + 65536 * 1024 }),
      lockHeld (nx .proLockTimeout { locked 0 none with cts := run.cts + 65535 * 1024 })] = true := by decide +kernel

theorem test_ProtectionChange_image :
    let c : ArmedChange := { fm := false, dig := 1, nonce := 0, tick := run.tick }
    let damaged := nx (.armCheckDone true) (locked 1 (some c))
    all [imageOk [] 0, pstate (locked 1 (some c)) = 1, pstate damaged = 0, getF damaged proSts 8 4 = 9] = true := by decide +kernel

theorem test_ProtectionChange_applied :
    let c : ArmedChange := { fm := true, dig := 77, nonce := 0, tick := run.tick }
    let s := { locked 3 (some c) with prot := { (locked 3 (some c)).prot with applyAt := some run.tick, stg := [(4, 0x1029)] } }
    let early := { s with prot := { s.prot with applyAt := some (run.tick + 1) } }
    all [(nx .protApply s).prot.img = [(4, 0x1029)], ev evPro 1 (nx .protApply s),
      (nx .protApply early).prot.img = []] = true := by decide +kernel

/-! ### Plovirko -/

/-- A request without a tag: its opcode, unit and payload. -/
def ask (opc unit : Nat) (pay : List Nat) : List Nat :=
  leBytes 32 (1 + opc * 2 ^ 16 + pay.length * 2 ^ 48 + unit * 2 ^ 64) ++ pay

/-- The test port's request waits in an adapter. -/
def tap (bytes : List Nat) (s : State) : State := updPlv (fun x => { x with tapReq := some bytes }) s

/-- The status of the test port's reply to a request. -/
def status (i : Instr) (s : State) : Nat := plvF (nx i s).plv.tapRsp 80 16

/-- A fragment of a packet to this die: index, LAST, words, hops. -/
def fragment (idx last bits hops : Nat) : Slot :=
  slotOf [(0, 8, 0x40), (8, 7, idx), (15, 1, last), (16, 8, 9), (24, 18, 0), (42, 18, 7), (60, 2, hops), (64, 64, bits)]

theorem test_PlovirkoTransport_local :
    let r := ask 0x0100 0 []
    let wrong := ask 0xFFFF 0 []
    let t := nx (.plvReqUpdate [1, 2]) run
    all [run.alive, run.plv.tapReq = none, t.plv.tapReq.map (·.length) = some 528, t.plv.tapReq.map (·.take 3) = some [1, 2, 0],
      nx (.plvReqUpdate [5]) t = t, (nx .plvRspCapture { run with plv := { tapRsp := [7, 1] } }).tst.dr = 263, (nextReq (tap r run)).isSome, unknownOpcode r = false,
      nx .unknownOpcodeRequest (tap r run) = tap r run, unknownOpcode wrong, status .unknownOpcodeRequest (tap wrong run) = 6, nextReq run = none,
      (answerPlv ⟨.mailbox, r⟩ 0 [1] run).evts ≠ run.evts, getF (answerPlv ⟨.mailbox, r⟩ 3 [1] run) mgtMbxSts 0 2 = 3,
      (answerPlv ⟨.remote 7 9, r⟩ 0 [] run).plv.kept.map (·.src) = [7]] = true := by decide +kernel

theorem test_PlovirkoTransport_fragments :
    let at_ (x : Slot) (s : State) := updRx 7 (fun y => { y with hat := [x] }) s
    let ctx (next : Nat) (b : List Nat) (s : State) := updPlv (fun y => { y with ctxs := [{ src := 7, pktid := 9, next := next, bytes := b, tick := run.tick }] }) s
    let take (x : Slot) (s : State) := nx (.fragmentRx 7 false) (at_ x s)
    let most := updPlv (fun y => { y with ctxs := List.replicate 8 { src := 8, pktid := 9, next := 0, bytes := [], tick := run.tick } }) run
    let old := { ctx 1 [] run with cts := run.cts + 256 * 1024 }
    let sent := updPlv (fun y => { y with sent := [(7, fragment 0 0 1 0, run.tick - 64)] }) (updTx 7 (fun y => { y with hatPlv := [fragment 0 0 1 0] }) (updPort 7 (fun y => { y with cr := { y.cr with hsentPlv := y.cr.peerFreePlv + 16 } }) run))
    let r := ask 0x0100 0 []
    all [((run.port 7).rx.hat.find? isFragment) = none, ((at_ (fragment 0 0 1 2) run).port 7).rx.hat.find? isFragment = some (fragment 0 0 1 2),
      ev evMgt 5 (take (fragment 0 0 1 2) run), plvCtx 7 9 (take (fragment 1 0 5 0) (ctx 1 [1] run)) = some { src := 7, pktid := 9, next := 2, bytes := 1 :: leBytes 8 5, tick := run.tick },
      plvCtx 7 9 (take (fragment 3 0 5 0) (ctx 1 [1] run)) = none, ev evMgt 5 (take (fragment 1 1 5 0) (ctx 1 (r.take 8) run)),
      (plvSize (r.take 24 ++ leBytes 8 0) + 7) / 8 = 4, (take (fragment 3 1 0 0) (ctx 3 (r.take 24) run)).plv.queue = [⟨.remote 7 9, r⟩],
      (plvCtx 7 9 (take (fragment 0 0 1 0) run)).map (·.next) = some 1, ev evMgt 5 (take (fragment 1 0 1 0) run), most.plv.ctxs.length = 8,
      (plvCtx 7 9 old).isSome, ev evMgt 5 (nx (.reassemblyTimeout 7 9) old), plvCtx 7 9 (nx (.reassemblyTimeout 7 9) old) = none,
      (plvCtx 7 9 (nx (.reassemblyTimeout 7 9) { old with cts := old.cts - 1 })).isSome, (stamps 7 sent).map (·.1) = [7], plvRoom (sent.port 7).cr = 0,
      ((nx (.fragmentCreditTimeout 7) sent).port 7).tx.hatPlv = [], ev evMgt 5 (nx (.fragmentCreditTimeout 7) sent)] = true := by decide +kernel

theorem test_PlovirkoChecks :
    let long := ask 0x0100 0 [0, 0, 0, 0]
    let remote := updPlv (fun x => { x with queue := [⟨.remote 7 9, ask 0x0103 0 [1, 0, 0, 0]⟩] }) (inState .boot)
    all [nx .stateGet (tap (ask 0x0100 0 []) run) = tap (ask 0x0100 0 []) run, (opRow 0x0100).isSome, lengthOk (.fixed 0) long = false,
      status .ident (tap long run) = 0xB, status .dieidSet (tap (ask 0x0103 0 [1, 0, 0, 0]) run) = 2, status .portStatus (tap (ask 0x0200 0x240 []) run) = 3,
      (opRow 0x0103).map (fun o => tagOk o ⟨.remote 7 9, ask 0x0103 0 [1, 0, 0, 0]⟩ remote) = some false, ev evPro 5 (nx .dieidSet remote),
      (nx .dieidSet remote).plv.kept.map (fun k => plvF k.reply 80 16) = [4]] = true := by decide +kernel

theorem test_PlovirkoReads :
    let go (i : Instr) (opc unit : Nat) (pay : List Nat) (s : State) := status i (tap (ask opc unit pay) s)
    let got (i : Instr) (opc unit : Nat) (pay : List Nat) (s : State) := ((nx i (tap (ask opc unit pay) s)).plv.tapRsp).drop 32
    let log := { run with flt := { ring := [(5, some { cts := 1 })], count := 1 } }
    all [go .portStatus 0x0200 0x200 [] run = 0, go .laneStatus 0x0205 319 [] run = 0, go .ident 0x0100 0 [] run = 0, (got .stateGet 0x0101 0 [] run).take 1 = [4],
      payNum (got .stateGet 0x0101 0 [] run) 8 8 = run.cts, go .bistStatus 0x0501 0 [] run = 0, go .calStatus 0x0602 0 [] run = 0, payNum (got .epochStatus 0x0800 0 [] run) 40 1 = 0,
      go .calRead 0x0301 0x200 [0, 0, 112, 0, 1, 0, 0, 0] run = 0, go .calRead 0x0301 0x200 [0, 0, 113, 0, 1, 0, 0, 0] run = 3, go .flowRead 0x0303 0 [0, 0, 1, 0, 2, 0, 0, 0] run = 3,
      go .groupRead 0x0305 0 [0, 0, 1, 0, 0, 0, 0, 0] run = 0, go .memberRead 0x0307 0 [0, 0, 1, 0, 0, 0, 0, 1] run = 3, go .repairRead 0x0505 0 [0, 0, 29, 0, 0, 0, 0, 0] run = 0,
      go .repairRead 0x0505 0 [0, 0, 30, 0, 0, 0, 0, 0] run = 3, go (.logRead none) 0x0700 0 [5, 0, 14, 0] log = 0, go (.logRead none) 0x0700 0 [5, 0, 15, 0] log = 3,
      go (.logRead (some 5)) 0x0700 0 [5, 0, 1, 0] log = 9, go .regRead 0x0702 0 [0x10, 0, 0, 0, 1, 0, 0, 0] run = 0, go .regRead 0x0702 0 [0x11, 0, 0, 0, 1, 0, 0, 0] run = 3] = true := by
  decide +kernel

theorem test_PlovirkoOrders_state :
    let go (i : Instr) (opc unit : Nat) (pay : List Nat) (s : State) := status i (tap (ask opc unit pay) s)
    let boot := inState .boot
    let testing := { inState .test with tst := { run := some { job := { why := .run, unit := 0x880, budget := 9 }, began := 0 } }, bnd := { up .test with prev := .ready } }
    all [go .stateSet 0x0102 0 [15, 0, 0, 0] run = 3, go .stateSet 0x0102 0 [4, 0, 0, 0] run = 0, go .stateSet 0x0102 0 [1, 0, 0, 0] run = 2,
      go .stateSet 0x0102 0 [5, 0, 0, 0] run = 0, (nx .stateSet (tap (ask 0x0102 0 [5, 0, 0, 0]) run)).bnd.nextState = some .quiesce,
      go .stateSet 0x0102 0 [3, 0, 0, 0] testing = 5, go .dieidSet 0x0103 0 [5, 0, 0, 0] boot = 0,
      boot.bumps = [], !boot.bnd.rwlLocked, fieldRange ((regFields glbDieid).getD []) 5 = false, go .portMaskSet 0x0104 0 [1, 0, 0, 0, 2, 0, 0, 0] boot = 0,
      getF (nx .portMaskSet (tap (ask 0x0104 0 [1, 0, 0, 0, 2, 0, 0, 0]) boot)) (mgtPortMask 1) 0 32 = 2] = true := by decide +kernel

theorem test_PlovirkoOrders_ports :
    let go (i : Instr) (opc unit : Nat) (pay : List Nat) (s : State) := status i (tap (ask opc unit pay) s)
    let lost := updPort 0 (fun x => { x with rt := { lost := true, rstate := .relay } }) link
    let failed := setRole 3 .failed link
    let out := setF wbSts 7 1 0 link
    let broken := { link with tst := { broken := true } }
    let asked := { link with tst := { request := some { why := .run, unit := 0x880, budget := 9 } } }
    all [go .portTrain 0x0201 0x200 [2, 0, 0, 0] link = 3, go .portTrain 0x0201 0x201 [0, 0, 0, 0] link = 9, canTrain 0 link, go .portTrain 0x0201 0x200 [1, 0, 0, 0] link = 1,
      go .portTrain 0x0201 0x200 [0, 0, 0, 0] link = 1, go .portWidth 0x0202 0x200 [5, 0, 0, 0] link = 3, go .portWidth 0x0202 0x200 [4, 0, 0, 0] link = 0,
      go .portLose 0x0203 0x200 [] lost = 9, go .portLose 0x0203 0x200 [] link = 0, ((nx .portLose (tap (ask 0x0203 0x200 []) link)).port 0).rt.lossDue = some .order,
      go .portReturn 0x0204 0x200 [] link = 9, go .portReturn 0x0204 0x200 [] lost = 0, go .laneReturn 0x0206 3 [] link = 9, go .laneReturn 0x0206 3 [] failed = 0,
      go .engineReturn 0x0207 0x300 [0, 0, 0, 0] link = 3, go .engineReturn 0x0207 0x300 [0, 4, 0, 0] link = 9, go .unitReturn 0x0208 0x407 [1, 0, 0, 0] out = 1,
      go .unitReturn 0x0208 0x407 [1, 0, 0, 0] asked = 5, go .unitReturn 0x0208 0x407 [1, 0, 0, 0] broken = 9] = true := by decide +kernel

theorem test_PlovirkoOrders_staging :
    let go (i : Instr) (opc unit : Nat) (pay : List Nat) (s : State) := status i (tap (ask opc unit pay) s)
    let pend := { link with banks := { pend := some { tick := 0, epoch := 0, digest := 0 } } }
    all [go .calWrite 0x0300 0x200 ([0, 1, 1, 0, 0, 0, 0, 0] ++ leBytes 4 0) link = 3, go .calWrite 0x0300 0x200 ([255, 0, 1, 0, 0, 0, 0, 0] ++ leBytes 4 0x80000FFF) link = 0,
      entryOf (.cal 0) false 255 (nx .calWrite (tap (ask 0x0300 0x200 ([255, 0, 1, 0, 0, 0, 0, 0] ++ leBytes 4 0x80000FFF)) link)) = 0x80000FFF,
      go .calWrite 0x0300 0x200 ([0, 0, 1, 0, 0, 0, 0, 0] ++ leBytes 4 0x80000000) link = 3, go .flowWrite 0x0302 0 ([255, 15, 1, 0, 0, 0, 0, 0] ++ leBytes 4 0) link = 0,
      go .groupWrite 0x0304 0 ([255, 0, 1, 0, 0, 0, 0, 0] ++ leBytes 4 0) link = 3, go .groupWrite 0x0304 0 ([255, 0, 1, 0, 0, 0, 0, 0] ++ leBytes 4 0x8000) link = 0, go .memberWrite 0x0306 0 ([0, 0, 1, 0, 0, 0, 0, 0] ++ leBytes 4 7) link = 0,
      go .memberWrite 0x0306 0 ([0, 0, 1, 0, 0, 0, 0, 0] ++ leBytes 4 7) pend = 0xC, ev evPwr 0 (nx .memberWrite (tap (ask 0x0306 0 ([0, 0, 1, 0, 0, 0, 0, 0] ++ leBytes 4 7)) pend))] = true := by
  decide +kernel

/-- A request with its tag under the key of 32 zero bytes. -/
def tagged (opc : Nat) (pay : List Nat) : List Nat :=
  let b := leBytes 32 (1 + 2 ^ 8 + opc * 2 ^ 16 + pay.length * 2 ^ 48 + 5 * 2 ^ 128) ++ pay
  b ++ (hmacSha256 (List.replicate 32 0) b).take 16

/-- RUN with that key in force, and PSTATE and a change as given. -/
def keyed (ps : Nat) (c : Option ArmedChange) (s : State) : State :=
  setF proSts 0 2 ps { s with prot := { key := some (List.replicate 32 0), change := c } }

theorem test_PlovirkoOrders_protStage :
    let r := tagged 0x0400 ([4, 0, 1, 0, 0, 0, 0, 0] ++ leBytes 4 0x1029)
    let t := nx .protStage (tap r (keyed 0 none run))
    all [tagRight r (keyed 0 none run), tget word0 t.prot.stg 4 = 0x1029, plvF t.plv.tapRsp 80 16 = 0] = true := by decide +kernel

theorem test_PlovirkoOrders_protArm :
    let r := tagged 0x0401 (leBytes 8 77 ++ leBytes 8 3)
    all [(nx .protArm (tap r (keyed 0 none run))).prot.change = some { fm := true, dig := 77, nonce := 3, tick := run.tick },
      status .protArm (tap r (keyed 1 none run)) = 5] = true := by decide +kernel

theorem test_PlovirkoOrders_protCommit :
    let r := tagged 0x0402 (leBytes 8 77 ++ leBytes 8 3)
    let c : ArmedChange := { fm := false, dig := 77, nonce := 3, tick := run.tick }
    all [status .protCommit (tap r (keyed 0 none run)) = 0xA, status .protCommit (tap r (keyed 1 (some c) run)) = 5,
      status .protCommit (tap r (keyed 2 (some { c with dig := 78 }) run)) = 3, pstate (nx .protCommit (tap r (keyed 2 (some c) run))) = 3] = true := by decide +kernel

theorem test_PlovirkoOrders_protAbort :
    let r := tagged 0x0403 []
    let c : ArmedChange := { fm := false, dig := 77, nonce := 3, tick := run.tick }
    all [status .protAbort (tap r (keyed 0 none run)) = 0xA, pstate (nx .protAbort (tap r (keyed 2 (some c) run))) = 0,
      ev evPro 2 (nx .protAbort (tap r (keyed 2 (some c) run)))] = true := by decide +kernel

/-- A repair record with its CHK. -/
def laneOut : BitVec 128 := sealRec (3 + 2 ^ 4 * 3)
def column : BitVec 128 := sealRec (2 + 2 ^ 30)

theorem test_PlovirkoSettings_tests :
    let go (i : Instr) (opc unit : Nat) (pay : List Nat) (s : State) := status i (tap (ask opc unit pay) s)
    let test := inState .test
    let busy := { test with tst := { request := some { why := .run, unit := 0x880, budget := 9 } } }
    let going := { test with tst := { run := some { job := { why := .run, unit := 0x880, budget := 9 }, began := 0 } } }
    all [go .bistRun 0x0500 0x880 [1, 0, 2, 0] test = 3, go .bistRun 0x0500 0x880 [1, 0, 0, 0] run = 2, go .bistRun 0x0500 0x880 [1, 4, 0, 0] test = 3,
      go .bistRun 0x0500 0x880 [0, 4, 0, 0] test = 1, go .bistRun 0x0500 0x880 [1, 0, 0, 0] busy = 5, go .bistRun 0x0500 0x880 [1, 0, 0, 0] { test with tst := { broken := true } } = 9,
      memoryUnit 0x400, go .bistRun 0x0500 0x400 [1, 0, 1, 0] run = 1, go .bistAbort 0x0502 0 [] run = 0xA, go .bistAbort 0x0502 0 [] going = 0,
      (nx .bistAbort (tap (ask 0x0502 0 []) going)).tst.run = none] = true := by decide +kernel

theorem test_PlovirkoSettings_repair :
    let go (i : Instr) (opc unit : Nat) (pay : List Nat) (s : State) := status i (tap (ask opc unit pay) s)
    let soft (r : BitVec 128) (s : State) := go .repairSoft 0x0503 0 (leBytes 16 r.toNat) s
    let full := { run with tst := { soft := List.replicate 128 column } }
    all [recOk laneOut, recOk column, soft 0 run = 3, soft column full = 9, soft laneOut run = 3, soft laneOut (setRole 3 .failed run) = 0, soft column run = 0,
      soft column { run with tst := { soft := [column] } } = 3, go .repairBurn 0x0504 0 (leBytes 16 laneOut.toNat) (inState .ready) = 9] = true := by decide +kernel

theorem test_PlovirkoSettings_burn :
    let r := tagged 0x0504 (leBytes 16 column.toNat)
    let s := keyed 0 none (inState .ready)
    all [tagRight r s, (nx .repairBurn (tap r s)).tst.armed.map (·.2.1) = some true] = true := by decide +kernel

theorem test_PlovirkoSettings_disarm :
    let r := tagged 0x0504 (leBytes 16 0)
    let s := keyed 0 none (inState .ready)
    all [status .repairBurn (tap r s) = 0xA, status .repairBurn (tap r { s with tst := { armed := some (column, true, 0) } }) = 0] = true := by decide +kernel

theorem test_PlovirkoSettings_registers :
    let go (i : Instr) (opc unit : Nat) (pay : List Nat) (s : State) := status i (tap (ask opc unit pay) s)
    let write (a : Nat) (ws : List Nat) := go .regWrite 0x0703 0 (leBytes 4 a ++ leBytes 4 ws.length ++ ws.flatMap (leBytes 4)) run
    let good := 0x00818064
    all [go .dcalReq 0x0600 3 [] link = 0, go .calCfgSet 0x0601 0 (leBytes 4 0 ++ leBytes 4 0) run = 3, go .calCfgSet 0x0601 0 (leBytes 4 good ++ leBytes 4 0x400400) run = 0,
      getF (nx .calCfgSet (tap (ask 0x0601 0 (leBytes 4 good ++ leBytes 4 0x400400)) run)) calCfg 0 12 = 100, go .logCtl 0x0701 0 [2, 0, 0, 0] run = 3,
      go .logCtl 0x0701 0 [1, 1, 0, 0] run = 0, write 0x2000 [0] = 3, write 0x4001 [0] = 3, write calCfg [0] = 3, write calCfg [good] = 0, write calCfg [good, 0] = 3,
      go .timeStage 0x0803 0 (leBytes 4 0) run = 3, go .timeStage 0x0803 0 (leBytes 4 0x100) run = 0, go .timeStage 0x0803 0 (leBytes 4 3) run = 3] = true := by decide +kernel

theorem test_PlovirkoSettings_epoch :
    let go (i : Instr) (opc unit : Nat) (pay : List Nat) (s : State) := status i (tap (ask opc unit pay) s)
    let set (e t : Nat) := leBytes 4 e ++ leBytes 4 0 ++ leBytes 8 t ++ leBytes 8 9
    let pend (t : Nat) := { run with banks := { pend := some { tick := t, epoch := 3, digest := 0 } } }
    all [go (.epochSet true) 0x0801 0 (set 1 0) run = 9, payNum (set 1 (run.tick + 2)) 8 8 = run.tick + 2, payNum (set 1 0) 16 8 = 9, pstate run = 0,
      go .epochCancel 0x0802 0 [] run = 0xA, go .epochCancel 0x0802 0 [] (pend (run.tick + 1)) = 9,
      (nx .epochCancel (tap (ask 0x0802 0 []) (pend (run.tick + 2)))).banks.pend = none] = true := by decide +kernel

/-- The digest is a 64-bit number. -/
theorem byte_shift (c : Nat) (h : c < 2 ^ 64) : crc64Shift c < 2 ^ 64 := by
  unfold crc64Shift
  have : c >>> 1 < 2 ^ 64 := by rw [Nat.shiftRight_eq_div_pow]; omega
  split
  · exact Nat.xor_lt_two_pow this (by decide)
  · exact this

theorem crc_lt (bs : List Nat) (h : ∀ b ∈ bs, b < 2 ^ 64) : crc64 bs < 2 ^ 64 := by
  unfold crc64
  refine Nat.xor_lt_two_pow ?_ (by decide)
  suffices ∀ (l : List Nat) (c : Nat), (∀ b ∈ l, b < 2 ^ 64) → c < 2 ^ 64 → l.foldl crc64Byte c < 2 ^ 64 from this bs _ h (by decide)
  intro l
  induction l with
  | nil => intro c _ hc; exact hc
  | cons b l ih =>
    intro c hb hc
    refine ih _ (fun x hx => hb x (List.mem_cons_of_mem _ hx)) ?_
    unfold crc64Byte
    exact byte_shift _ (byte_shift _ (byte_shift _ (byte_shift _ (byte_shift _ (byte_shift _ (byte_shift _ (byte_shift _ (Nat.xor_lt_two_pow hc (hb b (List.mem_cons_self ..))))))))))

theorem le_lt (n w b : Nat) (h : b ∈ leBytes n w) : b < 2 ^ 64 := by
  induction n generalizing w with
  | zero => simp [leBytes] at h
  | succ n ih =>
    rcases List.mem_cons.1 h with rfl | h
    · omega
    · exact ih _ h

theorem digest_lt (s : State) : stagedDigest s < 2 ^ 64 := by
  refine crc_lt _ (fun b hb => ?_)
  simp only [tabBytes, List.mem_append, List.mem_flatMap] at hb
  rcases hb with (((⟨i, -, h⟩ | ⟨i, -, h⟩) | ⟨i, -, h⟩) | ⟨i, -, h⟩) | h <;> exact le_lt _ _ _ h

theorem le_back (d : Nat) (h : d < 2 ^ 64) : leNum (leBytes 8 d) = d := by
  simp only [leBytes, leNum]
  omega

theorem test_PlovirkoSettings_digest : ∃ pay, payNum pay 16 8 = stagedDigest (tap (ask 0x0801 0 pay) run) ∧ payNum pay 0 4 = 1 ∧ payNum pay 4 4 = 0 ∧
    payNum pay 8 8 = run.tick + 2 :=
  ⟨leBytes 4 1 ++ leBytes 4 0 ++ leBytes 8 (run.tick + 2) ++ leBytes 8 (stagedDigest run), le_back _ (digest_lt run), rfl, rfl, rfl⟩

/-! ### Self-test -/

/-- A slice over macro 3 of array 0, in a phase, with steps done of it. -/
def slice (phase steps : Nat) : Slice := { job := { why := .sweep, unit := 0, mem := some (0, 3), budget := 64 }, began := run.tick, phase := phase, steps := steps }

/-- A slice over an engine. -/
def logic (steps : Nat) : Slice := { job := { why := .run, unit := 0x300, budget := 64 }, began := run.tick, phase := 1, steps := steps }

/-- RUN with a slice in progress. -/
def slicing (x : Slice) : State := { run with tst := { run := some x } }

theorem test_SelfTestSlices_start :
    let wait (r : List (Nat × Nat)) (d : List (Nat × Nat)) (q : Option SliceJob) (w : Option (Nat × Nat)) : State :=
      { run with tst := { rot := r, damage := d, request := q, sweep := w } }
    let job : SliceJob := { why := .run, unit := 0x880, budget := 9 }
    let why (s : State) := (nextSlice s).map (·.1.why)
    all [run.acts, sliceState run, run.tst.run = none, !run.tst.broken, run.tst.ended = none, nextSlice run = none, nx .sliceStart run = run,
      why (wait [(3, 1), (2, 4)] [(1, 1)] (some job) none) = some (.rotation 2 4), why (wait [] [(1, 1)] (some job) none) = some .damage,
      why (wait [] [] (some job) (some (1, 1))) = some .run, why (wait [] [] none (some (1, 1))) = some .sweep,
      (nx .sliceStart (wait [] [] (some job) none)).tst.run.map (·.job) = some job, getF (nx .sliceStart (wait [] [] (some job) none)) tstSts 0 3 = 1] = true := by
  decide +kernel

theorem test_SelfTestSlices_steps :
    let step (x : Slice) (fails : List (Fin 1024 × Fin 36)) := nx (.bistStep 5 fails) (slicing x)
    let y (x : Slice) (fails : List (Fin 1024 × Fin 36)) := (step x fails).tst.run
    let one : List (Fin 1024 × Fin 36) := [(7, 2)]
    let used (kind : Nat) (k : Nat) : BitVec 128 := sealRec (kind + 2 ^ 8 * 3 + 2 ^ 30 * k)
    let full := updTst (fun x => { x with soft := [used 1 0, used 1 1, used 1 2, used 1 3, used 2 0, used 2 1] }) (slicing (slice 1 39))
    let lost := nx (.bistStep 5 one) full
    let late : Slice := { slice 2 1 with job := { (slice 2 1).job with budget := 0 } }
    all [(y (logic 3) []).map (·.steps) = some 4, (y (slice 0 1) []).map (·.steps) = some 2,
      (y (slice 0 3) []).map (fun z => (z.phase, z.steps)) = some (1, 0), getReg (step (slice 0 3) []) tstSave = 0x61, (y (slice 1 38) []).map (·.steps) = some 39,
      (y (slice 1 39) []).map (·.verdict) = some (some (2, 0)), allocate (0, 3) [(7, 2)] full = none,
      lost.tst.run.map (·.verdict) = some (some (3, 0)), ev evTst 4 lost, (allocate (0, 3) [(7, 2)] (slicing (slice 1 39))).map (·.length) = some 1,
      (y (slice 1 39) one).map (·.verdict) = some (some (5, 0)), ev evTst 3 (step (slice 1 39) one), getF (step (slice 1 39) one) tstCnt1 16 16 = 1,
      (y (slice 2 1) []).map (·.exceeded) = some false, (y late []).map (·.exceeded) = some true, ev evTst 9 (step late [])] = true := by decide +kernel

theorem test_SelfTestSlices_ends :
    let spent (x : Slice) : Slice := { x with job := { x.job with budget := 0 } }
    let rot (code : Nat) := endSlice { logic 48 with job := { why := .rotation 1 4, unit := unitEng 1 4, budget := 9 } } code 0 (slicing (logic 48))
    let exceeded (x : Slice) := nx .sliceBudgetExpiry (slicing x)
    let timer : State := setF tstCtl 11 1 1 run
    all [(logic 48).steps = stepsOf (logic 48), (exceeded (spent (logic 5))).tst.run = none, getF (exceeded (spent (logic 5))) tstSts 0 3 = 4, (exceeded (spent (slice 0 1))).tst.run = none,
      (exceeded (spent (slice 1 1))).tst.run.map (·.verdict) = some (some (4, 0)), exceeded (slice 1 1) = slicing (slice 1 1), exceeded (spent (slice 2 1)) = slicing (spent (slice 2 1)),
      (nx .sliceEnd (slicing { slice 2 4 with verdict := some (2, 0) })).tst.run = none, ev evTst 0 (nx .sliceEnd (slicing { slice 2 4 with verdict := some (2, 0) })),
      nx .sliceEnd (slicing (slice 2 3)) = slicing (slice 2 3), engIn 1 4 (slicing (logic 48)), seng 1 (rot 2) = 4, seng 1 (rot 3) = 31, (rot 4).tst.rot = [(1, 4)],
      testBusy timer = false, (nx .sweepTimer timer).tst.sweep.isSome, (nx .sweepTimer timer).tst.swept = some 0,
      nx .sweepTimer { timer with tst := { ended := some run.tick } } = { timer with tst := { ended := some run.tick } } || getF timer tstCtl 12 16 = 0,
      testBusy (slicing (logic 1)), nx .sweepTimer run = run] = true := by decide +kernel

/-! ### Burns and the test port -/

/-- The lock held and a record presented by the host. -/
def burning (r : BitVec 128) (t : TestCtl) : State :=
  { (List.range 4).foldl (fun s k => putReg (tstBurnRec k) (BitVec.ofNat 32 (r.toNat / 2 ^ (32 * k))) s) (locked 0 none) with tst := t }

theorem test_BurnsAndTestPort_burns :
    let idle := burning column {}
    let go (s : State) := nx (.burnGo true) s
    let result (s : State) := getF s tstBurnSts 3 4
    let armed (t : Nat) := burning column { armed := some (column, true, t) }
    let busy := burning column { burning := some (column, 5) }
    let done (good : Bool) := nx (.burnComplete good) busy
    all [!lockHeld run, ev evPro 6 (nx (.burnGo true) run), ev evPro 6 (nx (.burnAbort false) run), lockHeld idle, burnRec idle = column, recOk column, burnExpired idle = false,
      result (go busy) = 5, (go idle).tst.armed.map (·.2.1) = some false, ev evTst 5 (go idle), result (go (burning 0 {})) = 3,
      (go (armed run.tick)).tst.burning.map (·.1) = some column, result (go (armed run.tick)) = 1, result (go (burning column { armed := some (column, false, run.tick) })) = 3,
      (nx (.burnAbort true) (armed run.tick)).tst.armed = none, result (nx (.burnAbort true) idle) = 0xA, burnExpired (armed (run.tick - 65536)),
      (nx .burnExpiry (armed (run.tick - 65536))).tst.armed = none, nx (.burnComplete true) idle = idle, recKind column = 2, freeSlot busy.efuse = some 0,
      tget (fun _ => (0 : BitVec 128)) (done true).efuse.slots 0 = column, ev evTst 6 (done true), (done false).efuse.used = [0]] = true := by
  decide +kernel

theorem test_BurnsAndTestPort_port :
    let boot := inState .boot
    let frozen : State := inState .frozen
    let open_ := nx (.tapMemRead 8 0 3 true) frozen
    all [(nx (.tapWsp ⟨1, {}⟩) boot).tst.wrapper = 1, (nx (.tapWsp ⟨1, {}⟩) { run with tst := { dr := 5 } }).tst.dr = 0, boot.alive, State.reset.alive = false,
      (nx (.tapTstAcc 0x10 false 0) boot).tst.dr % 2 ^ 17 = 0x10, nx .tapScan { run with tst := { dr := 5 } } = run, frozen.tst.zeroed = false, open_.tst.zeroed,
      ev evPro 7 open_, open_.prot = {}, (nx (.tapMemRead 9 1 3 false) open_).tst.dr % 2 ^ 27 = 9 + 2 ^ 4 + 3 * 2 ^ 16, (nx .tapBypass { run with tst := { dr := 5 } }) = run] = true := by
  decide +kernel

/-! ### Forms on the wire -/

theorem test_FormsReadBack :
    let h : FlitHdr := { kind := 15, rpl := true, ackv := true, seq := 65535, ack := 0x8001, cpool := 15, cred := 511, nslot := 15, hslot := 1, low := 7 }
    let p : PktHdr := { opc := 255, len := 255, src := 2 ^ 18 - 1, dst := 1, cls := 7, sync := true, mirror := true, txid := 2 ^ 20 - 1, addr := 2 ^ 48 - 1 }
    let m : Marker := { ctsTx := 2 ^ 64 - 1, gmid := 2 ^ 18 - 1, stratum := 15, tq := 7, tsv := true, calph := 63, pwr := 65535 }
    let t : TrainMsg := { phase := 15, pass := 31, active := 31, wmax := 7, cold := true, done := false, tref := 2 ^ 32 - 1, echo := 1, turn := 2 ^ 32 - 1 }
    let i : IpHdr := { kind := 255, tag := 1023, bytes := 8191, addr := 2 ^ 48 - 1, die := 2 ^ 18 - 1, resp := 15, poison := true }
    all [FlitHdr.ofWord h.word = h, PktHdr.ofSlot p.slot = p, Marker.ofSlot m.slot = m, TrainMsg.ofSlot t.slot = t, IpHdr.ofBeat i.beat = i, headerParOk i.beat] = true := by
  decide +kernel

theorem test_FormsReadBack_ledger :
    let cfg (v : Bool) : PoolConfig := if v then { priv := true, vcmap := 2 ^ 24 - 1, limits := List.replicate 8 8191 } else { priv := false, vcmap := 0, limits := List.replicate 8 0 }
    let l (v : Bool) : Ledger :=
      { valid := true, cfg := cfg v, rtick := 65535, epoch := 2 ^ 32 - 1, digest := 2 ^ 64 - 1, hfreeCtl := 65535, hfreePlv := 1,
        counts := List.replicate 9 (2 ^ 32 - 1, 0, 7), summary := [1, 2, 3] }
    all [Ledger.ofSlots (l true).slots = l true, Ledger.ofSlots (l false).slots = l false, !(Ledger.ofSlots { l true with valid := false }.slots).valid] = true := by
  decide +kernel

theorem test_FlitsReadBack : (match readFlit (flit 5 65535 0 77).wire with | .good f x => decide (f = flit 5 65535 0 77 ∧ x = []) | _ => false) = true := by
  decide +kernel

/-! ### The hypotheses of the statements -/

/-- A swap message. -/
def swapM (k : LKind) (a b : Nat) (ab : Bool) (e : Nat) : Slot := LaneMsg.slot ⟨k, a, b, ab, e⟩

/-- Port 0 with a Hatstand message received. -/
def withHat (x : Slot) (s : State) : State := updPort 0 (fun q => { q with rx := { q.rx with hat := [x] } }) s

/-- Port 0 in a phase of a cold or warm training with all lanes. -/
def trn (ph : TPhase) (cold : Bool) (s : State) : State :=
  updLn 0 (fun x => { x with lstate := .training, training := some { phase := ph, cold := cold, began := 0, lanes := 31, active := 15, spare := some 4, upCount := 4, peerDone := true } })
   ((List.range 5).foldl (fun t i => updLane i (fun x => { x with role := .training }) t) s)

/-- The bytes of a flit as they arrive on port 0 in a slot, scrambled. -/
def dat (k : Nat) (f : Flit) (s : State) : List Byte := descramble 0 k f.wire s

/-- The list where a hypothesis holds, else as many clauses not met. -/
def hold (n : Nat) (p : Prop) [Decidable p] (l : List Bool) : List Bool := if p then l else List.replicate n false

/-- No clause met. -/
def no (n : Nat) : List Bool := List.replicate n false

/-- The clauses met by some element of a list. -/
def anyOf {α : Type} (n : Nat) (l : List α) (f : α → List Bool) : List Bool := l.foldl (fun a x => List.zipWith or a (f x)) (no n)

/-- The clauses met whichever value a free bit has. -/
def both (f : Bool → List Bool) : List Bool := List.zipWith and (f false) (f true)

/-- The clauses met, as the bits of a number. -/
def bits : List Bool → Nat
  | [] => 0
  | b :: l => b.toNat + 2 * bits l

/-- Every clause is met by one of the given cases. -/
def met (n : Nat) (l : List (List Bool)) : Bool := l.foldl (fun a x => a ||| bits x) 0 == 2 ^ n - 1

/-- No tag of an inner port is in use or quarantine. -/
def idlePort (x : InnerPort) : Bool := x.busy.isEmpty && x.quar.isEmpty

/-- `Admitted`, decided. -/
def admitted (opc : Nat) (r : PlvReq) (s : State) : Bool :=
  decide (nextReq s = some r) && !unknownOpcode r.bytes && plvOpc r.bytes == opc && (opRow opc).any (fun o =>
    lengthOk o.len r.bytes && tagOk o r s && o.legal.contains s.bnd.adp.code && unitOk o.units (plvUnit r.bytes))

/-- `WriteTaken`, decided. -/
def taken (a : Nat) (s : State) : Bool := s.mready && (s.acts || faultWritable a) && (!s.acts || !inMgt a || s.lect.restart.isNone)

/-- `BoundaryOk`, decided. -/
def boundaryOk (s : State) : Bool :=
  (!decide (s.bnd.adp = .off ∨ s.bnd.adp = .frozen) || decide (s.bnd.mready = false ∧ s.bnd.access = none ∧ s.bnd.blsbCk = false)) &&
  (!decide (s.bnd.adp = .off ∨ s.bnd.adp = .frozen ∨ s.bnd.adp = .fault) || decide (s.bnd.cellsDark = true ∧ s.bnd.portsLow = true ∧ s.bnd.nextState = none)) &&
  s.bnd.nextState.all (fun n => moves .tickBoundary s.bnd.adp n s.bnd.prev && decide (n ≠ .fault)) &&
  (!decide (s.bnd.adp = .test) || decide (s.bnd.prev = .boot ∨ s.bnd.prev = .ready)) &&
  decide (s.bnd.step = .done ↔ s.bnd.adp ≠ .off)

theorem boundary_of_boundaryOk (s : State) (h : boundaryOk s = true) : BoundaryOk s := by
  simp only [boundaryOk, Bool.and_eq_true, Bool.or_eq_true, Bool.not_eq_true', decide_eq_true_eq, decide_eq_false_iff_not] at h
  obtain ⟨⟨⟨⟨a, b⟩, c⟩, d⟩, e⟩ := h
  refine ⟨fun x => a.resolve_left (fun y => y x), fun x => b.resolve_left (fun y => y x), fun n hn => ?_, fun x => d.resolve_left (fun y => y x), e⟩
  rw [hn] at c
  simpa using c

theorem free_tag_of_an_idle_port (x : InnerPort) (h : idlePort x = true) (n : Nat) : (freeTag 1024 n x).isSome = true := by
  simp only [idlePort, Bool.and_eq_true, List.isEmpty_iff] at h
  simp [freeTag, h.1, h.2]

namespace Resets

/-- Which clauses of `Obligations.Resets` have their hypotheses met. -/
def clauses (a : Nat) (s : State) (c : Instr) (cause : Nat) : List Bool :=
  (hold 2 ((c = .porstAssert ∧ cause = 0) ∨ (c = .vddcLowReset ∧ cause = 1)) (
      (hold 1 (a ≠ glbRstcause) ([true])) ++
      (hold 1 (s.tst.burning = none) ([true])))) ++
  ((hold 1 (s.bnd.step = .heldPll) ([true])) ++
    (hold 5 (s.bnd.step ≠ .heldPll) (
        (hold 1 (s.flt.held = []) ([true])) ++
        ([true]) ++
        (hold 1 (s.tst.burning = none) ([true])) ++
        (hold 2 (s.tst.loaded = []) (
            hold 2 (s.tst.soft = []) (
              ([true]) ++
              (hold 1 (a ∉ warmKept) ([true]))))))))

theorem meets_Resets :
    met 8 [clauses 0 run .porstAssert 0,
      clauses 0 State.reset .porstAssert 0] = true := by
  decide +kernel

end Resets

namespace ReleaseToBoot

/-- Which clauses of `Obligations.ReleaseToBoot` have their hypotheses met. -/
def clauses (s : State) : List Bool :=
  (hold 1 (s.bnd.step = .heldPll) ([true])) ++
  (hold 1 (s.bnd.step = .heldEFuse) ([true])) ++
  (hold 1 (s.bnd.step = .heldSram) ([true])) ++
  (hold 1 (s.bnd.step = .pllLock) ([true])) ++
  (hold 1 (s.bnd.step = .eFuse) (
      anyOf 1 (burned s) (fun r =>
        hold 1 (recKind r = 3) ([true])))) ++
  (hold 1 (s.bnd.step = .sram) ([true])) ++
  (hold 1 (s.bnd.step = .lectern) ([true]))

theorem meets_ReleaseToBoot :
    met 7 [clauses (off .heldPll),
      clauses (off .heldEFuse),
      clauses (off .heldSram),
      clauses (off .pllLock),
      clauses { off .eFuse with efuse := { slots := [(0, column), (1, laneOut)] } },
      clauses (off .sram),
      clauses (off .lectern)] = true := by
  decide +kernel

end ReleaseToBoot

namespace ClocksAndSupplies

/-- Which clauses of `Obligations.ClocksAndSupplies` have their hypotheses met. -/
def clauses (s : State) : List Bool :=
  (hold 4 (boundaryOk s = true) (
      (hold 1 (s.bnd.step = .pllLock ∨ s.bnd.step = .eFuse ∨ s.bnd.step = .sram ∨ s.bnd.step = .lectern) ([true])) ++
      (hold 1 (s.bnd.pllLock = true) (hold 1 (s.bnd.adp ≠ .frozen) ([true]))) ++
      (hold 1 (s.bnd.pllLock = true) (hold 1 (s.bnd.adp = .frozen) ([true]))) ++
      (hold 1 (s.clocked = true) (
          hold 1 (s.bnd.pllLock = true) (
            (match s.bnd.refLost with
              | some k => (hold 1 (k + 64 ≤ s.tick) ([true]))
              | _ => no 1)))))) ++
  (hold 2 (s.clocked = true) (
      (hold 1 (s.bnd.refLost = none) ([true])) ++
      (match s.bnd.refLost with
        | some k => (hold 1 (s.tick < k + 64) ([true]))
        | _ => no 1)))

theorem meets_ClocksAndSupplies :
    met 6 [clauses (off .sram),
      clauses frozen,
      clauses { run with bnd := { run.bnd with refLost := some (run.tick - 64) } },
      clauses { run with bnd := { run.bnd with refLost := some (run.tick - 63) } }] = true := by
  decide +kernel

end ClocksAndSupplies

namespace FreezeStops

/-- Which clauses of `Obligations.FreezeStops` have their hypotheses met. -/
def clauses (p : PortId) (l : LaneId) (a : Nat) (s : State) : List Bool :=
  (hold 1 (s.bnd.adp = .off ∨ s.bnd.adp = .frozen) ([true])) ++
  (hold 5 (s.bnd.adp ≠ .off) (
      hold 5 (s.bnd.adp ≠ .frozen) (
        (hold 1 ((s.port p).ln.training.isSome = true) ([true])) ++
        (hold 1 ((s.port p).ln.training = none) ([true])) ++
        (hold 1 ((s.lane l).role = .training) ([true])) ++
        (hold 1 ((s.lane l).role ≠ .training) ([true])) ++
        (hold 1 ((List.range 64).all (fun p => (s.port p).ln.training.isNone || a != prtLtrn p) = true) ([true])))))

theorem meets_FreezeStops :
    met 6 [clauses 0 0 0 run,
      clauses 0 0 0 frozen,
      clauses 0 4 0 { link with lanes := [(4, { heater := some 7, role := .training })], ports := [(1, { upPort with ln := { upPort.ln with training := some { phase := .cdr, cold := false, began := 3, lanes := 31 } } })] },
      clauses 1 0 0 { link with lanes := [(4, { heater := some 7, role := .training })], ports := [(1, { upPort with ln := { upPort.ln with training := some { phase := .cdr, cold := false, began := 3, lanes := 31 } } })] }] = true := by
  decide +kernel

end FreezeStops

namespace PaceLines

/-- Which clauses of `Obligations.PaceLines` have their hypotheses met. -/
def clauses (p : Part) (s : State) (line : PaceLine) : List Bool :=
  hold 2 (s.clocked = true) (
    (hold 1 (paceLevel line s = 0) (hold 1 (p ≠ Part.regs) ([true]))) ++
    (hold 1 (paceLevel line s ≠ 0) ([true])))

theorem meets_PaceLines :
    met 2 [clauses .regs (nx (.paceEdge 1) run) 1,
      clauses .lanes run 0] = true := by
  decide +kernel

end PaceLines

namespace EventBlockWrites

/-- Which clauses of `Obligations.EventBlockWrites` have their hypotheses met. -/
def clauses (e j : Nat) (k : Fin 8) (u : EvtUnit) (s : State) : List Bool :=
  (hold 1 (e < 32) ([true])) ++
  (hold 1 (taken (evtBase u + 0x0C) s = true) ([true])) ++
  (hold 2 (taken (evtBase u + 0x10) s = true) (
      (hold 1 (e < 32) ([true])) ++
      (hold 1 (e < 32) ([true])))) ++
  (hold 2 (taken (evtBase u + 0x20 + 4 * k) s = true) (
      (hold 1 (j < 4) (hold 1 (evtDefined (evtBase u) (4 * k + j) = true) ([true]))) ++
      (hold 1 (e < 32) (hold 1 (e / 4 ≠ k.val) ([true])))))

theorem meets_EventBlockWrites :
    met 6 [clauses 0 0 1 .glb run] = true := by
  decide +kernel

end EventBlockWrites

namespace RegisterWrites

def adrs : List (BitVec 17) := [glbBsts, proLock, proCmd, glbTxCtl, calCfg, calThr, fltIdx, glbDieid, dmaDress, tbCfgStg, prtLctl 0, prtLswap 0, colCmd, chCmd 0, 0x1F0, glbRstcause, mgtMbxReq 3, tstBurnRec 0, prtLtrn 3].map (fun a => BitVec.ofNat 17 (a / 4))

/-- Which clauses of `Obligations.RegisterWrites` have their hypotheses met. -/
def clauses (agent : Bool) (v : Word) (s : State) (addr : BitVec 17) : List Bool :=
  (let a : Nat := 4 * addr.toNat;
    hold 6 (evtAt a = none) (
      (hold 1 (s.mready = true) (hold 1 (s.acts = false) (hold 1 (faultWritable a = false) ([true])))) ++
      (hold 5 (taken a s = true) (
          (hold 1 (regFields a = none) ([true])) ++
          (match regFields a with
            | some fs => ((let x := checkedIn agent a s;
                (hold 1 (governed a = true) (hold 1 (agentAdmitted agent a v x = false) ([true]))) ++
                (hold 3 (governed a = false ∨ agentAdmitted agent a v x = true) (
                    (hold 1 (lockedReg fs x = true) ([true])) ++
                    (hold 1 (lockedReg fs x = false) (hold 1 ((fieldRange fs v || specialRange a v x || commandRefused a v x) = true) ([true]))) ++
                    (hold 1 (lockedReg fs x = false) (
                        hold 1 ((fieldRange fs v || specialRange a v x || commandRefused a v x) = false) (hold 1 (ownBehaviour a = false) ([true]))))))))
            | _ => no 4)))))

theorem meets_RegisterWrites :
    met 6 [clauses false 0 run ((adrs).getD 0 0),
      clauses false 0 run ((adrs).getD 1 0),
      clauses false 0 run ((adrs).getD 3 0),
      clauses false 0 run ((adrs).getD 14 0),
      clauses false 0 { run with bnd := { run.bnd with rwlLocked := true } } ((adrs).getD 7 0),
      clauses false 0 (inState .fault) ((adrs).getD 0 0)] = true := by
  decide +kernel

end RegisterWrites

namespace ManagementPort

/-- Which clauses of `Obligations.ManagementPort` have their hypotheses met. -/
def clauses (s : State) (l : LaneId) : List Bool :=
  ((hold 1 (s.mready = true) ([true])) ++
    (hold 1 (s.mready = true) ([true])) ++
    (match s.bnd.access with
      | some x => (hold 1 (s.alive = true) (hold 1 (x.since + 1024 ≤ s.cts) ([true])))
      | _ => no 1)) ++
  (hold 8 (s.mready = true) (
      hold 8 (s.acts = true) (
        ([true]) ++
        ([true]) ++
        ([true]) ++
        (hold 2 ((s.lane l).due = none) (
            (hold 1 ((spareOf (portOf l) s).isSome) ([true])) ++
            (hold 1 (spareOf (portOf l) s = none) ([true])))) ++
        ([true]) ++
        (hold 1 (s.lect.restart = none) (hold 1 (mailboxBusy s = false) ([true]))) ++
        (hold 1 (s.lect.restart = none) (hold 1 (mailboxBusy s = true) ([true]))))))

theorem meets_ManagementPort :
    met 11 [clauses { link with bnd := { link.bnd with access := some { write := false, agent := false, addr := 0, data := 0, since := 5 } } } 0,
      clauses (setF mgtMbxSts 0 2 1 run) 0] = true := by
  decide +kernel

end ManagementPort

namespace RepairRequests

/-- Which clauses of `Obligations.RepairRequests` have their hypotheses met. -/
def clauses (l : LaneId) (s : State) : List Bool :=
  hold 3 ((s.port (portOf l)).pw.state = .p0) (
    hold 3 ((s.port (portOf l)).ln.swap = none) (
      hold 3 ((s.port (portOf l)).ln.dcal = none) (
        (hold 1 ((s.lane l).role = .active) (
            (match spareOf (portOf l) s with
              | some _ => ([true])
              | _ => no 1))) ++
        (hold 1 ((s.lane l).role = .spare) ([true])) ++
        (hold 1 ((s.lane l).role = .active) (hold 1 (spareOf (portOf l) s = none) ([true]))))))

theorem meets_RepairRequests :
    met 3 [clauses 0 link,
      clauses 0 { link with lanes := tset lane0 link.lanes 4 { role := .off } },
      clauses 4 link] = true := by
  decide +kernel

end RepairRequests

namespace LanesAndSwaps

/-- Which clauses of `Obligations.LanesAndSwaps` have their hypotheses met. -/
def clauses (pattern : Bool) (l : LaneId) (s : State) (p : PortId) : List Bool :=
  ((hold 5 (reports l s = true) (
        (hold 1 ((s.lane l).role = .active ∨ inBurst (portOf l) s = true) ([true])) ++
        (hold 1 (pattern = false ∨ (s.lane l).role = .spare) ([true])) ++
        (hold 1 ((s.lane l).role = .active) ([true])) ++
        (hold 1 (getF s calThr 0 16 < (s.lane l).lastWindow) ([true])) ++
        (hold 1 ((s.lane l).stepAt ≠ some s.tick) ([true])))) ++
    (hold 1 (inTraining l s = true) ([true]))) ++
  (hold 3 (s.acts = true) (
      (match (s.port p).ln.swap with
        | some w => (hold 1 (w.abortCal = false) (
            hold 1 (w.lane ≠ w.sub) (hold 1 (w.lane < 5) (hold 1 (w.sub < 5) (hold 1 (w.eff ≤ s.tick) (hold 1 (s.cyc = 0) ([true])))))))
        | _ => no 1) ++
      (match takeCtl p .swapReq s with
        | some (m, _) => (hold 1 ((s.port p).ln.swap = none) (hold 1 (m.abortCal = false) ([true])))
        | _ => no 1) ++
      (match takeCtl p .swapAck s with
        | some (_, _) => ([true])
        | _ => no 1)))

theorem meets_LanesAndSwaps :
    met 9 [clauses false 0 (setF calThr 0 16 0 { link with lanes := (0, { role := .active, lastWindow := 6, rbias := 7 }) :: link.lanes.tail }) 0,
      clauses false 0 { link with lanes := tset lane0 (tset lane0 link.lanes 4 { role := .training }) 0 { role := .training } } 0,
      clauses false 0 (updLn 0 (fun x => { x with swap := some ⟨2, 4, false, 1, true, .los⟩ }) link) 0,
      clauses false 0 (withHat (swapM .swapReq 1 4 false 777) link) 0,
      clauses false 0 (withHat (swapM .swapAck 1 4 false 777) link) 0] = true := by
  decide +kernel

end LanesAndSwaps

namespace BadControlMessages

def msgs (p : PortId) : List (Instr × LKind) := [(Instr.swapReq p true, LKind.swapReq), (.swapAck p true, .swapAck), (.calOutReq p true, .calOutReq), (.calOutAck p true, .calOutAck), (.calInReq p true, .calInReq), (.calInAck p true, .calInAck), (.calRefuse p true, .calRefuse)]

/-- Which clauses of `Obligations.BadControlMessages` have their hypotheses met. -/
def clauses (p : PortId) (s : State) (k : LKind) (c : Instr) : List Bool :=
  hold 1 ((c, k) ∈ [(Instr.swapReq p true, LKind.swapReq), (.swapAck p true, .swapAck), (.calOutReq p true, .calOutReq), (.calOutAck p true, .calOutAck), (.calInReq p true, .calInReq), (.calInAck p true, .calInAck), (.calRefuse p true, .calRefuse)]) (
    (match takeCtl p k s with
      | some (_, _) => ([true])
      | _ => no 1))

theorem meets_BadControlMessages :
    met 1 [clauses 0 (((msgs 0).map (fun m => withHat (swapM m.2 1 4 false 777) link)).getD 0 run) .swapReq (((msgs 0).map (·.1)).getD 0 .tickBoundary)] = true := by
  decide +kernel

end BadControlMessages

namespace DeepCalibration

def dc (st : DcalStage) (mine : Bool) (s : State) : State := updLn 0 (fun x => { x with dcal := some { lane := 2, sub := 4, stage := st, mine := mine } }) s
def cfg : State := setF calCfg 20 4 4 (setF calCfg 0 12 1 (setF calCfg 12 8 5 link))
def dueL : State := updLane 2 (fun x => { x with due := some (.period, 7, false), dcts := 3 }) (updLane 1 (fun x => { x with due := some (.requested, 7, true), dcts := 2 }) cfg)

/-- Which clauses of `Obligations.DeepCalibration` have their hypotheses met. -/
def clauses (l : LaneId) (temp : BitVec 16) (k : LaneId) (s : State) (p : PortId) (e a b : Nat) (mine ack : Bool) (ph : TPhase) : List Bool :=
  (hold 8 (s.acts = true) (
      ((hold 1 ((s.lane l).due ≠ none) ([true])) ++
        (hold 1 ((s.lane l).due = none) (
            hold 1 ((toInt 16 temp.toNat - (s.lane l).tempDcal).natAbs ≤ getF s calCfg 12 8) (
              hold 1 (s.tick < max ((s.lane l).dcts / 1024) (s.lane l).dueBase + getF s calCfg 0 12 * 1600) ([true])))) ++
        (hold 1 ((s.lane l).due = none) (
            hold 1 (getF s calCfg 12 8 < (toInt 16 temp.toNat - (s.lane l).tempDcal).natAbs) (hold 1 ((spareOf (portOf l) s).isSome) ([true])))) ++
        (hold 1 ((s.lane l).due = none) (
            hold 1 ((toInt 16 temp.toNat - (s.lane l).tempDcal).natAbs ≤ getF s calCfg 12 8) (
              hold 1 (max ((s.lane l).dcts / 1024) (s.lane l).dueBase + getF s calCfg 0 12 * 1600 ≤ s.tick) (hold 1 ((spareOf (portOf l) s).isSome) ([true])))))) ++
      (match (s.lane l).due with
        | some (_, since, false) => (hold 1 (since + 1600000 ≤ s.tick) ([true]))
        | _ => no 1) ++
      (match (s.lane l).due with
        | some (_, _, true) => ([true])
        | _ => no 1) ++
      (match chooseDue s with
        | some _ => (hold 1 ((s.lane k).due.isSome) (hold 1 ((s.lane k).role = .active) (hold 1 (canDcal (portOf k) s = true) ([true]))))
        | _ => no 1) ++
      (hold 1 (dcalPorts s < min (getF s calCfg 20 4) 8) (
          (match chooseDue s with
            | some l => ((match spareOf (portOf l) s with
                | some _ => ([true])
                | _ => no 1))
            | _ => no 1))))) ++
  ((hold 1 ((s.port p).ln.dcal = none) (
        (match takeCtl p .calOutReq s with
          | some (_, u) => (hold 1 (dcalPorts u < min (getF u calCfg 20 4) 8) ([true]))
          | _ => no 1))) ++
    (hold 1 ((s.port p).ln.dcal = none) (
        (match takeCtl p .calOutReq s with
          | some (_, u) => (hold 1 (min (getF u calCfg 20 4) 8 ≤ dcalPorts u) ([true]))
          | _ => no 1))) ++
    (match takeCtl p .calOutAck s with
      | some (_, _) => ([true])
      | _ => no 1) ++
    (match takeCtl p .calInAck s with
      | some (_, _) => ([true])
      | _ => no 1) ++
    (match takeCtl p .calRefuse s with
      | some (_, _) => ((match (s.port p).ln.dcal with
          | some ⟨_, _, .out _, _, _, _⟩ => ([true])
          | _ => no 1))
      | _ => no 1) ++
    (match takeCtl p .calInReq s with
      | some (_, _) => ((match (s.port p).ln.dcal with
          | some ⟨_, _, .inCal _, _, _, _⟩ => ([true])
          | _ => no 1))
      | _ => no 1) ++
    (hold 1 (s.acts = true) (
        (match (s.port p).ln.dcal with
          | some ⟨a, _, .retry k, _, _, _⟩ => (hold 1 (a < 5) (hold 1 (k ≤ s.tick) ([true])))
          | _ => no 1)))) ++
  (hold 4 (s.acts = true) (
      hold 4 (a ≠ b) (
        hold 4 (a < 5) (
          hold 4 (b < 5) (
            (hold 1 ((s.port p).ln.dcal = some ⟨a, b, .out e, mine, ack, ph⟩) (
                hold 1 (e ≤ s.tick) (hold 1 (s.cyc = 0) (hold 1 ((s.lane (cellOf p a)).role = .active) (hold 1 ((s.lane (cellOf p b)).role = .spare) ([true])))))) ++
            (hold 1 ((s.port p).ln.dcal = some ⟨a, b, .back e k, mine, ack, ph⟩) (
                hold 1 (e ≤ s.tick) (hold 1 (s.cyc = 0) (hold 1 ((s.port p).ln.swap = none) ([true]))))) ++
            (hold 1 ((s.port p).ln.dcal = some ⟨a, b, .inCal k, mine, ack, ph⟩) ([true])) ++
            (hold 1 ((s.port p).ln.dcal = some ⟨a, b, .inCal k, mine, ack, ph⟩) (hold 1 (k + 12800 ≤ s.tick) ([true]))))))))

theorem meets_DeepCalibration :
    met 19 [clauses 0 0 0 (updLane 0 (fun x => { x with due := some (.drift, 7, false), dcts := 100 }) dueL) 0 1 1 1 false false .ring,
      clauses 0 0 2 (withHat (swapM .calInReq 2 4 false 777) (dc (.inCal 2) false cfg)) 0 1 2 4 false false .ring,
      clauses 0 0 0 (withHat (swapM .calOutAck 1 4 false 777) (dc (.out 2) true cfg)) 0 2 2 4 true false .ring,
      clauses 0 0 1 (withHat (swapM .calInAck 1 4 false 777) (dc (.back 2 1) true cfg)) 0 2 2 4 true false .ring,
      clauses 0 0 0 (updLane 0 (fun x => { x with dcts := cfg.cts }) cfg) 0 1 1 1 false false .ring,
      clauses 0 0 0 (withHat (swapM .calOutReq 1 4 false 777) cfg) 0 1 1 1 false false .ring,
      clauses 0 0 0 (setF calCfg 20 4 0 (withHat (swapM .calOutReq 1 4 false 777) link)) 0 1 1 1 false false .ring,
      clauses 0 0 0 (withHat (swapM .calRefuse 2 4 false 777) (dc (.out 2) true cfg)) 0 1 1 1 false false .ring,
      clauses 0 0 0 (dc (.retry 2) true cfg) 0 1 1 1 false false .ring,
      clauses 0 9 0 cfg 0 1 1 1 false false .ring,
      clauses 1 0 0 dueL 0 1 1 1 false false .ring] = true := by
  decide +kernel

end DeepCalibration

namespace TrainingsBegin

/-- Which clauses of `Obligations.TrainingsBegin` have their hypotheses met. -/
def clauses (i : Nat) (p : PortId) (s : State) : List Bool :=
  (hold 4 (s.acts = true) (
      (match (s.port p).ln.resetDue with
        | some _ => (hold 3 ((s.port p).ln.dueTick ≤ s.tick) (
            hold 3 (s.cyc = 0) (
              hold 3 ((s.port p).ln.coldDue = none) (
                hold 3 ((s.port p).ln.failing = []) (
                  hold 3 ((s.port p).ln.swap = none) (
                    hold 3 ((s.port p).ln.standing = []) (
                      (let t := nx (.linkReset p) s;
                        (match (t.port p).ln.training with
                          | some _ => ([true])
                          | _ => no 1) ++
                        (hold 1 (i < 5) (hold 1 ((s.lane (cellOf p i)).role ≠ .failed) ([true]))) ++
                        (hold 1 (i < 5) (hold 1 ((s.lane (cellOf p i)).role = .failed) ([true])))))))))))
        | _ => no 3) ++
      (hold 1 ((s.port p).ln.lstate = .up) (hold 1 ((s.port p).pw.state = .p0 ∨ (s.port p).pw.state = .p1) (hold 1 (8 ≤ (s.port p).rx.empty) ([true])))))) ++
  (hold 2 (s.acts = true) (
      (match (s.port p).ln.coldDue with
        | some after => ((hold 1 (absent p s = false) (
              hold 1 (getF s (prtEng p) 0 5 ≠ 31) (
                hold 1 ((s.port p).ln.dueTick ≤ s.tick) (
                  hold 1 (s.cyc = 0) (
                    (let u := updLn p (fun x => { x with afterWarm := after, attempts := if s.bnd.adp = .train then x.attempts + 1 else x.attempts }) (beginTraining p true s);
                      (match (u.port p).ln.training with
                        | some _ => ([true])
                        | _ => no 1))))))) ++
          (hold 1 (absent p s = true ∨ getF s (prtEng p) 0 5 = 31) ([true])))
        | _ => no 2)))

theorem meets_TrainingsBegin :
    met 6 [clauses 0 0 (updLn 0 (fun x => { x with resetDue := some 0, dueTick := link.tick }) link),
      clauses 0 0 (updLn 0 (fun x => { x with coldDue := some false, dueTick := link.tick }) link),
      clauses 0 0 (updPort 0 (fun q => { q with rx := { q.rx with empty := 8 } }) { link with cts := link.cts + 5 }),
      clauses 0 0 (setF (mgtPortMask 0) 0 1 0 (updLn 0 (fun x => { x with coldDue := some false, dueTick := link.tick }) link)),
      clauses 3 0 (updLane 3 (fun x => { x with role := .failed }) (updPort 0 (fun q => { q with tx := { q.tx with nextTx := 5, oldest := 3, replay := some (3,4), sb := [] }, rx := { q.rx with ackDue := true, nextRx := 5 } }) (updLn 0 (fun x => { x with resetDue := some 3, dueTick := link.tick }) link)))] = true := by
  decide +kernel

end TrainingsBegin

namespace TrainingsEnd

/-- Which clauses of `Obligations.TrainingsEnd` have their hypotheses met. -/
def clauses (i : Nat) (p : PortId) (s : State) (done : BitVec 5) : List Bool :=
  (hold 3 (s.acts = true) (
      hold 3 (s.cyc = 0) (
        (match (s.port p).ln.training with
          | some tr => ((hold 1 (tr.phase = .ring ∨ tr.phase = .cdr ∨ tr.phase = .level) (
                hold 1 (tr.lanes ≠ 0) (hold 1 (tr.lanes &&& ~~~done = 0) (hold 1 (i < 5) (hold 1 (tr.lanes.getLsbD i = true) ([true])))))) ++
            (hold 2 (tr.phase = .ring ∨ tr.phase = .cdr ∨ tr.phase = .level) (
                hold 2 (tr.lanes &&& done = 0) (
                  hold 2 (tr.began + budget tr.cold tr.phase ≤ s.tick) (
                    hold 2 ((s.port p).pw.wake = none) (
                      (hold 1 (i < 5) (hold 1 ((s.lane (cellOf p i)).role = .training) ([true]))) ++
                      (hold 1 (tr.cold = false) ([true]))))))))
          | _ => no 3)))) ++
  (hold 3 (s.acts = true) (
      hold 3 (s.cyc = 0) (
        (match (s.port p).ln.training with
          | some tr => (hold 3 (tr.phase = .up) (
              hold 3 (4 ≤ tr.upCount) (
                hold 3 (tr.peerDone = true) (
                  (hold 1 (i < 5) (hold 1 ((s.lane (cellOf p i)).role ≠ .failed) ([true]))) ++
                  (hold 1 (i < 5) (hold 1 ((s.lane (cellOf p i)).role = .failed) ([true]))) ++
                  (hold 1 ((s.port p).tx.unacked ≠ 0) ([true]))))))
          | _ => no 3))))

theorem meets_TrainingsEnd :
    met 6 [clauses 0 0 (trn .cdr false link) 0,
      clauses 0 0 (updLane 2 (fun x => { x with role := .failed }) (updPort 0 (fun q => { q with tx := { q.tx with nextTx := 5, oldest := 3 } }) (trn .up true link))) 0,
      clauses 0 0 (trn .ring true link) 31,
      clauses 2 0 (updLane 2 (fun x => { x with role := .failed }) (updPort 0 (fun q => { q with tx := { q.tx with nextTx := 5, oldest := 3 } }) (trn .up true link))) 0] = true := by
  decide +kernel

end TrainingsEnd

namespace SidebandFrames

def reqs : List BlsbReq := [{ owner := .gap, seq := 1, kind := kindHeaterSet, cell := 319, value := 77, sent := 0 }, { owner := .site, seq := 2, kind := kindLaserRead, cell := 0x1FF, value := 0, sent := 0, reissues := 3 }, { owner := .train, seq := 3, kind := 2, cell := 5, value := 0, sent := 0, reissues := 1 }]

/-- Which clauses of `Obligations.SidebandFrames` have their hypotheses met. -/
def clauses (f : BitVec 64) (q : BitVec 8) (s : State) (b : Blsb) : List Bool :=
  (hold 11 (s.bnd.blsbCk = true) (
      (hold 1 (frameOk f = false) ([true])) ++
      (hold 1 (frameOk f = true) (hold 1 (blsbMatch f s = none) ([true]))) ++
      (hold 4 (frameOk f = true) (
          (match blsbMatch f s with
            | some r => (hold 4 (r.owner ≠ .train ∨ ringOn r.cell s = false) (
                (hold 1 (r.kind = kindHeaterSet) ([true])) ++
                (hold 3 (r.kind = kindLaserRead) (
                    (hold 1 (frameF f 16 2 = 1) ([true])) ++
                    (hold 1 (frameF f 16 2 = 2) ([true])) ++
                    (hold 1 (frameF f 16 2 ≠ 1) (hold 1 (frameF f 16 2 ≠ 2) ([true])))))))
            | _ => no 4))) ++
      (match s.blsb.waiting.find? (fun r => r.seq == q.toNat) with
        | some r => (hold 2 (r.sent + 8 ≤ s.tick) (
            (hold 1 (r.reissues < 3) ([true])) ++
            (hold 1 (3 ≤ r.reissues) ([true]))))
        | _ => no 2) ++
      (hold 1 (s.blsb.queue = []) (hold 1 (s.blsb.free ≤ s.cts) (hold 1 ((s.blsb.roll s.tick).gapUsed + (s.blsb.roll s.tick).otherUsed < 15) ([true])))) ++
      (hold 1 (s.cts < s.blsb.free ∨ 15 ≤ (s.blsb.roll s.tick).gapUsed + (s.blsb.roll s.tick).otherUsed) ([true])) ++
      (hold 1 (s.blsb.laserTick + 1600 ≤ s.tick) ([true])))) ++
  ((hold 1 (15 ≤ b.gapUsed + b.otherUsed) ([true])) ++
    (match b.queue.find? (fun r => decide (r.owner = .gap)) with
      | some _ => ((match b.queue.find? (fun r => decide (r.owner ≠ .gap)) with
          | some _ => (hold 1 (b.gapUsed + b.otherUsed < 15) (hold 1 (b.gapTick < 3) ([true])))
          | _ => no 1))
      | _ => no 1))

theorem meets_SidebandFrames :
    met 13 [clauses 1 1 { run with blsb := { run.blsb with waiting := reqs } } { gapUsed := 12, otherUsed := 3 },
      clauses (blsbFrame 8 319 0 1) 0 { run with blsb := { run.blsb with window := run.tick / 4, gapUsed := 12, otherUsed := 3 } } { gapUsed := 12, otherUsed := 3 },
      clauses 1 0 { run with blsb := { run.blsb with waiting := reqs } } { gapUsed := 12, otherUsed := 2, queue := reqs },
      clauses 1 2 { run with blsb := { run.blsb with waiting := reqs } } { gapUsed := 12, otherUsed := 3 },
      clauses (blsbFrame 8 319 0 1) 0 { run with blsb := { run.blsb with waiting := reqs } } { gapUsed := 12, otherUsed := 3 },
      clauses (blsbFrame 0xA 0x1FF 1 2) 0 { run with blsb := { run.blsb with waiting := reqs } } { gapUsed := 12, otherUsed := 3 },
      clauses (blsbFrame 0xA 0x1FF 2 2) 0 { run with blsb := { run.blsb with waiting := reqs } } { gapUsed := 12, otherUsed := 3 },
      clauses (blsbFrame 0xA 0x1FF 0 2) 0 { run with blsb := { run.blsb with waiting := reqs } } { gapUsed := 12, otherUsed := 3 }] = true := by
  decide +kernel

end SidebandFrames

namespace TicksAndTime

/-- Which clauses of `Obligations.TicksAndTime` have their hypotheses met. -/
def clauses (item : Fin 8) (unit : BitVec 14) (s : State) (aF bF aC bC : Bool) : List Bool :=
  ((hold 1 (s.counts = true) (hold 1 (s.acts = false) ([true]))) ++
    (hold 1 (s.counts = true) (hold 1 (s.acts = true) (hold 1 (s.bnd.nextState = none) ([true])))) ++
    (hold 1 (s.counts = false) ([true])) ++
    (hold 3 (s.acts = true) (
        (hold 1 (s.tb.ovrAt ≠ some s.cts ∨ getF s tbOvrSts 3 14 ≤ unit.toNat) ([true])) ++
        (hold 1 (overrunRun item unit.toNat s = 16) ([true])) ++
        (hold 1 (overrunRun item unit.toNat s ≠ 16) ([true]))))) ++
  ((hold 3 (s.acts = true) (
        hold 3 (s.upstream.isSome = true) (
          hold 3 (s.markerSeen = false) (
            hold 3 (s.tb.lostTick ≠ some s.tick) (
              (hold 1 (s.tb.miss < 7) ([true])) ++
              (hold 1 (7 ≤ s.tb.miss) ([true])) ++
              (hold 1 (7 ≤ s.tb.miss) (hold 1 (s.tb.state = .locked) ([true])))))))) ++
    (hold 1 (s.acts = true) (hold 1 (s.tb.state = .holdover) (hold 1 (s.tb.expired = false) (hold 1 (2 ^ getF s tbLimits 8 5 ≤ s.tb.hold) ([true]))))) ++
    (hold 1 (s.tb.expired = true) ([true])) ++
    (hold 4 (s.alive = true) (
        hold 4 (s.tb.dead = false) (
          hold 4 (s.tb.mode = .pair) (
            (hold 1 (aF = true) (hold 1 (bF = true) ([true]))) ++
            (hold 1 ((aF = true ∧ bF = false) ∨ (aF = false ∧ bF = false ∧ aC = false ∧ bC = true)) ([true])) ++
            (hold 1 ((aF = false ∧ bF = true) ∨ (aF = false ∧ bF = false ∧ aC = true)) ([true])) ++
            (hold 1 (aF = false) (hold 1 (bF = false) (hold 1 (aC = false) (hold 1 (bC = false) ([true]))))))))) ++
    (hold 2 (s.alive = true) (
        hold 2 (s.tb.dead = false) (
          (hold 1 (s.tb.mode = .aOnly) ([true])) ++
          (hold 1 (s.tb.mode = .bOnly) ([true]))))))

theorem meets_TicksAndTime :
    met 17 [clauses 0 3 (setF tbCfg 0 2 1 { run with tb := { run.tb with state := .locked, miss := 7, trims := [4, 6] } }) false false false false,
      clauses 0 3 { run with tb := { run.tb with mode := .bOnly, expired := true } } false false false false,
      clauses 0 3 run false false false true,
      clauses 0 3 run false false true false,
      clauses 0 3 run true true false false,
      clauses 0 3 State.reset false false false false,
      clauses 0 3 (inState .fault) false false false false,
      clauses 0 3 { run with tb := { run.tb with state := .holdover, hold := 4096 } } false false false false,
      clauses 0 3 { run with tb := { run.tb with mode := .aOnly } } false false false false,
      clauses 4 0x380 { run with tb := { run.tb with overruns := [(7 * 16384 + 3, (run.tick - 1, 15)), (4 * 16384 + 0x380, (run.tick - 1, 15))] } } false false false false] = true := by
  decide +kernel

end TicksAndTime

namespace BringUpAndQuiescing

/-- Which clauses of `Obligations.BringUpAndQuiescing` have their hypotheses met. -/
def clauses (s : State) : List Bool :=
  (hold 1 (s.bnd.adp = .train) (hold 1 (s.cyc = 0) (hold 1 (s.bring.leaves = true) (hold 1 (s.bring.others = true) (hold 1 (trained s = true) ([true])))))) ++
  (hold 1 (s.bnd.adp = .quiesce) (hold 1 (s.cyc = 0) (hold 1 (s.bring.leaves = true) (hold 1 (drained s = true) ([true]))))) ++
  (hold 1 (s.bnd.adp = .train) (hold 1 (s.bring.trainFrom + 16000 ≤ s.tick) (hold 1 (s.bring.trainSaid = false) ([true])))) ++
  (hold 1 (s.bnd.adp = .quiesce) (
      hold 1 (s.bring.quietFrom + rspTimeout s * (retryLim s + 1) ≤ s.tick) (hold 1 (s.bring.quietSaid = false) (hold 1 (drained s = false) ([true])))))

theorem meets_BringUpAndQuiescing :
    met 4 [clauses { inState .train with bring := { leaves := true, others := true }, tb := { state := .locked }, ports := (List.range 64).map (fun p => (p, { ln := { ended := true } })) },
      clauses { inState .quiesce with bring := { leaves := true } },
      clauses { inState .quiesce with dma := [(0, { st := .run })] }] = true := by
  decide +kernel

end BringUpAndQuiescing

namespace PortTasks

/-- Which clauses of `Obligations.PortTasks` have their hypotheses met. -/
def clauses (bad : List (Fin 256)) (badFlows : List (Fin 4096)) (p : PortId) (s : State) : List Bool :=
  (hold 4 (s.acts = true) (
      (hold 2 ((s.port p).stopped = false) (
          (let t := nx (.markerBuild p) s;
            (match (t.port p).marker with
              | some _ => ((hold 1 (s.role = 2) ([true])) ++
                (hold 1 (s.role ≠ 2) ([true])))
              | _ => no 2)))) ++
      (hold 1 ((s.port p).stopped = false) ([true])) ++
      (hold 1 (bad = []) (hold 1 (badFlows = []) ([true]))))) ++
  (hold 5 (s.acts = true) (
      hold 5 ((s.port p).ln.lstate = .up) (
        hold 5 ((s.port p).pw.state = .p0 ∨ (s.port p).pw.state = .p1) (
          (let u := arrive 928 s;
            (let t := nx (.powerTask p) s;
              (match (t.port p).pw.next with
                | some _ => ((hold 1 (linkBusy p u = true ∨ trafficWaits p u = true ∨ repairPending p u = true) ([true])) ++
                  (match ownPwr p s with
                    | some _ => ((match peerPwrNow p s with
                        | some _ => ([true])
                        | _ => no 1))
                    | _ => no 1) ++
                  (hold 1 (ownPwr p s = none ∨ peerPwrNow p s = none) ([true])))
                | _ => no 3) ++
              (match (t.port p).pw.enter with
                | some _ => ((match ownPwr p s with
                    | some _ => ([true])
                    | _ => no 1) ++
                  (match peerPwrNow p s with
                    | some _ => ([true])
                    | _ => no 1))
                | _ => no 2)))))))

theorem meets_PortTasks :
    met 9 [clauses [] [] 0 (updPort 0 (fun x => { x with tx := { x.tx with nextTx := 4 }, pw := { x.pw with sent := some (link.tick, 1 + 4 + 16 + 64, true), peerTick := some link.tick, peerPwr := 1 * 4 + 16 + 64 } }) link),
      clauses [] [] 0 (setF tbCfg 0 2 2 link)] = true := by
  decide +kernel

end PortTasks

namespace FlitSlots

/-- Which clauses of `Obligations.FlitSlots` have their hypotheses met. -/
def clauses (m : Marker) (p : PortId) (k : Fin 256) (s : State) : List Bool :=
  hold 7 (s.acts = true) (
    hold 7 ((s.port p).stopped = false) (
      hold 7 (s.bnd.cellsDark = false) (
        (hold 1 (4 * k < s.cyc) ([true])) ++
        (hold 4 (s.cyc ≤ 4 * k) (
            hold 4 ((s.port p).ln.training = none) (
              hold 4 ((s.port p).ln.lstate = .up) (
                hold 4 (slotPresent (s.port p).ln.width k = true) (
                  (hold 1 (k.val = 0) (hold 1 ((s.port p).pw.state = .p0 ∨ (s.port p).pw.state = .p1) (hold 1 ((s.port p).marker = some (s.tick, m)) ([true])))) ++
                  (hold 1 (k.val = 128) (hold 1 ((s.port p).pw.state = .p0) ([true]))) ++
                  (hold 1 (k.val ≠ 0) (hold 1 (k.val ≠ 128) (hold 1 ((s.port p).pw.state = .p0) ([true])))) ++
                  (hold 1 ((k.val ≠ 0 ∧ (s.port p).pw.state = .p1) ∨ ((s.port p).pw.state = .p2 ∧ (s.port p).pw.wake = none) ∨ (s.port p).pw.state = .p3) ([true]))))))) ++
        (hold 2 (s.cyc ≤ 4 * k) (
            (match (s.port p).ln.training with
              | some tr => ((hold 1 (tr.phase = .ring ∨ tr.phase = .cdr ∨ tr.phase = .level ∨ tr.phase = .deskew) ([true])) ++
                (hold 1 (tr.phase = .delay ∨ tr.phase = .verify ∨ tr.phase = .up) (hold 1 (slotPresent (min 4 (ofMask tr.lanes).length) k = true) ([true]))))
              | _ => no 2))))))

theorem meets_FlitSlots :
    met 7 [clauses (buildMarker link.tick link) 0 0 { link with cts := link.cts + 3 },
      clauses (buildMarker link.tick link) 0 0 (updPort 0 (fun x => { x with marker := some (link.tick, buildMarker link.tick link) }) link),
      clauses (buildMarker link.tick link) 0 0 (updPort 0 (fun x => { x with pw := { x.pw with state := .p2 } }) link),
      clauses (buildMarker link.tick link) 0 0 (trn .ring true link),
      clauses (buildMarker link.tick link) 0 0 (trn .delay true link),
      clauses (buildMarker link.tick link) 0 1 link,
      clauses (buildMarker link.tick link) 0 128 link] = true := by
  decide +kernel

end FlitSlots

namespace FlitsByNumber

def fl (h : FlitHdr) (sl : List Slot) : Flit := { hdr := h, slots := sl }
def dataF (q : Nat) : Flit := fl { kind := 1, nslot := 1, hslot := 1, seq := q } [swapM .swapAck 1 2 false 4]

/-- Which clauses of `Obligations.FlitsByNumber` have their hypotheses met. -/
def clauses (e : Fin 3) (p : PortId) (k : Fin 256) (raw : List Byte) (s : State) : List Bool :=
  (hold 1 (receives p s = true) (
      hold 1 ((s.port p).ln.lstate = .up) (
        hold 1 ((s.port p).ln.training = none) (
          hold 1 (slotPresent (s.port p).ln.width k = true) (
            hold 1 (k.val ≠ 0) (
              hold 1 (k.val ≠ 128) (
                hold 1 ((s.port p).pw.state = .p0) (
                  hold 1 (quiet p k s = false) (
                    (let r := readFlit (descramble p k raw s);
                      hold 1 (straggler p r s = false) (
                        hold 1 ((match r with | .uncorr => decide (e = 0) | .crcFail _ => decide (e = 1) | .good f _ => !headerOk k false f.hdr && decide (e = 2)) = true) (
                          [true])))))))))))) ++
  (hold 4 (receives p s = true) (
      hold 4 ((s.port p).ln.lstate = .up) (
        hold 4 ((s.port p).ln.training = none) (
          hold 4 ((s.port p).pw.state = .p0) (
            hold 4 (slotPresent (s.port p).ln.width k = true) (
              hold 4 (k.val ≠ 0) (
                hold 4 (k.val ≠ 128) (
                  (match readFlit (descramble p k raw s) with
                    | .good f _ => (hold 4 (headerOk k false f.hdr = true) (
                        (hold 1 (f.hdr.kind = 0) ([true])) ++
                        (hold 3 (f.hdr.kind = 1) (
                            (hold 1 (seqCase (s.port p).rx (BitVec.ofNat 16 f.hdr.seq) = .accept) (hold 1 ((s.port p).rx.held = []) ([true]))) ++
                            (hold 1 (seqCase (s.port p).rx (BitVec.ofNat 16 f.hdr.seq) = .hold) ([true])) ++
                            (hold 1 (seqCase (s.port p).rx (BitVec.ofNat 16 f.hdr.seq) = .duplicate ∨ seqCase (s.port p).rx (BitVec.ofNat 16 f.hdr.seq) = .beyond) (
                                hold 1 (seqCase (s.port p).rx (BitVec.ofNat 16 f.hdr.seq) = .beyond) ([true])))))))
                    | _ => no 4)))))))))

theorem meets_FlitsByNumber_1 :
    (clauses 0 0 1 (dat 1 (fl { kind := 0 } []) link) link).getD 1 false = true := by
  decide +kernel

theorem meets_FlitsByNumber_2 :
    (clauses 0 0 1 (dat 1 (dataF 0) link) link).getD 2 false = true := by
  decide +kernel

theorem meets_FlitsByNumber_0 :
    (clauses 2 0 1 (dat 1 (fl { kind := 7 } []) link) link).getD 0 false = true := by
  decide +kernel

theorem meets_FlitsByNumber_3 :
    (clauses 0 0 1 (dat 1 (dataF 7) link) link).getD 3 false = true := by
  decide +kernel

theorem meets_FlitsByNumber_4 :
    (clauses 0 0 1 (dat 1 (dataF 300) link) link).getD 4 false = true := by
  decide +kernel

end FlitsByNumber

namespace ControlFlits

def fl (h : FlitHdr) (sl : List Slot) : Flit := { hdr := h, slots := sl }
def mk (m : Marker) : Flit := fl { kind := 2, nslot := 1 } (m.slot :: List.replicate 14 pilotSlot)
def tr5 : Flit := fl { kind := 4, nslot := 1 } [TrainMsg.slot { phase := 5, pass := 31, active := 3, wmax := 4, cold := true, done := true, tref := 77, echo := 5, turn := 6 }]

/-- Which clauses of `Obligations.ControlFlits` have their hypotheses met. -/
def clauses (p : PortId) (raw : List Byte) (s : State) (k : Fin 256) (ref : Nat) : List Bool :=
  (hold 2 (receives p s = true) (
      hold 2 ((s.port p).ln.lstate = .up) (
        hold 2 ((s.port p).ln.training = none) (
          hold 2 ((s.port p).pw.state = .p0) (
            hold 2 (slotPresent (s.port p).ln.width 0 = true) (
              (match readFlit (descramble p 0 raw s) with
                | .good f _ => (hold 2 (f.hdr.kind = 2) (
                    hold 2 (headerOk 0 false f.hdr = true) (
                      (let m := Marker.ofSlot (f.slots.getD 0 0);
                        (hold 1 (m.tsv = true) ([true])) ++
                        (hold 1 (m.tsv = false) ([true]))))))
                | _ => no 2))))))) ++
  (hold 2 (receives p s = true) (
      hold 2 ((s.port p).ln.lstate = .up) (
        hold 2 ((s.port p).ln.training = none) (
          hold 2 ((s.port p).pw.state = .p0) (
            hold 2 (slotPresent (s.port p).ln.width 128 = true) (
              (match readFlit (descramble p 128 raw s) with
                | .good f _ => (hold 2 (f.hdr.kind = 3) (
                    hold 2 (headerOk 128 false f.hdr = true) (
                      (hold 1 ((Ledger.ofSlots f.slots).valid = true) ([true])) ++
                      (hold 1 ((Ledger.ofSlots f.slots).valid = false) ([true])))))
                | _ => no 2))))))) ++
  (hold 2 (receives p s = true) (
      (match readFlit (descramble p k raw s) with
        | .good f _ => (hold 2 (f.hdr.kind = 4) (
            (match (s.port p).ln.training with
              | some _ => (hold 1 ((s.port p).ln.lstate = .training) (
                  hold 1 (headerOk k true f.hdr = true) (
                    (let t := nx (.trainingFlitRx p k raw ref) s;
                      (match (t.port p).ln.training with
                        | some _ => ([true])
                        | _ => no 1)))))
              | _ => no 1) ++
            (hold 1 ((s.port p).ln.lstate = .up) (hold 1 ((s.port p).ln.upTick = some s.tick) ([true])))))
        | _ => no 2)))

theorem meets_ControlFlits_0 :
    (clauses 0 (dat 0 (mk (buildMarker link.tick link)) link) link 1 0).getD 0 false = true := by
  decide +kernel

theorem meets_ControlFlits_1 :
    (clauses 0 (dat 0 (mk { buildMarker link.tick link with tsv := false, pwr := 5 }) link) link 1 0).getD 1 false = true := by
  decide +kernel

theorem meets_ControlFlits_3 :
    (clauses 0 (dat 128 (fl { kind := 3, nslot := 15 } (List.replicate 15 0)) link) link 1 0).getD 3 false = true := by
  decide +kernel

theorem meets_ControlFlits_2 :
    (clauses 0 (dat 128 (fl { kind := 3, nslot := 15 } (ledgerOf 0 { tick := link.tick, sent := [], rcvd := [], freed := [] } link).slots) link) link 1 0).getD 2 false = true := by
  decide +kernel

theorem meets_ControlFlits_4 :
    (clauses 0 (dat 1 tr5 link) (trn .delay true link) 1 0).getD 4 false = true := by
  decide +kernel

theorem meets_ControlFlits_5 :
    (clauses 0 (dat 1 tr5 link) (updLn 0 (fun x => { x with upTick := some link.tick }) link) 1 0).getD 5 false = true := by
  decide +kernel

end ControlFlits

namespace PacketsAndTimers

def flowing : State := updPort 0 (fun x => { x with sc := { x.sc with sched := true } }) { sending (some 9) with banks := { link.banks with calAct := [(1, 0x80000009)], flowAct := [(9, 0x80000000)] } }
def timed : State := updTx 0 (fun x => { x with timer := some 0, nextTx := 1, sb := [{ seq := 0, hslot := 0, slots := [], sent := 0, pids := [] }] }) link

/-- Which clauses of `Obligations.PacketsAndTimers` have their hypotheses met. -/
def clauses (p : PortId) (s : State) (c : Nat) : List Bool :=
  (hold 3 (takesPackets p s = true) (
      (let d : State := demoteStarted p (demoteStaged p s);
        (match nextFlow p d with
          | some (_, _) => ([true])
          | _ => no 1) ++
        (match nextStart p d with
          | some (_, _) => (hold 1 (nextFlow p d = none) (hold 1 ((d.port p).tx.cur = none) ([true])))
          | _ => no 1) ++
        (hold 1 (nextFlow p d = none) (hold 1 ((d.port p).tx.cur ≠ none ∨ nextStart p d = none) ([true])))))) ++
  (hold 9 (s.acts = true) (
      (hold 1 ((s.port p).stopped = false) (
          hold 1 ((s.port p).tx.asm.pks ≠ []) (hold 1 ((s.port p).tx.asm.first + effF s (prtPoolcfg p) 8 8 ≤ s.cts) ([true])))) ++
      (match (s.port p).rx.ackTimer with
        | some c => (hold 1 ((s.port p).stopped = false) (hold 1 (c + ackTimer p s ≤ s.cts) ([true])))
        | _ => no 1) ++
      (match (s.port p).tx.timer with
        | some c => (hold 3 ((s.port p).stopped = false) (
            hold 3 (0 < (s.port p).tx.unacked) (
              hold 3 (c + effF s (prtLinkCtl p) 14 12 ≤ s.cts) (
                (hold 1 (isDark p s = true) ([true])) ++
                (hold 1 (isDark p s = false) (hold 1 ((s.port p).tx.selective = true) ([true]))) ++
                (hold 1 (isDark p s = false) (hold 1 ((s.port p).tx.selective = false) ([true])))))))
        | _ => no 3) ++
      (hold 1 ((s.port p).tx.stopped = some (c, s.cts)) (
          hold 1 ((s.port p).tx.timer = none) (
            hold 1 ((s.port p).stopped = false) (hold 1 (0 < (s.port p).tx.unacked) (hold 1 (c + effF s (prtLinkCtl p) 14 12 ≤ s.cts) ([true])))))) ++
      (hold 1 (isDark p s = true) ([true])) ++
      (hold 1 ((s.port p).ln.lstate = .up) (
          hold 1 ((s.port p).tx.selective = false) (
            hold 1 (selCtl p s ≠ 2) (
              hold 1 (s.tick % 64 = 63) (
                hold 1 (effF s (prtLinkCtl2 p) 0 10 * ((s.port p).tx.winFirst + (s.port p).tx.winCopies) < 1024 * (s.port p).tx.winCopies) ([true])))))) ++
      (hold 1 ((s.port p).tx.selective = true) (hold 1 (selCtl p s ≠ 1) (hold 1 (effF s (prtLinkCtl2 p) 10 16 ≤ (s.port p).tx.cleanTicks) ([true]))))))

theorem meets_PacketsAndTimers :
    met 12 [clauses 0 (updRx 0 (fun x => { x with dark := true }) timed) 0,
      clauses 0 (sending none) 0,
      clauses 0 flowing 0,
      clauses 0 (updCr 0 (fun x => { x with peer := some {} }) link) 0,
      clauses 0 (updTx 0 (fun x => { x with asm := { pks := [{ bits := 0, pid := 0, first := true, last := true, pool := 0 }], first := 0 } }) link) 0,
      clauses 0 (updRx 0 (fun x => { x with ackTimer := some 0 }) link) 0,
      clauses 0 timed 0,
      clauses 0 (updTx 0 (fun x => { x with selective := true }) timed) 0,
      clauses 0 { updTx 0 (fun x => { x with winFirst := 1, winCopies := 1023 }) link with cts := (link.tick / 64 * 64 + 63) * 1024 + 7 } 0,
      clauses 0 (updTx 0 (fun x => { x with selective := true, cleanTicks := 65535 }) link) 0,
      clauses 0 (updTx 0 (fun x => { x with timer := none, stopped := some (0, link.cts) }) timed) 0] = true := by
  decide +kernel

end PacketsAndTimers

namespace PowerStates

def pst (st : PState) (f : PortPower → PortPower) : State := updPw 0 (fun x => f { x with state := st }) (updRx 0 (fun x => { x with ackTimer := some 4, accepted := 2 }) (updTx 0 (fun x => { x with timer := some 0, nextTx := 1 }) link))

/-- Which clauses of `Obligations.PowerStates` have their hypotheses met. -/
def clauses (p : PortId) (s : State) : List Bool :=
  hold 10 (s.acts = true) (
    (hold 4 (s.cyc = 0) (
        hold 4 ((s.port p).ln.lstate = .up) (
          (match (s.port p).pw.enter with
            | some (st, u) => (hold 2 (u = s.tick) (
                hold 2 ((s.port p).pw.state.code < st.code) (
                  (hold 1 (st ≠ .p3) ([true])) ++
                  (hold 1 (st = .p2 ∨ st = .p3) ([true])))))
            | _ => no 2) ++
          (match (s.port p).pw.enterLate with
            | some (st, u) => (hold 2 (u = s.tick) (
                hold 2 ((s.port p).pw.state.code < st.code) (
                  (hold 1 (st ≠ .p3) ([true])) ++
                  (hold 1 (st = .p2 ∨ st = .p3) ([true])))))
            | _ => no 2)))) ++
    (hold 1 (s.cyc = 0) (
        hold 1 ((s.port p).pw.state = .p1) (
          hold 1 ((s.port p).pw.enter = none) (
            hold 1 ((s.port p).pw.enterLate = none) (
              hold 1 ((s.port p).ln.standing = []) (
                hold 1 (demand p s = true ∨ guardDue p 0 s = true ∨ (match (s.port p).pw.stir with | some u => decide (u < s.tick) | none => false) = true) ([true]))))))) ++
    (hold 1 (s.cyc = 0) (
        hold 1 ((s.port p).pw.wake = none) (
          hold 1 ((s.port p).pw.state = .p2 ∨ (s.port p).pw.state = .p3) (
            hold 1 (demand p s = true ∨ guardDue p (wakeTicks (s.port p).pw.state) s = true) (hold 1 ((s.port p).pw.state = .p3) ([true])))))) ++
    (hold 2 ((s.port p).pw.state = .p2 ∨ (s.port p).pw.state = .p3) (
        hold 2 ((s.port p).pw.watchFrom ≤ s.cts) (
          (hold 1 ((s.port p).pw.wake = none) (hold 1 ((s.port p).pw.state = .p3) ([true]))) ++
          (match (s.port p).pw.wake with
            | some _ => ([true])
            | _ => no 1)))) ++
    (match (s.port p).pw.wake with
      | some w => (hold 2 ((s.port p).pw.state = .p2) (
          (hold 1 (s.cyc = 0) (hold 1 (w.ready = true) (hold 1 (w.u + 32 ≤ s.tick) (hold 1 ((s.port p).ln.standing = []) ([true]))))) ++
          (hold 1 (wakeOver w s.tick = true) (hold 1 ((s.port p).ln.resetDue = none) ([true])))))
      | _ => no 2))

theorem meets_PowerStates :
    met 10 [clauses 0 (pst .p0 (fun x => { x with enter := some (.p2, link.tick) })),
      clauses 0 (pst .p3 (fun x => { x with force := some 0 })),
      clauses 0 (pst .p2 (fun x => { x with wake := some { u := link.tick - 32, own := true, ready := true, lit := true } })),
      clauses 0 (pst .p1 (fun x => { x with enterLate := some (.p3, link.tick) })),
      clauses 0 (pst .p0 (fun x => { x with enterLate := some (.p1, link.tick) })),
      clauses 0 (pst .p1 (fun x => { x with force := some 0 })),
      clauses 0 (pst .p2 (fun x => { x with wake := some { u := link.tick - 8, own := true, began := link.tick - 1 } }))] = true := by
  decide +kernel

end PowerStates

namespace HostRequests

def hw (k tag n a die : Nat) (po : Bool) : BitVec 128 := IpHdr.beat { kind := k, tag := tag, bytes := n, addr := a, die := die, poison := po }
def bt (d : Nat) (ok l : Bool) : Beat := { data := BitVec.ofNat 2048 d, par := BitVec.ofNat 32 (if ok then dataPar d else dataPar d ^^^ 5), last := l }

/-- Which clauses of `Obligations.HostRequests` have their hypotheses met. -/
def clauses (ip : IpId) (s : State) (b : Beat) (beat : BitVec 128) (beats : List Beat) : List Bool :=
  (hold 1 (s.portsOpen = true) (hold 1 (readyFor ip s .freq false = false) ([true]))) ++
  (hold 2 (s.portsOpen = true) (
      (hold 1 ((s.ip ip).freqIn = []) ([true])) ++
      (match (s.ip ip).freqIn.head? with
        | some _ => (hold 1 (b.last = false) ([true]))
        | _ => no 1))) ++
  (hold 6 (readyFor ip s .freq false = true) (
      hold 6 ((s.ip ip).freqIn = []) (
        hold 6 (lastOk beats = true) (
          hold 6 (beats ≠ [] ↔ ownsData beat = true) (
            (let h := IpHdr.ofBeat beat;
              (hold 1 (headerParOk beat = false) ([true])) ++
              (hold 1 (headerParOk beat = true) (hold 1 ((s.ip ip).freq.any (fun f => f.tag == h.tag) = true) ([true]))) ++
              (hold 4 (headerParOk beat = true) (
                  hold 4 ((s.ip ip).freq.any (fun f => f.tag == h.tag) = false) (
                    (hold 1 (h.kind ≠ kWrite ∧ h.kind ≠ kRead ∧ h.kind ≠ kAtomic ∨ (h.kind = kWrite ∨ h.kind = kRead) ∧ (h.bytes = 0 ∨ 4096 < h.bytes)) ([true])) ++
                    (hold 1 (h.kind = kWrite) (
                        hold 1 (1 ≤ h.bytes) (hold 1 (h.bytes ≤ 4096) (hold 1 (beats.length = beatCount h.addr h.bytes) (hold 1 (beatsParOk beats = false) ([true])))))) ++
                    (hold 2 ((h.kind = kRead ∨ h.kind = kWrite) ∧ 1 ≤ h.bytes ∧ h.bytes ≤ 4096 ∨ h.kind = kAtomic ∧ h.bytes = 32) (
                        hold 2 (beats.length = (if h.kind = kWrite then beatCount h.addr h.bytes else if h.kind = kAtomic then 1 else 0)) (
                          hold 2 (beatsParOk beats = true) (
                            (hold 1 (h.poison = true) ([true])) ++
                            (hold 1 (h.poison = false) (hold 1 (h.die ≠ s.die) ([true]))))))))))))))))

theorem meets_HostRequests :
    met 9 [clauses 0 run (bt 77 true false) 1 [],
      clauses 0 run (bt 77 true false) (hw kRead 3 64 0 5 false) [],
      clauses 0 run (bt 77 true false) (hw kRead 3 5000 0 5 false) [],
      clauses 0 run (bt 77 true false) (hw kWrite 4 300 200 5 false) [bt 77 true false, bt 99 false true],
      clauses 0 run (bt 77 true false) (hw kWrite 4 300 200 5 true) [bt 77 true false, bt 99 true true],
      clauses 0 (inState .test) (bt 77 true false) 1 [],
      clauses 0 (updIp 0 (fun x => { x with freq := [{ tag := 3, kind := kRead, addr := 0, bytes := 4, die := 5, parts := [none] }] }) run) (bt 77 true false) (hw kRead 3 64 0 5 false) [],
      clauses 0 (updIp 0 (fun x => { x with freqIn := [(hw kWrite 3 512 0 5 false, [])], stalled := [4,5] }) run) (bt 77 true false) 1 []] = true := by
  decide +kernel

end HostRequests

namespace HostPort

def hw (k tag n a die : Nat) (po : Bool) : BitVec 128 := IpHdr.beat { kind := k, tag := tag, bytes := n, addr := a, die := die, poison := po }
def bt (d : Nat) (ok l : Bool) : Beat := { data := BitVec.ofNat 2048 d, par := BitVec.ofNat 32 (if ok then dataPar d else dataPar d ^^^ 5), last := l }
def wr : HostReq := { client := .orphan, write := true, addr := 0, bytes := 257, die := 0, data := List.replicate 257 7 }
def rd : HostReq := { client := .thread 0, write := false, addr := 255, bytes := 2, die := 0, tag := 9, sent := run.cts - 10 }
def hp (f : InnerPort → InnerPort) : State := updIp 0 f run
def xf : FrspXfer := { tag := 3, kind := kReadData, resp := 3, addr := 0, bytes := 0, die := 0 }
def xd : FrspXfer := { tag := 3, kind := kReadData, resp := 0, addr := 255, bytes := 2, die := 0, data := [1,2] }

/-- Which clauses of `Obligations.HostPort` have their hypotheses met. -/
def clauses (ip : IpId) (s : State) (beat : BitVec 128) (beats : List Beat) (tag : Tag) (ch : IpChannel) (data : Bool) : List Bool :=
  (hold 5 (s.portsOpen = true) (
      (let d := present ip s;
        (match nextAccess ip s with
          | some _ => (hold 1 ((s.ip ip).header = none) (
              hold 1 ((s.ip ip).sending = []) (
                hold 1 ((s.ip ip).out < 1024) (
                  hold 1 (idlePort (s.ip ip) = true) (
                    (match (d.ip ip).header with
                      | some _ => ([true])
                      | _ => no 1))))))
          | _ => no 1) ++
        (match (d.ip ip).header with
          | some r => (hold 1 (r.timed = false) ([true]))
          | _ => no 1) ++
        (hold 1 ((d.ip ip).header = none) ([true])) ++
        (match inProgress (d.ip ip) with
          | some _ => (hold 1 ((d.ip ip).beat ≠ none) ([true]))
          | _ => no 1) ++
        (hold 1 ((d.ip ip).beat = none) ([true]))))) ++
  (hold 4 (s.portsOpen = true) (
      hold 4 (readyFor ip s .hrsp false = true) (
        hold 4 ((s.ip ip).hrspIn = []) (
          hold 4 (lastOk beats = true) (
            hold 4 (beats ≠ [] ↔ ownsData beat = true) (
              (hold 1 (headerParOk beat = false) ([true])) ++
              (hold 2 (headerParOk beat = true) (
                  hold 2 (outstanding ip (IpHdr.ofBeat beat).tag s = none) (
                    (hold 1 ((s.ip ip).quar.any (fun q => q.1 == (IpHdr.ofBeat beat).tag) = true) ([true])) ++
                    (hold 1 ((s.ip ip).quar.any (fun q => q.1 == (IpHdr.ofBeat beat).tag) = false) ([true]))))) ++
              (match outstanding ip (IpHdr.ofBeat beat).tag s with
                | some r => (hold 1 (headerParOk beat = true) (
                    hold 1 (s.cts < r.sent + 4096) (
                      hold 1 (r.write = false) (
                        hold 1 ((IpHdr.ofBeat beat).kind = kReadData) (
                          hold 1 ((IpHdr.ofBeat beat).bytes = r.bytes) (
                            hold 1 ((IpHdr.ofBeat beat).resp = 0) (
                              hold 1 ((IpHdr.ofBeat beat).poison = false) (
                                hold 1 (beats.length = beatCount r.addr r.bytes) (hold 1 (beatsParOk beats = true) (hold 1 (ownsData beat = true) ([true])))))))))))
                | _ => no 1))))))) ++
  (hold 1 (s.acts = true) (
      (match outstanding ip tag.toNat s with
        | some r => (hold 1 (r.coming = false) (hold 1 (r.sent + 4096 ≤ s.cts) ([true])))
        | _ => no 1))) ++
  (hold 5 (s.portsOpen = true) (
      (hold 2 (chanWaits ip ch data s = true) (
          (hold 1 ((s.ip ip).stalled.contains (chanCode ch data) = false) ([true])) ++
          (hold 1 ((s.ip ip).stalled.contains (chanCode ch data) = true) ([true])))) ++
      (let d := present ip s;
        (match (d.ip ip).frsp.head? with
          | some x => (hold 2 ((d.ip ip).frspHeader ≠ none) (
              (hold 1 (frspBeats x = 0) ([true])) ++
              (hold 1 (frspBeats x ≠ 0) ([true]))))
          | _ => no 2) ++
        (match (d.ip ip).frspOut.head? with
          | some _ => (hold 1 ((d.ip ip).frspBeat ≠ none) ([true]))
          | _ => no 1))))

theorem meets_HostPort :
    met 15 [clauses 0 run 1 [] 9 .hrsp true,
      clauses 0 (hp (fun x => { x with wait := [wr] })) 1 [] 9 .hreq false,
      clauses 0 run (hw kReadData 9 2 255 0 false) [bt 77 true false, bt 99 true true] 9 .hreq false,
      clauses 0 (hp (fun x => { x with busy := [{ wr with tag := 9, sent := run.cts - 3 }], sending := [(9, 0)] })) 1 [] 9 .hreq false,
      clauses 0 (hp (fun x => { x with busy := [rd] })) (hw kReadData 9 2 255 0 false) [bt 77 true false, bt 99 true true] 9 .hreq false,
      clauses 0 (hp (fun x => { x with busy := [{ rd with sent := run.cts - 4096 }] })) 1 [] 9 .hreq false,
      clauses 0 (hp (fun x => { x with quar := [(9, run.cts - 65536)] })) (hw kReadData 9 2 255 0 false) [bt 77 true false, bt 99 true true] 9 .hreq false,
      clauses 0 (hp (fun x => { x with stalled := [2,3,4,5] })) 1 [] 9 .hrsp true,
      clauses 0 (hp (fun x => { x with frsp := [xf], freq := [{ tag := 3, kind := kRead, addr := 0, bytes := 2, die := 5, parts := [none] }] })) 1 [] 9 .hreq false,
      clauses 0 (hp (fun x => { x with frsp := [xd] })) 1 [] 9 .hreq false,
      clauses 0 (hp (fun x => { x with frspOut := [{ x := xd, sent := run.cts - 2 }] })) 1 [] 9 .hreq false] = true := by
  decide +kernel

end HostPort

namespace Requests

def cutS (d : Nat) : State := updPort 5 (fun x => { x with rt := { lost := true } }) (asked d)
def prd : PktHdr := { opc := opRead, len := 1, src := 7, dst := 0, cls := 1, sync := true, txid := 4, addr := 0x100 }
def pwr : PktHdr := { opc := opWrite, len := 1, src := 7, dst := 0, cls := 1, retry := true, txid := 4, addr := 0x100 }
def pat : PktHdr := { opc := opAtomic, len := 1, src := 7, dst := 0, cls := 1, sync := true, txid := 4, addr := 0x100 }
def pairP (t : TxState) (s : State) : State := setTgt 7 (some { nextExp := 4, map := [(4, t)] }) s

/-- Which clauses of `Obligations.Requests` have their hypotheses met. -/
def clauses (s : State) (p2 : PortId) (cb : Bool) (ws : List (Fin 64)) : List Bool :=
  (hold 5 (s.acts = true) (
      (match s.tx.waiting.find? (fun q => (committable q s && rreRoom q s) || decide (route q.dst s = .loop) || decide (route q.dst s = .none)) with
        | some q => ((let w := updT (fun x => { x with waiting := x.waiting.erase q }) s;
            (let relayed := (decide (q.dst ≠ s.die) && portLost (directPort q.dst s) s);
              both (fun bad =>
                (let v := relayRead bad q.dst w;
                  (hold 1 (relayed = false) ([true])) ++
                  (hold 1 (relayed = true) ([true])) ++
                  (match route q.dst v with
                    | .port _ _ => ((match q.slots.head? with
                        | some _ => ((match srcEntry q.dst v with
                            | some _ => ([true])
                            | _ => no 1))
                        | _ => no 1))
                    | _ => no 1) ++
                  (hold 1 (route q.dst v = .none) (hold 1 ((match q.client with | .mirror _ _ => false | _ => true) = true) ([true]))) ++
                  (hold 1 (route q.dst v = .loop) ([true])))))))
        | _ => no 5))) ++
  (hold 8 (s.acts = true) (
      (match firstPkt p2 (fun c => requestFor s c && !c.timed) s with
        | some c => ((let s1 := ws.foldl winUncorr s;
            (hold 1 (badRequest c = true) ([true])) ++
            (hold 1 (badRequest c = false) (hold 1 (s.bnd.adp = .test) ([true]))) ++
            (hold 6 (badRequest c = false) (
                hold 6 (s.bnd.adp ≠ .test) (
                  (let g := gate c.hdr s1;
                    (match (checkWindow c.hdr.addr (groupOf c.hdr.src g.2) c.hdr.mirror (c.hdr.opc == opAtomic) g.2).getRight? with
                      | some _ => ((hold 1 (c.hdr.opc ≠ opAtomic) (hold 1 (g.1 = .fresh ∨ g.1 = .againRead) ([true]))) ++
                        (hold 1 (c.hdr.opc = opAtomic) (
                            hold 1 (g.1 = .fresh) (
                              (match chestReserve c.hdr.src c.hdr.txid (chestRead cb c.hdr.src c.hdr.txid g.2) with
                                | some _ => ([true])
                                | _ => no 1)))))
                      | _ => no 2) ++
                    (match (checkWindow c.hdr.addr (groupOf c.hdr.src g.2) c.hdr.mirror (c.hdr.opc == opAtomic) g.2).getLeft? with
                      | some _ => (hold 1 (g.1 = .fresh) ([true]))
                      | _ => no 1) ++
                    (match getTgt s1 c.hdr.src with
                      | some k => (hold 3 (c.hdr.sync = false ∨ c.hdr.retry = true) (
                          hold 3 (k.inMap c.hdr.txid = true) (
                            (hold 1 (tget tx0 k.map c.hdr.txid = .pending) ([true])) ++
                            (hold 1 (tget tx0 k.map c.hdr.txid = .applied) (hold 1 (c.hdr.opc = opRead) ([true]))) ++
                            (hold 1 (tget tx0 k.map c.hdr.txid = .applied) (hold 1 (c.hdr.opc ≠ opRead) ([true]))))))
                      | _ => no 3)))))))
        | _ => no 8)))

theorem meets_Requests :
    met 13 [clauses (asked 5) 7 false [],
      clauses (cutS 5) 7 false [],
      clauses (pairP .applied (received { prd with retry := true, sync := false } 16 windowed)) 7 false [],
      clauses (asked 0) 7 false [],
      clauses (received prd 4096 windowed) 7 false [],
      clauses (received prd 16 { inState .test with prot := windowed.prot }) 7 false [],
      clauses (pairP .pending (received pwr 0 windowed)) 7 false [],
      clauses (pairP .applied (received pwr 0 windowed)) 7 false [],
      clauses (received { prd with addr := 0x100000000 } 4 windowed) 7 false [],
      clauses (received pat 2 windowed) 7 false []] = true := by
  decide +kernel

end Requests

namespace RequestsAnswered

def okR : PktHdr := { opc := opReadData, len := 1, src := 7, dst := 0, txid := 4, addr := respAddr 4 .ok }
def busyR : PktHdr := { opc := opReadData, src := 7, dst := 0, txid := 4, addr := respAddr 4 .busy }
def cut7 (s : State) : State := updPort 7 (fun x => { x with rt := { lost := true } }) s

/-- Which clauses of `Obligations.RequestsAnswered` have their hypotheses met. -/
def clauses (p : PortId) (s : State) (d : BitVec 18) (x : BitVec 20) : List Bool :=
  (hold 5 (s.acts = true) (
      (match firstPkt p (fun c => c.complete && decide (c.hdr.dst = s.die) && isRespOp c.hdr.opc) s with
        | some c => (([true]) ++
          ((hold 1 (badResponse c.hdr = true) ([true])) ++
            (match getSrc s c.hdr.src with
              | some k => (hold 3 (badResponse c.hdr = false) (
                  (hold 1 ((answered c.hdr).all (fun x => (k.reqs.find? (fun r => r.txid == x && fits r c.hdr)).isNone) = true) ([true])) ++
                  (match k.reqs.find? (fun r => r.txid == c.hdr.txid && fits r c.hdr) with
                    | some q => (hold 2 (c.hdr.txidLast = c.hdr.txid) (
                        hold 2 (c.hdr.txid < 2 ^ 20) (
                          hold 2 (c.bad = []) (
                            (hold 1 (c.hdr.resp ≠ 4) ([true])) ++
                            (hold 1 (c.hdr.resp = 4) (hold 1 (q.count < retryLim s) ([true])))))))
                    | _ => no 2)))
              | _ => no 3)))
        | _ => no 5))) ++
  (hold 4 (s.acts = true) (
      (match getReq d.toNat x.toNat s with
        | some q => ((match q.sent with
            | some t0 => (hold 3 (t0 + rspTimeout s ≤ s.tick) (
                (hold 2 (q.count < retryLim s) (
                    (match route d.toNat s with
                      | .port _ _ => ([true])
                      | _ => no 1) ++
                    (hold 1 (route d.toNat s = .none) ([true])))) ++
                (hold 1 (retryLim s ≤ q.count) ([true]))))
            | _ => no 3) ++
          (match q.busyAt with
            | some t0 => (hold 1 (t0 + 64 ≤ s.tick) (
                (match route d.toNat s with
                  | .port _ _ => ([true])
                  | _ => no 1)))
            | _ => no 1))
        | _ => no 4)))

theorem meets_RequestsAnswered :
    met 9 [clauses 7 (answeredBy okR (awaiting 1 (some 0) none)) 7 4,
      clauses 7 (answeredBy { okR with cls := 1 } run) 7 4,
      clauses 7 (answeredBy { okR with txid := 3, addr := respAddr 3 .ok } (awaiting 1 none none)) 7 4,
      clauses 7 (answeredBy busyR (awaiting 1 (some 0) none)) 7 4,
      clauses 7 (awaiting (retryLim run) (some 0) none) 7 4,
      clauses 7 (cut7 (awaiting 1 (some 0) none)) 7 4,
      clauses 7 (awaiting 1 none (some (run.tick - 64))) 7 4] = true := by
  decide +kernel

end RequestsAnswered

namespace Routes

def through : PktHdr := { opc := opRead, len := 1, src := 7, dst := 9, cls := 1, addr := 0x100 }
def spurS : State := { updRx 0 (fun x => { x with cup := [{ id := 3, slots := [through.slot, 16], need := 2 }] }) run with prot := { img := [(576, 1)] } }
def dueS (c : LossCause) (l : Bool) : State := updPort 7 (fun x => { x with rt := { lossDue := some c, lost := l } }) run
def schedS : State := updPort 0 (fun x => { x with sc := { x.sc with dValid := true, phases := List.replicate 16 true, peerTq := 5 }, pw := { x.pw with peerTick := some link.tick } }) { link with tb := { link.tb with state := .master } }
def respT : State := received { opc := opCompletion, len := 0, src := 7, dst := 9 } 0 run

/-- Which clauses of `Obligations.Routes` have their hypotheses met. -/
def clauses (p : PortId) (s : State) : List Bool :=
  hold 11 (s.acts = true) (
    (match firstPkt p (fun c => c.complete && decide (c.hdr.dst ≠ s.die)) s with
      | some c => ((match forwardPort p c.hdr s with
          | some o => (hold 1 (portLost o s = false) ([true]))
          | _ => no 1) ++
        (hold 2 ((match forwardPort p c.hdr s with | none => true | some o => portLost o s) = true) (
            (hold 1 (isRespOp c.hdr.opc = true) ([true])) ++
            (hold 1 (isRespOp c.hdr.opc = false) (hold 1 (c.hdr.opc ≠ opAtomicRelease) ([true]))))))
      | _ => no 3) ++
    (hold 3 (s.cyc = 0) (
        (match (s.port p).rt.lossDue with
          | some cause => (hold 3 ((s.port p).rt.lossTick ≤ s.tick) (
              (hold 1 ((s.port p).rt.lost = true) ([true])) ++
              (hold 2 ((s.port p).rt.lost = false) (
                  (hold 1 (cause = .engine) ([true])) ++
                  (hold 1 (cause ≠ .engine) ([true]))))))
          | _ => no 3))) ++
    (hold 1 (s.cyc = 0) (
        (match (s.port p).ln.coldDue with
          | some _ => (hold 1 (absent p s = false) (hold 1 (getF s (prtEng p) 0 5 ≠ 31) (hold 1 ((s.port p).ln.dueTick ≤ s.tick) ([true]))))
          | _ => no 1))) ++
    (hold 1 ((s.port p).rt.rstate = .draining) (hold 1 (relayOutstanding p s = false) ([true]))) ++
    (hold 1 ((s.port p).rt.rstate = .draining) (hold 1 ((s.port p).rt.drainFrom + rspTimeout s * (retryLim s + 1) ≤ s.tick) ([true]))) ++
    (hold 2 (s.cyc = 0) (
        (hold 1 (schedWanted p s = true) (hold 1 ((s.port p).sc.sched = false) ([true]))) ++
        (hold 1 (schedWanted p s = false) (hold 1 ((s.port p).sc.sched = true) ([true]))))))

theorem meets_Routes :
    met 11 [clauses 7 (updPort 7 (fun x => { x with rt := { rstate := .draining } }) run),
      clauses 0 spurS,
      clauses 0 schedS,
      clauses 0 (updPort 0 (fun x => { x with sc := { x.sc with sched := true } }) link),
      clauses 0 (updLn 0 (fun x => { x with coldDue := some false, dueTick := link.tick }) link),
      clauses 7 (received through 16 run),
      clauses 7 respT,
      clauses 7 (dueS .engine true),
      clauses 7 (dueS .training false),
      clauses 7 (dueS .engine false)] = true := by
  decide +kernel

end Routes

namespace FencesAndThreads

def pairedF : State := setSrc 5 (some { next := 77 }) run
def outF : SrcReq := { txid := 4, slots := [PktHdr.slot { opc := opWrite, dst := 7, txid := 4 }], client := .thread 0, flow := none }

/-- Which clauses of `Obligations.FencesAndThreads` have their hypotheses met. -/
def clauses (ip : IpId) (d : BitVec 18) (j : Nat) (th : ThreadId) (kind : AccessKind) (addr : BitVec 48) (n : BitVec 13) (data : List Byte) (s : State) : List Bool :=
  hold 6 (s.acts = true) (
    (hold 3 (s.mready = true) (
        (hold 1 ((getFence s ip).busy = true) ([true])) ++
        (match getSrc s d.toNat with
          | some _ => (hold 1 ((getFence s ip).busy = false) ([true]))
          | _ => no 1) ++
        (hold 1 ((getFence s ip).busy = false) (hold 1 (getSrc s d.toNat = none) ([true]))))) ++
    (hold 2 ((getFence s ip).busy = true) (
        (hold 1 (fenceDone (getFence s ip) s = true) (hold 1 (j ≠ ip.val) ([true]))) ++
        (hold 1 (fenceDone (getFence s ip) s = false) ([true])))) ++
    (hold 1 (runsThread th s = true) (
        (let x := (match (generalizing := false) kind with | .read => (kRead, n.toNat) | .write => (kWrite, data.length) | .atomic => (kAtomic, 32));
          hold 1 (1 ≤ x.2) (hold 1 (addr.toNat % 4096 + x.2 ≤ 4096 ∨ kind = .atomic) (hold 1 (j ≠ th.val) ([true])))))))

theorem meets_FencesAndThreads :
    met 6 [clauses 0 5 0 0 .read 0 0 [] (setFence 0 { dst := 7, busy := true, mark := 5 } (setSrc 7 (some { next := 6, reqs := [outF] }) run)),
      clauses 0 5 1 0 .read 0 1 [] run,
      clauses 0 5 0 0 .read 0 0 [] pairedF,
      clauses 0 5 1 0 .read 0 0 [] (setFence 0 { dst := 5, busy := true, mark := 77 } pairedF)] = true := by
  decide +kernel

end FencesAndThreads

namespace AtomicUnit

def lwA : LiveWord := { h := 0x100, ip := 0, win := 0, value := some 41, queue := [atom] }
def relH : PktHdr := { opc := opAtomicRelease, len := 0, src := 7, dst := 0, cls := 1, txid := 4 }
def relS (h : PktHdr) (s : State) : State := updRx 7 (fun x => { x with cup := [{ id := 0, slots := [h.slot], need := 1 }] }) s
def chestS (f : Option Nat) : State := updT (fun t => { t with chest := [{ src := 7, txid := 4, filled := f }] }) run

/-- Which clauses of `Obligations.AtomicUnit` have their hypotheses met. -/
def clauses (q : QuadId) (src : BitVec 18) (txid : BitVec 20) (p : PortId) (s : State) : List Bool :=
  hold 11 (s.acts = true) (
    (match (s.alane q).arrivals.head? with
      | some x => ((hold 1 ((s.alane q).words.any (fun w => w.h == x.word) = true) ([true])) ++
        (hold 1 ((s.alane q).words.any (fun w => w.h == x.word) = false) (hold 1 ((s.alane q).words.length < 64) ([true]))) ++
        (hold 1 ((s.alane q).words.any (fun w => w.h == x.word) = false) (hold 1 (64 ≤ (s.alane q).words.length) (hold 1 ((s.alane q).full = false) ([true])))))
      | _ => no 3) ++
    (match (s.alane q).words.find? (fun w => w.value.isSome && !w.queue.isEmpty) with
      | some w => (hold 2 ((s.alane q).words.find? (fun y => y.h == w.h) = some w) (
          (match w.value with
            | some _ => ((match w.queue.head? with
                | some _ => ((hold 1 (w.queue.length = 1) (hold 1 (w.writing = false) ([true]))) ++
                  (hold 1 (1 < w.queue.length ∨ w.writing = true) ([true])))
                | _ => no 2))
            | _ => no 2)))
      | _ => no 2) ++
    (match chestFind src.toNat txid.toNat s with
      | some e => ((match e.filled with
          | some f => ((hold 1 (f + effF s atmCtl 0 16 ≤ s.tick) ([true])) ++
            (hold 1 (s.tick < f + effF s atmCtl 0 16) ([true])))
          | _ => no 2))
      | _ => no 2) ++
    (match firstPkt p (fun c => c.complete && decide (c.hdr.dst = s.die) && c.hdr.opc == opAtomicRelease) s with
      | some c => ((hold 1 ((c.hdr.dup || c.hdr.part || c.hdr.mirror || c.hdr.cls % 4 != 1 || c.hdr.len != 0) = true) ([true])) ++
        (hold 3 ((c.hdr.dup || c.hdr.part || c.hdr.mirror || c.hdr.cls % 4 != 1 || c.hdr.len != 0) = false) (
            (match chestFind c.hdr.src c.hdr.txid s with
              | some e => ((hold 1 (e.filled.isSome = true) ([true])) ++
                (hold 1 (e.filled = none) ([true])))
              | _ => no 2) ++
            (hold 1 (chestFind c.hdr.src c.hdr.txid s = none) ([true])))))
      | _ => no 4))

theorem meets_AtomicUnit :
    met 11 [clauses 0 7 4 7 (lane { arrivals := [atom], words := [lwA] }),
      clauses 0 7 4 7 (relS relH (chestS (some 5))),
      clauses 0 7 4 7 (lane { arrivals := [atom] }),
      clauses 0 7 4 7 (lane { arrivals := [atom], words := (List.range 64).map (fun i => { h := 0x1000 + 8 * i, ip := 0, win := 0 }) }),
      clauses 0 7 4 7 (lane { words := [{ lwA with queue := [atom, atom] }] }),
      clauses 0 7 4 7 (chestS (some run.tick)),
      clauses 0 7 4 7 (relS relH run),
      clauses 0 7 4 7 (relS relH (chestS none)),
      clauses 0 7 4 7 (relS { relH with cls := 2 } run)] = true := by
  decide +kernel

end AtomicUnit

namespace SchedulesAndEpochs

def tcs (a : Nat) (s : State) : State := updRx 7 (fun x => { x with cup := [{ id := 0, slots := [PktHdr.slot { opc := opRead, len := 1, src := 7, dst := 0, cls := 2, sync := true, txid := 4, addr := 0x100 }, 16], need := 2, times := [run.cts - a, run.cts - a] }] }) { s with ports := [(7, { upPort with sc := { d := 10 } })] }
def pendS (k : Nat) (c : Bool) : State := { run with banks := { run.banks with pend := some { tick := run.tick + k, epoch := 5, digest := 77 }, copying := c, calStg := [(3, 8)] } }

/-- Which clauses of `Obligations.SchedulesAndEpochs` have their hypotheses met. -/
def clauses (p : PortId) (s : State) : List Bool :=
  hold 6 (s.acts = true) (
    (match firstPkt p (fun c => requestFor s c && c.timed) s with
      | some c => ((hold 1 (s.cts < deliverAt p c s) ([true])) ++
        (hold 1 (deliverAt p c s ≤ s.cts) ([true])) ++
        (hold 1 (s.cts = deliverAt p c s) ([true])) ++
        (hold 1 (deliverAt p c s < s.cts) (hold 1 ((s.port p).sc.slipped = false) ([true]))))
      | _ => no 4) ++
    (match s.banks.pend with
      | some a => (hold 1 (a.tick = s.tick) (hold 1 (s.cyc = 0) (hold 1 (s.banks.copying = false) ([true]))))
      | _ => no 1) ++
    (hold 1 (s.banks.copying = true) ([true])))

theorem meets_SchedulesAndEpochs :
    met 6 [clauses 7 (tcs 10 windowed),
      clauses 7 (tcs 0 windowed),
      clauses 7 (tcs 20 windowed),
      clauses 7 (pendS 0 false),
      clauses 7 (pendS 0 true)] = true := by
  decide +kernel

end SchedulesAndEpochs

namespace WorkbenchUnits

def foldingW : WbSeg := { sumSeg with next := 1, acc := [0x3F800000, 0x40000000], folding := some (run.cts, part 1) }
def otherW (i : Nat) : WbSeg := { sumSeg with use := .col 2 i 0 0, held := List.replicate 32 (part 1) }
def readyW : WbSeg := { foldingW with next := 2, folding := none, ready := some run.cts }

/-- Which clauses of `Obligations.WorkbenchUnits` have their hypotheses met. -/
def clauses (u : WbId) (b : Bool) (s : State) : List Bool :=
  hold 10 (s.acts = true) (
    (match nextContrib (s.wbUnit u) s.cts with
      | some x => (hold 4 ((s.wbUnit u).inFree ≤ s.cts) (
          (hold 1 (x.2.2 = .fold) ([true])) ++
          (hold 1 (x.2.2 = .hold) ([true])) ++
          (hold 1 (x.2.2 = .dup) ([true])) ++
          (hold 1 (x.2.2 = .full) ([true]))))
      | _ => no 4) ++
    (match foldDue (s.wbUnit u) s.cts with
      | some x => ((let t := nx (.foldComplete u b) s;
          (anyOf 2 ((t.wbUnit u).segs) (fun k =>
              hold 2 (k.use = x.1.use) (
                (hold 1 (x.2.poison = false) (hold 1 (b = false) ([true]))) ++
                (hold 1 (x.1.ncont ≤ x.1.next + 1) ([true]))))) ++
          (hold 1 (x.2.poison = true ∨ b = true) ([true]))))
      | _ => no 3) ++
    (match takeEncoded u s with
      | some _ => ([true])
      | _ => no 1) ++
    (hold 1 (stalledSeg u s = none) ([true])) ++
    (match stalledSeg u s with
      | some _ => ([true])
      | _ => no 1))

theorem meets_WorkbenchUnits :
    met 10 [clauses 7 false (unit [foldingW] [part 0]),
      clauses 7 false (unit [sumSeg] [part 0]),
      clauses 7 false (unit [sumSeg] [part 1]),
      clauses 7 false (unit [sumSeg, otherW 0, otherW 1] [part 1]),
      clauses 7 false (unit [{ foldingW with folding := some (run.cts, { part 1 with poison := true }) }] []),
      clauses 7 false (unit [readyW] [])] = true := by
  decide +kernel

end WorkbenchUnits

namespace CollectiveControl

def startC (k : Nat) : State := streaming { reducing with st := .wait, d := { reducing.d with startEn := true, start := (run.tick + k) % 2 ^ 32 } } run
def fetchC : State := streaming { st := .fetch, jobs := [{ n := 4, job := .desc, bytes := 64 }] } { run with banks := { run.banks with grpAct := [(3, 0x08008000)], memAct := [(1, 7)] } }
def ansC (r : Nat) (bs : List Byte) (s : State) : State := updT (fun x => { x with done := [{ client := .stream 1 4, resp := r, data := bs }] }) s

/-- Which clauses of `Obligations.CollectiveControl` have their hypotheses met. -/
def clauses (b : Bool) (u : StreamId) (s : State) : List Bool :=
  hold 10 (s.acts = true) (
    (hold 4 (s.mready = true) (
        (hold 1 (goRefused u s = true) ([true])) ++
        (hold 1 (goRefused u s = false) ([true])) ++
        (hold 1 ((s.stream u).st = .wait ∨ (s.stream u).st = .run) ([true])) ++
        (hold 1 ((s.stream u).st ≠ .wait) (hold 1 ((s.stream u).st ≠ .run) ([true]))))) ++
    (match s.tx.done.find? (fun a => match a.client with | .stream v n => v == u.val && (s.stream u).jobs.any (fun w => w.n == n && decide (w.job = .desc)) | _ => false) with
      | some a => (hold 2 ((s.stream u).st = .fetch) (
          (let d := ColDesc.ofBytes (nats a.data);
            (let s2 := (if b then grpUncorr d.group s else s);
              (let r := (if a.resp ≠ 0 then some 4 else if badColDesc (nats a.data) || cidTaken u d.cid s then some 3 else match groupMembers d.group s2 with | none => some 5 | some ms => if (ms.zipIdx.find? (fun e => e.1 == s.die)).isNone || hasTwice ms || (d.alg == 2 && layersSplit ms) then some 5 else none);
                (match r with
                  | some _ => ([true])
                  | _ => no 1) ++
                (hold 1 (r = none) ([true])))))))
      | _ => no 2) ++
    (hold 3 ((s.stream u).st = .wait) (
        hold 3 ((s.stream u).reserved = none) (
          (let late := ((s.stream u).d.startEn && decide ((s.tick % 2 ^ 32 + 2 ^ 32 - (s.stream u).d.start) % 2 ^ 32 < 2 ^ 31));
            (hold 2 (colReserved s + (s.stream u).d.demand ≤ (wbUnits s).length * wbScratch) (
                (hold 1 (late = true) ([true])) ++
                (hold 1 (late = false) ([true])))) ++
            (hold 1 ((wbUnits s).length * wbScratch < colReserved s + (s.stream u).d.demand) ([true])))))) ++
    (match (s.stream u).runTick with
      | some r => (hold 1 ((s.stream u).st = .wait) (hold 1 (r ≤ s.tick) (hold 1 (s.cyc = 0) ([true]))))
      | _ => no 1))

theorem meets_CollectiveControl :
    met 10 [clauses false 1 (streaming { reducing with st := .wait, runTick := some run.tick } run),
      clauses false 1 run,
      clauses false 1 (startC (2^32 - 5)),
      clauses false 1 (streaming { reducing with st := .wait, d := { reducing.d with chunkElem := 2 ^ 22, segElem := 2 ^ 22 } } run),
      clauses false 1 (ansC 3 [] fetchC),
      clauses false 1 (ansC 0 descBytes fetchC)] = true := by
  decide +kernel

end CollectiveControl

namespace ReducePackets

def rs : State := streaming reducing run
def movingR : State := streaming { reducing with d := { reducing.d with kind := 2 } } run
def outsideR : State := streaming { reducing with members := [0, 5] } run
def rd (x : Slot) (n : Nat) (s : State) : State := reduced x (List.replicate n 0) s
def dupR (s : State) : State := setTgt 7 (some { nextExp := 4, map := [(4, .pending)] }) (updRx 7 (fun r => { r with cup := r.cup.map (fun c => { c with slots := (c.slots.map (fun x => if x = c.slots.getD 0 0 then PktHdr.slot { PktHdr.ofSlot x with sync := false } else x)) }) }) s)
def openR : State := updWb 7 (fun x => { x with segs := [sumSeg] }) rs

/-- Which clauses of `Obligations.ReducePackets` have their hypotheses met. -/
def clauses (b : Bool) (p : PortId) (s : State) : List Bool :=
  hold 14 (s.acts = true) (
    (anyOf 4 ([(Instr.reduceFoldRx p b, fun k => decide (k ≤ 1), false), (Instr.reducePlaceRx p b, fun k => k == 2, false), (Instr.reduceReadyRx p b, fun k => k == 3, false), (Instr.reduceRestartRx p b, fun k => k == 4, false), (Instr.reduceAbortRx p b, fun k => k == 5, true)]) (fun e =>
        (match reduceAt p e.2.1 s with
          | some c => ((hold 1 (b = true) ([true])) ++
            (hold 1 (b = false) (hold 1 (s.bnd.adp = .test) ([true]))) ++
            (hold 2 (b = false) (
                hold 2 (s.bnd.adp ≠ .test) (
                  (let g := gate c.hdr s;
                    (hold 1 (g.1 ≠ .fresh) ([true])) ++
                    (hold 1 (g.1 = .fresh) (hold 1 (streamFor (sf (c.slots.getD 1 0) 0 32) e.2.2 s = none) ([true]))))))))
          | _ => no 4))) ++
    (hold 10 (s.bnd.adp ≠ .test) (
        (match reduceAt p (fun k => decide (k ≤ 1)) s with
          | some c => ((let r := c.slots.getD 1 0;
              (match streamFor (sf r 0 32) false s with
                | some u => ((let g := gate c.hdr s;
                    hold 3 (g.1 = .fresh) (
                      (let x := s.stream u;
                        (hold 1 (1 < x.d.kind) ([true])) ++
                        (match (x.plan (sf r 32 32)).2.find? (fun f => f.level == (if redPhase r = 1 then 2 else if x.d.alg = 2 then 1 else 0)) with
                          | some f => (hold 2 (x.d.kind ≤ 1) (
                              hold 2 (sf r 32 32 < x.d.chunks x.d.nelem) (
                                hold 2 (sf r 64 16 < x.d.segsOf x.d.nelem (sf r 32 32)) (
                                  hold 2 (redBytes r = x.d.size x.d.step (x.d.segLen x.d.nelem (sf r 32 32) (sf r 64 16))) (
                                    hold 2 (sf r 93 13 = f.ncont) (
                                      hold 2 (sf r 80 13 < f.ncont) (
                                        hold 2 ((x.sender (sf r 32 32) f.level (sf r 80 13)).map (fun m => x.members.getD m 0) = some c.hdr.src) (
                                          hold 2 (f.own ≠ some (sf r 80 13)) (
                                            hold 2 (x.gen (sf r 32 32) (sf r 64 16) ≤ sf r 109 4) (
                                              (let k : Contrib := { use := .col u (sf r 32 32) (sf r 64 16) f.level, gen := sf r 109 4, idx := sf r 80 13, fmt := x.d.step, data := reduceData c, poison := reducePoison c, pkt := some (p, c.id, remoteOf c.hdr 0), due := wholeAt p c g.2, timed := c.timed, slot := c.lastSlot };
                                                (match unitOf k.use s with
                                                  | some _ => (hold 1 (k.gen = x.gen (sf r 32 32) (sf r 64 16)) (hold 1 (x.again.contains (sf r 32 32, sf r 64 16) = false) ([true])))
                                                  | _ => no 1) ++
                                                (hold 1 (unitOf k.use s = none) (hold 1 (x.cursor ≤ sf r 32 32 * x.d.segs + sf r 64 16) ([true]))))))))))))))
                          | _ => no 2)))))
                | _ => no 3)))
          | _ => no 3) ++
        (match reduceAt p (fun k => k == 2) s with
          | some c => ((let r := c.slots.getD 1 0;
              (match streamFor (sf r 0 32) false s with
                | some u => ((let g := gate c.hdr s;
                    hold 3 (g.1 = .fresh) (
                      (let x := s.stream u;
                        (hold 1 (x.region (sf r 80 1 == 1) < sf r 32 48 + redBytes r) ([true])) ++
                        (hold 2 (sf r 32 48 + redBytes r ≤ x.region (sf r 80 1 == 1)) (
                            (hold 1 (x.members.contains c.hdr.src = false) ([true])) ++
                            (hold 1 (x.members.contains c.hdr.src = true) (hold 1 (redBytes r ≠ 0) ([true])))))))))
                | _ => no 3)))
          | _ => no 3) ++
        (anyOf 4 ([(Instr.reduceReadyRx p false, fun k => k == 3, false), (Instr.reduceRestartRx p false, fun k => k == 4, false), (Instr.reduceAbortRx p false, fun k => k == 5, true)]) (fun e =>
            (match reduceAt p e.2.1 s with
              | some c => ((let r := c.slots.getD 1 0;
                  (match streamFor (sf r 0 32) e.2.2 s with
                    | some u => ((let g := gate c.hdr s;
                        hold 4 (g.1 = .fresh) (
                          (hold 1 ((s.stream u).members.contains c.hdr.src = false) ([true])) ++
                          (hold 3 ((s.stream u).members.contains c.hdr.src = true) (
                              (hold 1 (e.1 = .reduceReadyRx p false) ([true])) ++
                              (hold 1 (e.1 = .reduceRestartRx p false) ([true])) ++
                              (hold 1 (e.1 = .reduceAbortRx p false) ([true])))))))
                    | _ => no 4)))
              | _ => no 4))))))

theorem meets_ReducePackets :
    met 14 [clauses false 7 (rd fold1 1 run),
      clauses false 7 (rd fold1 1 (inState .test)),
      clauses false 7 (rd fold1 1 rs),
      clauses false 7 (rd fold1 1 movingR),
      clauses false 7 (rd fold1 1 openR),
      clauses false 7 (rd (place 1) 1 rs),
      clauses false 7 (rd (place 0) 1 rs),
      clauses false 7 (rd (place 0) 1 outsideR),
      clauses false 7 (rd readySlot 0 rs),
      clauses false 7 (rd readySlot 0 outsideR),
      clauses false 7 (rd restart 0 rs),
      clauses false 7 (rd abortSlot 0 rs),
      clauses false 7 (dupR (rd fold1 1 rs)),
      clauses true 7 (rd fold1 1 run)] = true := by
  decide +kernel

end ReducePackets

namespace DmaCommands

def failedD : Chan := { st := .halted, cur := copy, fail := some { code := 0x12, dir := 0, addr := 0 } }
def shortD (s : State) : State := { s with regs := s.regs.filter (fun e => e.1 != chShd 5 8) }

/-- Which clauses of `Obligations.DmaCommands` have their hypotheses met. -/
def clauses (c : ChanId) (s : State) : List Bool :=
  (let img := ((List.range 16).flatMap (fun k => leBytes 4 (getReg s (chShd c k)).toNat));
    (anyOf 3 ([Instr.dmaStart c, .dmaLoad c, .dmaDoorbell c, .dmaStop c, .dmaResume c, .dmaSkip c, .dmaReset c, .dmaSwedge c]) (fun i =>
        (hold 1 (s.mready = false) ([true])) ++
        (hold 1 (s.mready = true) (hold 1 (s.acts = false) ([true]))) ++
        (hold 1 (s.mready = true) (
            hold 1 (s.acts = true) (
              hold 1 ((i = .dmaStart c ∧ (s.bnd.adp ≠ .run ∨ (ringMode c s = true ∧ (s.chan c).st ≠ .idle ∧ (s.chan c).st ≠ .stopped) ∨ (ringMode c s = false ∧ (s.chan c).st ≠ .stopped))) ∨ (i = .dmaLoad c ∧ (s.bnd.adp ≠ .run ∨ ringMode c s = true ∨ (s.chan c).shadow = true ∨ (s.chan c).st = .ringWait)) ∨ (i = .dmaDoorbell c ∧ (ringMode c s = false ∨ (s.bnd.adp ≠ .run ∧ s.bnd.adp ≠ .quiesce))) ∨ (i = .dmaStop c ∧ ((s.chan c).st = .idle ∨ (s.chan c).st = .stopping ∨ (s.chan c).st = .stopped)) ∨ (i = .dmaResume c ∧ ((s.chan c).st ≠ .halted ∨ (s.chan c).ovl = true)) ∨ (i = .dmaSkip c ∧ ((s.chan c).st ≠ .halted ∨ (s.chan c).wbFailed = true)) ∨ (i = .dmaReset c ∧ (s.chan c).st ≠ .idle ∧ (s.chan c).st ≠ .stopped ∧ (s.chan c).st ≠ .halted)) (
                [true])))))) ++
    (hold 22 (s.mready = true) (
        hold 22 (s.acts = true) (
          (hold 1 (s.bnd.adp = .run) (hold 1 (ringMode c s = true) (hold 1 ((s.chan c).st = .idle ∨ (s.chan c).st = .stopped) ([true])))) ++
          (hold 1 (s.bnd.adp = .run) (hold 1 (ringMode c s = false) (hold 1 ((s.chan c).st = .stopped) (hold 1 ((s.chan c).shadow = false) ([true]))))) ++
          (anyOf 2 ([Instr.dmaStart c, .dmaLoad c]) (fun i =>
              hold 2 ((i = .dmaStart c ∧ (s.chan c).st = .stopped ∧ (s.chan c).shadow = true) ∨ (i = .dmaLoad c ∧ (s.chan c).st = .idle ∧ (s.chan c).shadow = false)) (
                hold 2 (s.bnd.adp = .run) (
                  hold 2 (ringMode c s = false) (
                    (hold 1 (badHead img (paceEn c s) = false) ([true])) ++
                    (hold 1 (badHead img (paceEn c s) = true) ([true]))))))) ++
          (hold 1 (s.bnd.adp = .run) (
              hold 1 (ringMode c s = false) (hold 1 ((s.chan c).st ≠ .idle) (hold 1 ((s.chan c).st ≠ .ringWait) (hold 1 ((s.chan c).shadow = false) ([true])))))) ++
          (hold 3 (s.bnd.adp = .run ∨ s.bnd.adp = .quiesce) (
              hold 3 (ringMode c s = true) (
                (hold 1 ((s.chan c).st = .run) (hold 1 ((s.chan c).busy = true) (hold 1 ((s.chan c).pre = none) ([true])))) ++
                (hold 1 ((s.chan c).st = .ringWait) ([true])) ++
                (hold 1 ((s.chan c).st ≠ .run) (hold 1 ((s.chan c).st ≠ .ringWait) ([true])))))) ++
          (hold 2 ((s.chan c).st = .run) (
              (hold 1 (((s.chan c).busy || (s.chan c).ask || (s.chan c).waits.any (fun w => decide (w.job = .head))) = true) ([true])) ++
              (hold 1 (((s.chan c).busy || (s.chan c).ask || (s.chan c).waits.any (fun w => decide (w.job = .head))) = false) ([true])))) ++
          (hold 1 ((s.chan c).st = .ringWait) ([true])) ++
          (hold 1 ((s.chan c).st = .halting ∨ (s.chan c).st = .halted) ([true])) ++
          (hold 2 ((s.chan c).st = .halted) (
              hold 2 ((s.chan c).ovl = false) (
                (hold 1 ((s.chan c).wbFailed = true) ([true])) ++
                (hold 1 ((s.chan c).wbFailed = false) (hold 1 (badHead (s.chan c).cur (paceEn c s) = false) ([true])))))) ++
          (match (s.chan c).fail with
            | some _ => (hold 4 ((s.chan c).st = .halted) (
                hold 4 ((s.chan c).wbFailed = false) (
                  (hold 1 (ringMode c s = true) ([true])) ++
                  (hold 3 (ringMode c s = false) (
                      (hold 1 ((s.chan c).stopPend = true ∨ hStop (s.chan c).cur = true) ([true])) ++
                      (hold 1 (hIrq (s.chan c).cur = true) ([true])) ++
                      (hold 1 ((s.chan c).stopPend = false) (hold 1 (hStop (s.chan c).cur = false) (hold 1 ((s.chan c).shadow = false) ([true])))))))))
            | _ => no 4) ++
          (hold 1 ((s.chan c).st = .idle ∨ (s.chan c).st = .stopped ∨ (s.chan c).st = .halted) ([true])) ++
          (hold 1 (paceEn c s = true) (hold 1 (edges c s < 65535) ([true]))) ++
          (hold 1 (paceEn c s = true) (hold 1 (edges c s = 65535) ([true]))) ++
          (hold 1 (paceEn c s = false) ([true]))))))

theorem meets_DmaCommands :
    met 25 [clauses 5 (chan5 0 { failedD with cur := image 5 0 0 0 4 0 }),
      clauses 5 (chan5 1 {}),
      clauses 5 (chan5 1 { st := .run, busy := true }),
      clauses 5 (chan5 1 { st := .ringWait }),
      clauses 5 (chan5 8 {}),
      clauses 5 frozen,
      clauses 5 (inState .fault),
      clauses 5 (chan5 1 { st := .run }),
      clauses 5 (chan5 0 { st := .stopped }),
      clauses 5 (shortD (chan5 0 { st := .stopped, shadow := true })),
      clauses 5 (chan5 1 failedD),
      clauses 5 (chan5 1 { failedD with wbFailed := true }),
      clauses 5 (chan5 0 { failedD with stopPend := true }),
      clauses 5 (setF (chEdges 5) 0 16 65535 (chan5 8 {}))] = true := by
  decide +kernel

end DmaCommands

namespace DmaDescriptors

def extD (t : Nat) : List Nat := image (t * 16) 0 0x2000 0 256 0
def fet (resp : Nat) (d : List Nat) (x : Chan) : State := answer .head resp d (chan5 1 x)
def exd (resp : Nat) (d : List Nat) (m : Bool) (h : Nat) : State := answer .ext resp d (setF dmaCtl 0 11 8 (chan5 1 { st := .run, busy := true, cur := copy, hops := h, moving := m }))
def wbd (resp : Nat) (x : Chan) : State := answer .writeBack resp [] (setF (chRing 5) 0 5 3 (chan5 1 x))
def tabD (es : List Nat) (imax : Nat) : State := chan5 0 { st := .run, busy := true, cur := image (1 + 3 * 256) 0 0x1000 0 256 0, moving := true, tab := [(0, es)], piece := some { hop := 0, at_ := 0, sAddr := 0, dAddr := 0x1000, sDie := 0, dDie := 0, sFab := false, dFab := false, ip := 0, len := 256, p := [0x8000, 128 + 7 * 2 ^ 17 + imax * 2 ^ 32] } }
def hltD : Chan := { st := .halting, fail := some { code := 4, dir := 3, addr := 0 } }

/-- Which clauses of `Obligations.DmaDescriptors` have their hypotheses met. -/
def clauses (f : DmaJob → Bool) (c : ChanId) (s : State) : List Bool :=
  hold 20 (s.acts = true) (
    (match takeAnswer c f s with
      | some _ => ([true])
      | _ => no 1) ++
    (match takeAnswer c (fun j => match j with | .head => true | .prefetch => true | _ => false) s with
      | some x => ((let img := nats x.1.data;
          (hold 4 (x.2.1.job = .head) (
              (hold 1 ((s.chan c).st = .stopping) ([true])) ++
              (hold 3 ((s.chan c).st = .run ∨ (s.chan c).st = .ringWait) (
                  (hold 1 (x.1.resp ≠ 0) (hold 1 ((s.chan c).fail = none) ([true]))) ++
                  (hold 1 (x.1.resp = 0) (hold 1 (hOwn img = true) (hold 1 (badHead img (paceEn c s) = false) ([true])))) ++
                  (hold 1 (x.1.resp = 0) (hold 1 (hOwn img = false) ([true]))))))) ++
          (hold 1 (x.2.1.job = .prefetch) (hold 1 ((s.chan c).st = .run) ([true])))))
      | _ => no 5) ++
    (match takeAnswer c (fun j => decide (j = .ext)) s with
      | some x => (hold 3 ((s.chan c).st = .run ∨ (s.chan c).st = .stopping) (
          (let img := nats x.1.data;
            (hold 1 (x.1.resp ≠ 0 ∨ (x.1.resp = 0 ∧ (badExt img = true ∨ (dw img 0 4 4 = 2 ∧ (s.chan c).moving = true)))) (hold 1 ((s.chan c).fail = none) ([true]))) ++
            (hold 2 (x.1.resp = 0) (
                hold 2 (badExt img = false) (
                  hold 2 (dw img 0 4 4 ≠ 2 ∨ (s.chan c).moving = false) (
                    (let cut := (hExt img && decide (effF s dmaCtl 0 11 ≤ (s.chan c).hops + 1));
                      (hold 1 (cut = true) ([true])) ++
                      (hold 1 (cut = false) ([true]))))))))))
      | _ => no 3) ++
    (match takeAnswer c (fun j => decide (j = .writeBack)) s with
      | some x => ((hold 1 (x.1.resp ≠ 0) ([true])) ++
        (hold 4 (x.1.resp = 0) (
            (hold 1 (hIrq (s.chan c).cur = true) ([true])) ++
            (hold 1 ((s.chan c).st = .stopping ∨ (s.chan c).stopPend = true ∨ hStop (s.chan c).cur = true) ([true])) ++
            (hold 2 ((s.chan c).st ≠ .stopping) (
                hold 2 ((s.chan c).stopPend = false) (
                  hold 2 (hStop (s.chan c).cur = false) (
                    (hold 1 ((s.chan c).pre = none) ([true])) ++
                    (match (s.chan c).pre with
                      | some img => (hold 1 (badHead img (paceEn c s) = false) ([true]))
                      | _ => no 1))))))))
      | _ => no 5) ++
    (match (s.chan c).piece with
      | some k => (hold 2 ((s.chan c).moving = true) (
          hold 2 ((s.chan c).tabOk = false) (
            hold 2 ((s.chan c).st = .run ∨ (s.chan c).st = .stopping) (
              hold 2 (k.nidx ≤ (((s.chan c).tab.map (fun t => t.2.length)).foldl (· + ·) 0)) (
                (match ((List.range k.nidx).find? (fun i => (s.chan c).entry i != nullIdx && decide (k.imax ≤ (s.chan c).entry i))) with
                  | some _ => (hold 1 ((s.chan c).fail = none) ([true]))
                  | _ => no 1) ++
                (hold 1 (((List.range k.nidx).all (fun i => (s.chan c).entry i == nullIdx || (decide ((s.chan c).entry i < k.imax) && decide ((if hPattern (s.chan c).cur = 3 then k.sAddr else k.dAddr) + (s.chan c).entry i * 2 ^ k.oshift + k.elem ≤ 2 ^ 48)))) = true) (
                    [true])))))))
      | _ => no 2) ++
    (hold 1 ((s.chan c).st = .halting) (hold 1 ((s.chan c).waits.all (fun w => decide (w.job = .prefetch)) = true) ([true]))) ++
    (hold 1 ((s.chan c).st ≠ .halting ∨ (s.chan c).waits.all (fun w => decide (w.job = .prefetch)) = false) ([true])) ++
    (hold 2 (s.cyc = 0) (
        hold 2 ((s.chan c).busy = true) (
          hold 2 ((s.chan c).st = .run ∨ (s.chan c).st = .stopping) (
            hold 2 (getF s (chStall c) 0 16 ≤ (s.chan c).stall) (
              (hold 1 ((s.chan c).stalled = false) ([true])) ++
              (hold 1 ((s.chan c).stalled = true) ([true]))))))))

theorem meets_DmaDescriptors :
    met 20 [clauses (fun j => decide (j = .head)) 5 (fet 0 copy { st := .stopping }),
      clauses (fun j => decide (j = .head)) 5 (wbd 0 { st := .run, cur := image 5 0 0 0 4 0 }),
      clauses (fun j => decide (j = .head)) 5 (fet 7 [] { st := .run }),
      clauses (fun j => decide (j = .head)) 5 (fet 0 copy { st := .run }),
      clauses (fun j => decide (j = .head)) 5 (fet 0 (image 0 0 0 0 4 0) { st := .run }),
      clauses (fun j => decide (j = .head)) 5 (answer .prefetch 0 copy (chan5 1 { st := .run })),
      clauses (fun j => decide (j = .head)) 5 (exd 0 (extD 3) false 7),
      clauses (fun j => decide (j = .head)) 5 (exd 0 (extD 1) false 7),
      clauses (fun j => decide (j = .head)) 5 (exd 0 (image 18 0 0x2000 0 256 0x80) false 4000),
      clauses (fun j => decide (j = .head)) 5 (wbd 3 { st := .run, askWb := true }),
      clauses (fun j => decide (j = .head)) 5 (wbd 0 { st := .run, pre := some copy }),
      clauses (fun j => decide (j = .head)) 5 (wbd 0 { st := .stopping }),
      clauses (fun j => decide (j = .head)) 5 (tabD [2,8] 8),
      clauses (fun j => decide (j = .head)) 5 (tabD [2,7] 8),
      clauses (fun j => decide (j = .head)) 5 (chan5 0 hltD),
      clauses (fun j => decide (j = .head)) 5 (chan5 0 { st := .run, busy := true, stall := 65535 }),
      clauses (fun j => decide (j = .head)) 5 (chan5 0 { st := .run, busy := true, stall := 65535, stalled := true })] = true := by
  decide +kernel

end DmaDescriptors

namespace DmaTransfers

def kD : Piece := pieceOf 0 0 copy
def movD : Chan := { st := .run, busy := true, cur := copy, piece := some kD, moving := true, fence := some false }
def goD (i : Nat) (resp : Nat) (job : DmaJob) : State := answer job resp (List.replicate 256 i) (chan5 0 movD)
def pacedD : Chan := { movD with cur := image 17 0 0x1000 0 256 0 }
def burD (x : Chan) (n : Nat) : State := setF (chEdges 5) 0 16 n (chan5 8 x)

/-- Which clauses of `Obligations.DmaTransfers` have their hypotheses met. -/
def clauses (c : ChanId) (e : Fin 16) (s : State) : List Bool :=
  hold 10 (s.acts = true) (
    (match grantee e s with
      | some _ => ([true])
      | _ => no 1) ++
    (hold 3 (s.bnd.portsLow = false) (
        (let u := chansGo e s;
          (hold 1 (grantee e u = none ∨ engInSvc e u = false ∨ 512 ≤ engOut e u) ([true])) ++
          (match grantee e u with
            | some g => (hold 2 (engInSvc e u = true) (
                hold 2 (engOut e u < 512) (
                  ([true]) ++
                  (match (match g.2.job with | .write p _ => some p | _ => none) with
                    | some _ => (hold 1 ((u.chan g.1).piece ≠ none) (hold 1 ((u.chan g.1).fail = none) ([true])))
                    | _ => no 1))))
            | _ => no 2)))) ++
    (match takeAnswer c (fun j => match j with | .index _ => true | .read _ _ => true | .write _ _ => true | _ => false) s with
      | some x => ((hold 1 (x.1.resp = 0) ([true])) ++
        (hold 1 (x.1.resp ≠ 0) (hold 1 ((s.chan c).fail = none) ([true]))))
      | _ => no 2) ++
    (match (s.chan c).piece with
      | some k => (hold 3 (hPaced (s.chan c).cur = true) (
          hold 3 ((s.chan c).moving = true) (
            hold 3 ((s.chan c).st = .run ∨ (s.chan c).st = .stopping) (
              hold 3 ((s.chan c).allow ≤ (s.chan c).base + (s.chan c).rpos) (
                hold 3 ((s.chan c).allow < (s.chan c).base + k.len) (
                  (hold 1 (0 < (s.chan c).credit) ([true])) ++
                  (hold 1 ((s.chan c).credit = 0) (hold 1 (0 < edges c s) ([true]))) ++
                  (hold 1 ((s.chan c).credit = 0) (hold 1 (edges c s = 0) ([true])))))))))
      | _ => no 3) ++
    (hold 1 (engInSvc e s = true) (hold 1 (s.leaving.all (fun l => l.1 != unitDmaEng e) = true) ([true]))))

theorem meets_DmaTransfers :
    met 10 [clauses 5 13 (chan5 0 { movD with rpos := 256, src := [(0, List.replicate 256 7)] }),
      clauses 5 0 (goD 7 0 (.index 0)),
      clauses 5 0 (goD 7 3 (.read 0 256)),
      clauses 5 0 (burD { pacedD with credit := 2 } 0),
      clauses 5 0 (burD pacedD 1),
      clauses 5 0 (burD pacedD 0)] = true := by
  decide +kernel

end DmaTransfers

namespace EngineHandOvers

def sh0 : Nat := seng 0 link
def e00 : Nat := engOf 0 link
def hnd (p e : Nat) : HandOver := { port := p, since := link.cts, eng := e, eff := link.tick, reset := true, change := true }
def withH (h : HandOver) (s : State) : State := updQuad 0 (fun x => { x with hand := [h] }) s

/-- Which clauses of `Obligations.EngineHandOvers` have their hypotheses met. -/
def clauses (k : Fin 16) (eF sF : Bool) (e : EngineId) (q : QuadId) (s : State) : List Bool :=
  hold 28 (s.acts = true) (
    (hold 2 (s.cyc ≤ 3) (
        hold 2 ((s.quad q).attached = none) (
          hold 2 ((s.quad q).reset = none) (
            hold 2 (shadowFree q s = true) (
              (hold 1 (shadowable (16 * q.val + ((s.quad q).next + k.val) % 16) s = true) (
                  hold 1 (((List.range k.val).all (fun j => !shadowable (16 * q.val + ((s.quad q).next + j) % 16) s)) = true) ([true]))) ++
              (hold 1 (((List.range 16).all (fun i => !shadowable (16 * q.val + i) s)) = true) ([true]))))))) ++
    (match (s.quad q).attached with
      | some a => ((let p := 16 * q.val + a.1;
          hold 5 (a.1 < 16) (
            (hold 2 (s.cyc = 0) (
                hold 2 (a.2 + 2 ^ (s.quad q).dwell ≤ s.tick) (
                  (hold 1 (effF s (qdShdCtl q) 0 1 = 1) ([true])) ++
                  (hold 1 (effF s (qdShdCtl q) 0 1 = 0) ([true]))))) ++
            (hold 3 (a.2 < s.tick) (
                (hold 1 (eF = true) (hold 1 (sF = true) ([true]))) ++
                (hold 2 (engIn q e s = true) (
                    (hold 1 (e.val = engOf p s) ([true])) ++
                    (hold 1 (e.val ≠ engOf p s) (hold 1 (e.val = seng q s) ([true]))))))))))
      | _ => no 5) ++
    ((hold 1 (engIn q e s = false) ([true])) ++
      (hold 5 (engIn q e s = true) (
          hold 5 (((s.quad q).attached.all (fun a => decide (s.tick ≤ a.2) || engOf (16 * q.val + a.1) s != e.val)) = true) (
            hold 5 (((s.quad q).hand.all (fun h => h.eng != e.val)) = true) (
              (hold 1 (e.val = seng q s) (hold 1 ((s.quad q).attached = none) ([true]))) ++
              (match servedBy q e s with
                | some p => (hold 3 (e.val ≠ seng q s) (
                    (hold 1 (shadowFree q s = true) ([true])) ++
                    (match displaced q p s with
                      | some _ => (hold 1 (shadowFree q s = false) ([true]))
                      | _ => no 1) ++
                    (hold 1 (shadowFree q s = false) (hold 1 (displaced q p s = none) ([true])))))
                | _ => no 3) ++
              (hold 1 (servedBy q e s = none) (hold 1 (e.val ≠ seng q s) (hold 1 ((s.quad q).attached = none) ([true])))))))) ++
      (match (s.quad q).hand with
        | [h] => (hold 1 (h.eng = e.val) (hold 1 (engIn q e s = true) (hold 1 ((s.quad q).attached = none) (hold 1 (h.port / 16 = q.val) ([true])))))
        | _ => no 1) ++
      (match servedBy q e s with
        | some _ => (hold 1 (engIn q e s = true) ([true]))
        | _ => no 1)) ++
    (hold 1 (s.cyc ≠ 0) ([true])) ++
    (hold 1 (s.cyc = 0) (hold 1 (((s.quad q).hand.all (fun h => decide (s.tick < h.eff))) = true) ([true]))) ++
    (match (s.quad q).hand with
      | [h] => (hold 1 (s.cyc = 0) (hold 1 (h.eff ≤ s.tick) ([true])))
      | _ => no 1) ++
    (anyOf 10 ((s.quad q).hand) (fun h =>
        hold 10 (h.port / 16 = q.val) (
          hold 10 (h.eng < 32) (
            (hold 1 (h.eng = 31) ([true])) ++
            (hold 1 (h.eng ≠ 31) ([true])) ++
            (hold 6 (h.eng = 31 ∨ h.reset = false ∨ (s.port h.port).ln.training = none) (
                (hold 1 (h.test = none) ([true])) ++
                (match h.test with
                  | some _ => ([true])
                  | _ => no 1) ++
                (hold 1 (h.reset = false) ([true])) ++
                (hold 1 (h.eng ≠ 31) (hold 1 (h.change = true) ([true]))) ++
                (hold 2 (h.eng ≠ 31) (
                    hold 2 (h.reset = true) (
                      hold 2 ((s.port h.port).ln.lstate = .up) (
                        (hold 1 ((s.port h.port).pw.state ≠ .p2) (hold 1 ((s.port h.port).pw.state ≠ .p3) ([true]))) ++
                        (hold 1 ((s.port h.port).pw.state = .p2) ([true])))))))) ++
            (match (s.port h.port).ln.training with
              | some tr => (hold 2 (h.eng ≠ 31) (
                  hold 2 (h.reset = true) (
                    (hold 1 (tr.cold = false) ([true])) ++
                    (hold 1 (tr.cold = true) ([true])))))
              | _ => no 2))))))

theorem meets_EngineHandOvers :
    met 28 [clauses 0 false false 0 0 (withH (hnd 0 sh0) link),
      clauses 0 true true 0 0 (shadowed 0),
      clauses 0 false false 0 0 (withH (hnd 0 31) link),
      clauses 0 false false 0 0 (withH {hnd 0 e00 with reset := false, change := false, leave := [sh0]} link),
      clauses 0 false false 0 0 run,
      clauses 0 false false 0 0 { shadowed (link.tick - 2^16) with inForce := (setF (qdShdCtl 0) 0 1 0 link).regs },
      clauses 0 false false 0 0 (withH (hnd 9 sh0) link),
      clauses 0 false false 0 0 (withH {hnd 0 sh0 with test := some e00} link),
      clauses 0 false false 0 0 (withH (hnd 0 sh0) (powered .p2)),
      clauses 0 false false 0 0 (withH (hnd 0 sh0) (trn .verify true link)),
      clauses 0 false false 0 0 (withH (hnd 0 sh0) (trn .verify false link)),
      clauses 0 false false 0 0 (retireEng 0 e00 link),
      clauses 0 false false 0 0 { link with cts := link.cts + 5 },
      clauses 0 false false 16 0 link,
      clauses 0 false false 16 0 (shadowed 0),
      clauses 0 false false 16 0 (setF (qdShdSts 0) 0 5 31 link)] = true := by
  decide +kernel

end EngineHandOvers

namespace UnitFailures

def one : State := { link with lect := { link.lect with mode := .aOnly } }
def two : State := { link with lect := { link.lect with mode := .bOnly } }
def frec (c : Nat) : FaultRec := { cts := c, unit := 3 }
def heldS (c : Nat) (l : FaultLog) : State := { link with flt := { l with held := [frec c, frec (c-1)] } }

/-- Which clauses of `Obligations.UnitFailures` have their hypotheses met. -/
def clauses (p : PortId) (q : QuadId) (u : WbId) (a b : Bool) (s : State) : List Bool :=
  hold 25 (s.acts = true) (
    ((hold 5 ((s.quad q).reset = none) (
          (hold 4 (p.val / 16 = q.val) (
              (match (s.port p).ln.training with
                | some x => ((hold 1 (x.cold = true) ([true])) ++
                  (hold 1 (x.cold = false) ([true])))
                | _ => no 2) ++
              (hold 1 ((s.port p).ln.training = none) (hold 1 ((s.port p).ln.lstate = .up) ([true]))) ++
              (hold 1 ((s.port p).ln.training = none) (hold 1 ((s.port p).ln.lstate ≠ .up) ([true]))))) ++
          (hold 1 (p.val / 16 ≠ q.val) ([true])))) ++
      (hold 1 ((s.quad q).reset.isSome = true) ([true])) ++
      (match (s.quad q).reset with
        | some d => ((hold 2 (d + 64 ≤ s.tick) (
              (hold 1 (p.val / 16 = q.val) ([true])) ++
              (hold 1 (p.val / 16 ≠ q.val) ([true])))) ++
          (hold 1 (s.tick < d + 64) ([true])))
        | _ => no 3)) ++
    (hold 1 (getF s wbSts u 1 = 1) (hold 1 ((s.leaving.all (fun l => l.1 != unitWb u)) = true) ([true]))) ++
    (hold 1 (s.bnd.adp ≠ .fault) ([true])) ++
    ((hold 1 (s.tst.run = none) ([true])) ++
      (match s.tst.run with
        | some _ => ([true])
        | _ => no 1)) ++
    (hold 3 (s.lect.dead = false) (
        (hold 1 (s.lect.mode = .pair) ([true])) ++
        (hold 1 (s.bnd.adp ≠ .fault) (hold 1 ((s.lect.mode = .aOnly ∧ a = true) ∨ (s.lect.mode = .bOnly ∧ b = true)) ([true]))) ++
        (hold 1 ((s.lect.mode = .aOnly ∧ a = false) ∨ (s.lect.mode = .bOnly ∧ b = false)) ([true])))) ++
    (hold 2 (s.lect.restart.isSome = true) (
        (hold 1 (s.bnd.access = none) ([true])) ++
        (match s.bnd.access with
          | some _ => ([true])
          | _ => no 1))) ++
    (hold 1 ((s.flt.held.all (fun r => decide (s.lect.ended.getD 0 < r.cts))) = true) ([true])) ++
    (hold 1 ((s.flt.held.all (fun r => decide (s.lect.ended.getD 0 < r.cts))) = false) ([true])) ++
    (hold 1 (s.flt.held = []) ([true])) ++
    (match s.flt.held.head? with
      | some h => ((let k := leastRec h s.flt.held.tail;
          (hold 1 (s.cts < k.1.cts + 16) ([true])) ++
          (hold 3 (k.1.cts + 16 ≤ s.cts) (
              (hold 1 (s.flt.count < 1024) ([true])) ++
              (hold 1 (1024 ≤ s.flt.count) (hold 1 (getF s fltCtl 0 1 = 0) ([true]))) ++
              (hold 1 (1024 ≤ s.flt.count) (hold 1 (getF s fltCtl 0 1 = 1) ([true])))))))
      | _ => no 4))

theorem meets_UnitFailures :
    met 25 [clauses 0 0 7 false false (nx (.lecternMismatch true true) link),
      clauses 0 0 7 false false (updQuad 0 (fun x => { x with reset := some (link.tick - 64) }) link),
      clauses 0 0 7 false false { heldS 5 {} with lect := { link.lect with ended := some 9 } },
      clauses 0 0 7 false false { run with tst := { run := some { job := { why := .run, unit := 0x880, budget := 9 }, began := 0 } } },
      clauses 0 0 7 false false { nx (.lecternMismatch true true) link with bnd := { link.bnd with access := some { write := true, agent := false, addr := 0x1000, data := 1, since := 0 } } },
      clauses 0 0 7 false false (trn .verify true link),
      clauses 0 0 7 false false (trn .verify false link),
      clauses 0 0 7 false false (updQuad 0 (fun x => { x with reset := some (link.tick - 63) }) link),
      clauses 0 0 7 false false one,
      clauses 0 0 7 false false (heldS 5 {count := 1024}),
      clauses 0 0 7 false false (setF fltCtl 0 1 1 (heldS 5 {count := 1024, wptr := 3})),
      clauses 0 0 7 false true two,
      clauses 0 3 7 false false link,
      clauses 16 0 7 false false (updQuad 0 (fun x => { x with reset := some (link.tick - 64) }) link)] = true := by
  decide +kernel

end UnitFailures

namespace ProtectionChange

def armedC : ArmedChange := { fm := true, dig := 0, nonce := 0, tick := run.tick }
def own : ArmedChange := { armedC with fm := false }
def oldS : State := locked 2 (some { armedC with tick := run.tick - 65536 })
def at3 (c : ArmedChange) (d : Nat) : State := { locked 3 (some c) with prot := { (locked 3 (some c)).prot with applyAt := some d, stg := [(4, 0x1029)], stgKey := some (List.replicate 32 1) } }
def fmReq (s : State) : State := { s with plv := { s.plv with armed := some { path := .mailbox, bytes := List.replicate 64 0 } } }

/-- Which clauses of `Obligations.ProtectionChange` have their hypotheses met; `good` stands for the check of the staged image against
the digest of the change (`digest_matches`, `digest_differs`). -/
def clauses (a bad : Bool) (w : Word) (k : Fin 8) (s : State) (good : Bool) : List Bool :=
  hold 24 (s.acts = true) (
    (hold 14 (s.mready = true) (
        (let x := (decide (pstate s = 0) && a && lockHeld s);
          (anyOf 1 ([Instr.proLockRel a, .proStgWrite a w, .proKeyStgWrite a k w, .proCmdArm a, .proCmdCommit a, .proCmdAbort a]) (fun _ =>
              hold 1 (a = false ∨ lockHeld s = false) ([true]))) ++
          (anyOf 1 ([Instr.proStgWrite a w, .proKeyStgWrite a k w]) (fun _ =>
              hold 1 (x = false) ([true])))) ++
        (hold 12 (lockHeld s = true) (
            (hold 1 (pstate s = 0) ([true])) ++
            (hold 1 (pstate s = 0) ([true])) ++
            (hold 9 (armExpired s = false) (
                (hold 1 (pstate s ≠ 0) ([true])) ++
                (hold 1 (pstate s = 0) ([true])) ++
                (hold 1 (s.prot.change = none) ([true])) ++
                (match s.prot.change with
                  | some c => ((hold 1 (pstate s ≠ 2) ([true])) ++
                    (hold 1 (pstate s = 2) (hold 1 (c.fm = false ∨ c.dig ≠ argDig s ∨ c.nonce ≠ argNonce s) ([true]))) ++
                    (hold 1 (pstate s = 2) (hold 1 (c.fm = true) (hold 1 (c.dig = argDig s) (hold 1 (c.nonce = argNonce s) ([true]))))))
                  | _ => no 3) ++
                (hold 2 (pstate s = 1 ∨ pstate s = 2) (
                    (hold 1 (pstate s = 2 ∨ s.plv.armed = none) ([true])) ++
                    (hold 1 (pstate s = 1) (hold 1 (s.plv.armed.isSome) ([true]))))) ++
                (hold 1 (pstate s ≠ 1) (hold 1 (pstate s ≠ 2) ([true]))))) ++
            (hold 1 (armExpired s = true) ([true])))))) ++
    (hold 1 (lockHeld s = true) (hold 1 (s.prot.lockTick + 65536 ≤ s.tick) ([true]))) ++
    (hold 1 (lockHeld s = false ∨ s.tick < s.prot.lockTick + 65536) ([true])) ++
    (hold 1 (s.prot.change = none ∨ pstate s ≠ 1) ([true])) ++
    (match s.prot.change with
      | some c => (hold 3 (pstate s = 1) (
          (hold 1 (bad = true ∨ (good) = false) ([true])) ++
          (hold 2 (bad = false) (
              hold 2 ((good) = true) (
                (hold 1 (s.bnd.adp = .boot) (hold 1 (c.fm = false) ([true]))) ++
                (hold 1 (s.bnd.adp ≠ .boot ∨ c.fm = true) ([true])))))))
      | _ => no 3) ++
    (match s.prot.applyAt with
      | some d => ((match s.prot.change with
          | some _ => ((hold 1 (s.cyc = 0) (hold 1 (d ≤ s.tick) ([true]))) ++
            (hold 1 (s.cyc ≠ 0 ∨ s.tick < d) ([true])))
          | _ => no 2))
      | _ => no 2) ++
    (hold 1 (armExpired s = true) ([true])) ++
    (hold 1 (armExpired s = false) ([true])))

theorem meets_ProtectionChange :
    met 24 [clauses false false 0 0 (locked 0 none) false,
      clauses false false 0 0 (locked 1 (some { own with dig := stgDigest run + 1 })) false,
      clauses false false 0 0 oldS false,
      clauses false false 0 0 (locked 2 (some armedC)) false,
      clauses false false 0 0 (locked 2 (some own)) false,
      clauses false false 0 0 (fmReq (locked 1 (some armedC))) false,
      clauses false false 0 0 (locked 1 (some {own with dig := stgDigest run})) true,
      clauses false false 0 0 { locked 1 (some {own with dig := stgDigest run}) with bnd := up .boot } true,
      clauses false false 0 0 (at3 armedC run.tick) false,
      clauses false false 0 0 (at3 armedC (run.tick+1)) false,
      clauses false false 0 0 { locked 0 none with cts := run.cts + 65536 * 1024 } false] = true := by
  decide +kernel

theorem digest_matches :
    let s := locked 1 (some { own with dig := stgDigest run })
    (imageOk s.prot.stg s.die && stgDigest s == stgDigest run) = true := by
  intro s
  have h : imageOk s.prot.stg s.die = true := by decide +kernel
  have e : stgDigest s = stgDigest run := rfl
  rw [h, e]
  simp

theorem digest_differs :
    let s := locked 1 (some { own with dig := stgDigest run + 1 })
    (imageOk s.prot.stg s.die && stgDigest s == stgDigest run + 1) = false := by
  intro s
  have e : stgDigest s = stgDigest run := rfl
  rw [e]
  simp

end ProtectionChange

namespace PlovirkoTransport

def at_ (x : Slot) (s : State) : State := updRx 7 (fun y => { y with hat := [x] }) s
def ctx (next : Nat) (b : List Nat) (s : State) : State := updPlv (fun y => { y with ctxs := [{ src := 7, pktid := 9, next := next, bytes := b, tick := run.tick }] }) s
def most : State := updPlv (fun y => { y with ctxs := List.replicate 8 { src := 8, pktid := 9, next := 0, bytes := [], tick := run.tick } }) run
def oldC : State := { ctx 1 [] run with cts := run.cts + 256 * 1024 }
def sentS : State := updPlv (fun y => { y with sent := [(7, fragment 0 0 1 0, run.tick - 64)] }) (updTx 7 (fun y => { y with hatPlv := [fragment 0 0 1 0] }) (updPort 7 (fun y => { y with cr := { y.cr with hsentPlv := y.cr.peerFreePlv + 16 } }) run))
def rI : List Nat := ask 0x0100 0 []
def other (dst hops : Nat) : Slot := fragment 0 0 1 hops + BitVec.ofNat 128 (dst * 2^24)
def relayS (s : State) : State := { s with prot := { img := [(576, 1)] } }
def keptS : State := updPlv (fun y => { y with kept := [{ src := 7, opc := 0x100, seq := 0, nonce := 0, reply := [1,2,3] }] }) run

/-- Which clauses of `Obligations.PlovirkoTransport` have their hypotheses met. -/
def clauses (r : PlvReq) (pay : List Nat) (p : PortId) (src : Nat) (b : List Nat) (src2 : BitVec 18) (id2 : BitVec 8) (s : State) : List Bool :=
  ((hold 1 (s.alive = true) (hold 1 (s.plv.tapReq = none) (hold 1 ((s.plv.armed.all (fun r => decide (r.path ≠ .tap))) = true) ([true])))) ++
    (hold 1 (s.alive = false ∨ s.plv.tapReq.isSome = true ∨ (s.plv.armed.any (fun r => decide (r.path = .tap))) = true) ([true]))) ++
  (match nextReq s with
    | some r => ((hold 1 (unknownOpcode r.bytes = true) ([true])) ++
      (hold 1 (unknownOpcode r.bytes = false) ([true])))
    | _ => no 2) ++
  (hold 1 (nextReq s = none) ([true])) ++
  ((hold 1 (r.path = .tap) ([true])) ++
    (hold 1 (r.path = .mailbox) (hold 1 (pay.length ≤ 480) ([true]))) ++
    (match r.path with
      | .remote _ _ => ([true])
      | _ => no 1)) ++
  (hold 11 (s.acts = true) (
      hold 11 (s.lect.dead = false) (
        hold 11 (s.lect.restart = none) (
          (hold 1 ((s.port p).rx.hat.find? isFragment = none) ([true])) ++
          (match (s.port p).rx.hat.find? isFragment with
            | some x => ((let u := updPort p (fun q => { q with rx := { q.rx with hat := q.rx.hat.erase x }, cr := { q.cr with hfreePlv := (q.cr.hfreePlv + 1) % 65536 } }) s;
                (hold 1 (2 ≤ sf x 60 2 ∨ 65 < sf x 8 7) ([true])) ++
                (hold 2 (sf x 60 2 < 2) (
                    hold 2 (sf x 8 7 ≤ 65) (
                      hold 2 (sf x 24 18 ≠ s.die) (
                        (let y := forwardPort p { PktHdr.ofSlot 0 with src := sf x 42 18, dst := sf x 24 18 } u;
                          (hold 1 ((y.all (fun k => portLost k u)) = true) ([true])) ++
                          (match y with
                            | some k3 => (hold 1 (portLost k3 u = false) ([true]))
                            | _ => no 1)))))) ++
                (hold 7 (sf x 60 2 < 2) (
                    hold 7 (sf x 8 7 ≤ 65) (
                      hold 7 (sf x 24 18 = s.die) (
                        (match plvCtx (sf x 42 18) (sf x 16 8) s with
                          | some c => ((hold 1 (c.next ≠ sf x 8 7) ([true])) ++
                            (hold 3 (c.next = sf x 8 7) (
                                (hold 1 (sf x 15 1 = 0) (hold 1 ((plvSize (c.bytes ++ leBytes 8 (sf x 64 64)) + 7) / 8 ≠ sf x 8 7 + 1) ([true]))) ++
                                (hold 1 (sf x 15 1 = 1) (hold 1 ((plvSize (c.bytes ++ leBytes 8 (sf x 64 64)) + 7) / 8 ≠ sf x 8 7 + 1) ([true]))) ++
                                (hold 1 (sf x 15 1 = 1) (hold 1 ((plvSize (c.bytes ++ leBytes 8 (sf x 64 64)) + 7) / 8 = sf x 8 7 + 1) ([true]))))))
                          | _ => no 4) ++
                        (hold 3 (plvCtx (sf x 42 18) (sf x 16 8) s = none) (
                            (hold 1 (sf x 8 7 = 0) (hold 1 (sf x 15 1 = 0) (hold 1 (s.plv.ctxs.length < 8) ([true])))) ++
                            (hold 1 (sf x 8 7 ≠ 0) ([true])) ++
                            (hold 1 (sf x 8 7 = 0) (hold 1 (8 ≤ s.plv.ctxs.length) ([true])))))))))))
            | _ => no 10))))) ++
  (let o := s.plv.kept.find? (fun k => k.src == src && k.opc == plvOpc b && k.seq == plvF b 32 16 && k.nonce == plvNonce b);
    (hold 1 (o = none ∨ (plvTag b = true ∧ tagRight b s = false)) ([true])) ++
    (match o with
      | some _ => (hold 1 (plvTag b = false ∨ tagRight b s = true) ([true]))
      | _ => no 1)) ++
  (hold 3 (s.acts = true) (
      (hold 1 (plvCtx src2.toNat id2.toNat s = none) ([true])) ++
      (match plvCtx src2.toNat id2.toNat s with
        | some c => ((hold 1 (c.tick + 256 ≤ s.tick) ([true])) ++
          (hold 1 (s.tick < c.tick + 256) ([true])))
        | _ => no 2))) ++
  (hold 2 (s.acts = true) (
      (match (stamps p s).head? with
        | some e => ((hold 1 (e.2.2 + 64 ≤ s.tick) (hold 1 ((s.port p).tx.hatPlv.head? = some e.2.1) (hold 1 (plvRoom (s.port p).cr = 0) ([true])))) ++
          (hold 1 (s.tick < e.2.2 + 64 ∨ plvRoom (s.port p).cr ≠ 0) ([true])))
        | _ => no 2)))

theorem meets_PlovirkoTransport :
    met 26 [clauses ⟨.tap, rI⟩ rI 7 0 rI 7 9 sentS,
      clauses ⟨.tap, rI⟩ rI 0 0 rI 7 9 (tap rI run),
      clauses ⟨.tap, rI⟩ rI 7 0 rI 7 9 (at_ (fragment 1 0 5 0) (ctx 1 [1] run)),
      clauses ⟨.tap, rI⟩ rI 0 0 rI 7 9 (tap (ask 0xFFFF 0 []) run),
      clauses ⟨.tap, rI⟩ rI 0 0 rI 7 9 oldC,
      clauses ⟨.tap, rI⟩ rI 0 7 rI 7 9 keptS,
      clauses ⟨.tap, rI⟩ rI 7 0 rI 7 9 (at_ (fragment 0 0 1 2) run),
      clauses ⟨.tap, rI⟩ rI 7 0 rI 7 9 (at_ (fragment 3 0 5 0) (ctx 1 [1] run)),
      clauses ⟨.tap, rI⟩ rI 7 0 rI 7 9 (at_ (fragment 1 1 5 0) (ctx 1 (rI.take 8) run)),
      clauses ⟨.tap, rI⟩ rI 7 0 rI 7 9 (at_ (fragment 3 1 0 0) (ctx 3 (rI.take 24) run)),
      clauses ⟨.tap, rI⟩ rI 7 0 rI 7 9 (at_ (fragment 0 0 1 0) run),
      clauses ⟨.tap, rI⟩ rI 7 0 rI 7 9 (at_ (fragment 1 0 1 0) run),
      clauses ⟨.tap, rI⟩ rI 7 0 rI 7 9 (at_ (fragment 0 0 1 0) most),
      clauses ⟨.tap, rI⟩ rI 7 0 rI 7 9 (at_ (other 1 0) run),
      clauses ⟨.tap, rI⟩ rI 7 0 rI 7 9 (at_ (other 1 0) (relayS run)),
      clauses ⟨.tap, rI⟩ rI 7 0 rI 7 9 { sentS with cts := sentS.cts - 1024 },
      clauses ⟨.mailbox, rI⟩ rI 0 0 rI 7 9 run,
      clauses ⟨.remote 7 9, rI⟩ rI 0 0 rI 7 9 run] = true := by
  decide +kernel

end PlovirkoTransport

namespace PlovirkoChecks

def mk3 (pl : List Nat) (s : State) : List State := ([0x0100,0x0101,0x0102,0x0103,0x0104,0x0200,0x0201,0x0202,0x0203,0x0204,0x0205,0x0206,0x0207,0x0208,0x0300,0x0301,0x0302,0x0303,0x0304,0x0305,0x0306,0x0307,0x0400,0x0401,0x0402,0x0403,0x0404,0x0500,0x0501,0x0502,0x0503,0x0504,0x0505,0x0600,0x0601,0x0602,0x0700,0x0701,0x0702,0x0703,0x0800,0x0801,0x0802,0x0803]).map (fun o => tap (ask o 0xFFFF pl) s)
def remoteS : State := updPlv (fun x => { x with queue := [⟨.remote 7 9, ask 0x0103 0 [1, 0, 0, 0]⟩] }) (inState .boot)

/-- Which clauses of `Obligations.PlovirkoChecks` have their hypotheses met. -/
def clauses (bad : Option (Fin 1024)) (b : Bool) (s : State) : List Bool :=
  anyOf 5 ([((Instr.ident, 0x0100) : Instr × Nat), (.stateGet, 0x0101), (.stateSet, 0x0102), (.dieidSet, 0x0103), (.portMaskSet, 0x0104), (.portStatus, 0x0200), (.portTrain, 0x0201), (.portWidth, 0x0202), (.portLose, 0x0203), (.portReturn, 0x0204), (.laneStatus, 0x0205), (.laneReturn, 0x0206), (.engineReturn, 0x0207), (.unitReturn, 0x0208), (.calWrite, 0x0300), (.calRead, 0x0301), (.flowWrite, 0x0302), (.flowRead, 0x0303), (.groupWrite, 0x0304), (.groupRead, 0x0305), (.memberWrite, 0x0306), (.memberRead, 0x0307), (.protStage, 0x0400), (.protArm, 0x0401), (.protCommit, 0x0402), (.protAbort, 0x0403), (.protStatus, 0x0404), (.bistRun, 0x0500), (.bistStatus, 0x0501), (.bistAbort, 0x0502), (.repairSoft, 0x0503), (.repairBurn, 0x0504), (.repairRead, 0x0505), (.dcalReq, 0x0600), (.calCfgSet, 0x0601), (.calStatus, 0x0602), (.logRead bad, 0x0700), (.logCtl, 0x0701), (.regRead, 0x0702), (.regWrite, 0x0703), (.epochStatus, 0x0800), (.epochSet b, 0x0801), (.epochCancel, 0x0802), (.timeStage, 0x0803)]) (fun x =>
    (hold 1 ((nextReq s).all (fun r => unknownOpcode r.bytes || plvOpc r.bytes != x.2) = true) ([true])) ++
    (match nextReq s with
      | some r => ((match opRow x.2 with
          | some o => (hold 4 (unknownOpcode r.bytes = false) (
              hold 4 (plvOpc r.bytes = x.2) (
                (hold 1 (lengthOk o.len r.bytes = false) ([true])) ++
                (hold 1 (lengthOk o.len r.bytes = true) (hold 1 (tagOk o r s = false) ([true]))) ++
                (hold 2 (lengthOk o.len r.bytes = true) (
                    hold 2 (tagOk o r s = true) (
                      (hold 1 (o.legal.contains s.bnd.adp.code = false) ([true])) ++
                      (hold 1 (o.legal.contains s.bnd.adp.code = true) (hold 1 (unitOk o.units (plvUnit r.bytes) = false) ([true])))))))))
          | _ => no 4))
      | _ => no 4))

theorem meets_PlovirkoChecks :
    met 5 [clauses none false remoteS,
      clauses none false ((mk3 [] run).getD 0 run),
      clauses none false ((mk3 [] run).getD 2 run),
      clauses none false ((mk3 [0,0,0,0] run).getD 3 run)] = true := by
  decide +kernel

end PlovirkoChecks

namespace PlovirkoReads

def rq (opc unit : Nat) (pay : List Nat) (s : State) : State := tap (ask opc unit pay) s
def logS : State := { run with flt := { ring := [(5, some { cts := 1 })], count := 1 } }
def pendS : State := { link with banks := { pend := some { tick := 5, epoch := 3, digest := 4 } } }
def skewS : State := updPort 3 (fun x => { x with sc := { x.sc with skew := true } }) pendS

/-- Which clauses of `Obligations.PlovirkoReads` have their hypotheses met. -/
def clauses (bad : Option (Fin 1024)) (s : State) : List Bool :=
  (match nextReq s with
    | some r => ((let p := plvPay r.bytes;
        (anyOf 1 ([((Instr.portStatus, 0x0200, [prtLmap (plvUnit r.bytes - 0x200), prtLinkSts (plvUnit r.bytes - 0x200), prtRoute (plvUnit r.bytes - 0x200), prtEng (plvUnit r.bytes - 0x200), prtPwrSts (plvUnit r.bytes - 0x200), prtLtrn (plvUnit r.bytes - 0x200), prtSchedSts (plvUnit r.bytes - 0x200)]) : Instr × Nat × List Nat), (.laneStatus, 0x0205, [lnSts (plvUnit r.bytes), lnErrcnt (plvUnit r.bytes), lnPiloterr (plvUnit r.bytes), lnTune (plvUnit r.bytes), lnEye (plvUnit r.bytes)]), (.protStatus, 0x0404, [proSts, proCurDig 0, proCurDig 1, proStgDig 0, proStgDig 1, proArmDig 0, proArmDig 1, proArmTick])]) (fun e =>
            hold 1 (admitted e.2.1 r s = true) ([true]))) ++
        (hold 1 (admitted 0x0100 r s = true) ([true])) ++
        (hold 1 (admitted 0x0101 r s = true) ([true])) ++
        (hold 1 (admitted 0x0501 r s = true) ([true])) ++
        (hold 1 (admitted 0x0602 r s = true) ([true])) ++
        (hold 2 (admitted 0x0800 r s = true) (
            (match s.banks.pend with
              | some _ => ([true])
              | _ => no 1) ++
            ([true]))) ++
        (anyOf 2 ([((Instr.calRead, 0x0301, .cal (plvUnit r.bytes - 0x200)) : Instr × Nat × StgTab), (.flowRead, 0x0303, .flow), (.groupRead, 0x0305, .grp), (.memberRead, 0x0307, .mem)]) (fun e =>
            hold 2 (admitted e.2.1 r s = true) (
              (hold 1 (spanOk (payNum p 0 2) (payNum p 2 2) 112 e.2.2.size = true) (hold 1 (payNum p 4 1 ≤ 1) (hold 1 (payNum p 5 3 = 0) ([true])))) ++
              (hold 1 (spanOk (payNum p 0 2) (payNum p 2 2) 112 e.2.2.size = false ∨ 1 < payNum p 4 1 ∨ payNum p 5 3 ≠ 0) ([true]))))) ++
        (hold 2 (admitted 0x0505 r s = true) (
            (hold 1 (spanOk (payNum p 0 2) (payNum p 2 2) 29 640 = true) (hold 1 (payNum p 4 4 = 0) ([true]))) ++
            (hold 1 (spanOk (payNum p 0 2) (payNum p 2 2) 29 640 = false ∨ payNum p 4 4 ≠ 0) ([true])))) ++
        (hold 3 (admitted 0x0700 r s = true) (
            (let ix := (List.range (payNum p 2 1)).map (fun k => (payNum p 0 2 + k) % 1024);
              (hold 2 (payNum p 0 2 ≤ 1023) (
                  hold 2 (1 ≤ payNum p 2 1) (
                    hold 2 (payNum p 2 1 ≤ 14) (
                      hold 2 (payNum p 3 1 = 0) (
                        (hold 1 ((bad.all (fun i => !ix.contains i.val)) = true) ([true])) ++
                        (match bad with
                          | some i => (hold 1 (ix.contains i.val = true) ([true]))
                          | _ => no 1)))))) ++
              (hold 1 (1023 < payNum p 0 2 ∨ payNum p 2 1 < 1 ∨ 14 < payNum p 2 1 ∨ payNum p 3 1 ≠ 0) ([true]))))) ++
        (hold 3 (admitted 0x0702 r s = true) (
            (hold 2 (addrOk (payNum p 0 4) (payNum p 4 2) p = true) (
                (hold 1 (inMgt (payNum p 0 4) = false) ([true])) ++
                (anyOf 1 (List.range (payNum p 4 2)) (fun k2 =>
                    hold 1 (inMgt (payNum p 0 4 + 4 * k2) = true) ([true]))))) ++
            (hold 1 (addrOk (payNum p 0 4) (payNum p 4 2) p = false) ([true]))))))
    | _ => no 17)

theorem meets_PlovirkoReads :
    met 17 [clauses none (rq 0x0800 0 [] skewS),
      clauses none (rq 0x0702 0 [0xFC, 0x1F, 0, 0, 3, 0, 0, 0] run),
      clauses none (rq 0x0200 0x200 [] link),
      clauses none (rq 0x0100 0 [] run),
      clauses none (rq 0x0101 0 [] run),
      clauses none (rq 0x0501 0 [] run),
      clauses none (rq 0x0602 0 [] link),
      clauses none (rq 0x0301 0x200 [0, 0, 112, 0, 1, 0, 0, 0] link),
      clauses none (rq 0x0301 0x200 [0, 0, 113, 0, 1, 0, 0, 0] run),
      clauses none (rq 0x0505 0 [0, 0, 29, 0, 0, 0, 0, 0] run),
      clauses none (rq 0x0505 0 [0, 0, 30, 0, 0, 0, 0, 0] run),
      clauses none (rq 0x0700 0 [5, 0, 14, 0] logS),
      clauses none (rq 0x0700 0 [5, 0, 15, 0] logS),
      clauses none (rq 0x0702 0 [0x11, 0, 0, 0, 1, 0, 0, 0] run),
      clauses (some 5) (rq 0x0700 0 [5, 0, 14, 0] logS)] = true := by
  decide +kernel

end PlovirkoReads

namespace PlovirkoOrders

def rq (opc unit : Nat) (pay : List Nat) (s : State) : State := tap (ask opc unit pay) s
def boot : State := inState .boot
def lockd (s : State) : State := { s with bnd := { s.bnd with rwlLocked := true } }
def testing : State := { inState .test with tst := { run := some { job := { why := .run, unit := 0x880, budget := 9 }, began := 0 } }, bnd := { up .test with prev := .ready } }
def lost : State := updPort 0 (fun x => { x with rt := { lost := true, rstate := .relay } }) link
def failed : State := setRole 3 .failed link
def out : State := setF wbSts 7 1 0 link
def asked : State := { link with tst := { request := some { why := .run, unit := 0x880, budget := 9 } } }
def pend : State := { link with banks := { pend := some { tick := 0, epoch := 0, digest := 0 } } }
def cc : ArmedChange := { fm := false, dig := 77, nonce := 3, tick := run.tick }
def rC : List Nat := tagged 0x0402 (leBytes 8 77 ++ leBytes 8 3)
def rA : List Nat := tagged 0x0401 (leBytes 8 77 ++ leBytes 8 3)
def rS : List Nat := tagged 0x0400 ([4, 0, 1, 0, 0, 0, 0, 0] ++ leBytes 4 0x1029)
def rX : List Nat := tagged 0x0403 []

/-- Which clauses of `Obligations.PlovirkoOrders` have their hypotheses met. -/
def clauses (k : Nat) (s : State) : List Bool :=
  (match nextReq s with
    | some r => ((let p := plvPay r.bytes;
        (let q := plvUnit r.bytes - 0x200;
          (hold 5 (admitted 0x0102 r s = true) (
              (hold 1 (AdpState.ofCode (payNum p 0 1) = none ∨ payNum p 1 3 ≠ 0) ([true])) ++
              (match AdpState.ofCode (payNum p 0 1) with
                | some t => (hold 4 (payNum p 1 3 = 0) (
                    (hold 1 (t = s.bnd.adp) ([true])) ++
                    (hold 1 (t ≠ s.bnd.adp) (hold 1 (reachable s.bnd.adp s.bnd.prev t = false) ([true]))) ++
                    (hold 2 (t ≠ s.bnd.adp) (
                        hold 2 (reachable s.bnd.adp s.bnd.prev t = true) (
                          (hold 1 (s.bnd.adp = .test) (hold 1 (s.tst.run.isSome) ([true]))) ++
                          (hold 1 (s.bnd.adp ≠ .test ∨ s.tst.run = none) ([true])))))))
                | _ => no 4))) ++
          (hold 2 (admitted 0x0103 r s = true) (
              (hold 1 (s.bnd.rwlLocked = true) ([true])) ++
              (hold 1 (s.bnd.rwlLocked = false) (
                  hold 1 (fieldRange ((regFields glbDieid).getD []) (BitVec.ofNat 32 (payNum p 0 4)) = false) (
                    hold 1 (s.bumps = []) (
                      anyOf 1 ((regFields glbDieid).getD []) (fun f =>
                        hold 1 (f.acc = .rwl) ([true])))))))) ++
          (hold 2 (admitted 0x0104 r s = true) (
              (hold 1 (s.bnd.rwlLocked = true) ([true])) ++
              (hold 1 (s.bnd.rwlLocked = false) (hold 1 (s.bumps = []) ([true]))))) ++
          (hold 4 (admitted 0x0201 r s = true) (
              (hold 1 (1 < payNum p 0 1 ∨ payNum p 1 3 ≠ 0) ([true])) ++
              (hold 3 (payNum p 0 1 ≤ 1) (
                  hold 3 (payNum p 1 3 = 0) (
                    (hold 1 (canTrain q s = false ∨ (payNum p 0 1 = 0 ∧ (s.port q).ln.lstate ≠ .up)) ([true])) ++
                    (hold 1 (canTrain q s = true) (hold 1 (payNum p 0 1 = 1) ([true]))) ++
                    (hold 1 (canTrain q s = true) (hold 1 (payNum p 0 1 = 0) (hold 1 ((s.port q).ln.lstate = .up) ([true]))))))))) ++
          (hold 3 (admitted 0x0202 r s = true) (
              (hold 1 (payNum p 0 1 < 1 ∨ 4 < payNum p 0 1 ∨ payNum p 1 3 ≠ 0) ([true])) ++
              (hold 2 (1 ≤ payNum p 0 1) (
                  hold 2 (payNum p 0 1 ≤ 4) (
                    hold 2 (payNum p 1 3 = 0) (
                      (hold 1 ((s.port q).ln.lstate = .up) ([true])) ++
                      (hold 1 ((s.port q).ln.lstate ≠ .up) ([true])))))))) ++
          (hold 2 (admitted 0x0203 r s = true) (
              (hold 1 ((s.port q).rt.lost = true ∨ absent q s = true) ([true])) ++
              (hold 1 ((s.port q).rt.lost = false) (hold 1 (absent q s = false) (hold 1 ((s.port q).rt.lossDue = none) ([true])))))) ++
          (hold 2 (admitted 0x0204 r s = true) (
              (hold 1 ((s.port q).ln.lstate ≠ .up ∨ (s.port q).rt.rstate = .direct) ([true])) ++
              (hold 1 ((s.port q).ln.lstate = .up) (hold 1 ((s.port q).rt.rstate ≠ .direct) ([true]))))) ++
          (hold 2 (admitted 0x0206 r s = true) (
              (hold 1 ((s.lane (plvUnit r.bytes)).role ≠ .failed) ([true])) ++
              (hold 1 ((s.lane (plvUnit r.bytes)).role = .failed) ([true])))) ++
          (anyOf 4 ([((Instr.engineReturn, 0x0207) : Instr × Nat), (.unitReturn, 0x0208)]) (fun e =>
              hold 4 (admitted e.2 r s = true) (
                (hold 1 (payNum p 0 2 < 1 ∨ 1024 < payNum p 0 2 ∨ payNum p 2 2 ≠ 0) ([true])) ++
                (hold 3 (1 ≤ payNum p 0 2) (
                    hold 3 (payNum p 0 2 ≤ 1024) (
                      hold 3 (payNum p 2 2 = 0) (
                        (hold 1 (testBusy s = true) ([true])) ++
                        (hold 1 (testBusy s = false) (hold 1 (unitInService (plvUnit r.bytes) s = true ∨ s.tst.broken = true) ([true]))) ++
                        (hold 1 (testBusy s = false) (hold 1 (unitInService (plvUnit r.bytes) s = false) (hold 1 (s.tst.broken = false) ([true]))))))))))) ++
          (anyOf 4 ([((Instr.calWrite, 0x0300, 0) : Instr × Nat × Nat), (.flowWrite, 0x0302, 1), (.groupWrite, 0x0304, 2), (.memberWrite, 0x0306, 3)]) (fun e =>
              hold 4 (admitted e.2.1 r s = true) (
                (let t := stgOf e.2.2 r.bytes;
                  (let n := payNum p 2 2;
                    (let ws := payWords p n;
                      (let good := (List.range n).all (fun k => t.ok (payNum p 0 2 + k) (ws.getD k 0));
                        (hold 1 (spanOk (payNum p 0 2) n 112 t.size = false ∨ payNum p 4 4 ≠ 0 ∨ good = false) ([true])) ++
                        (hold 3 (spanOk (payNum p 0 2) n 112 t.size = true) (
                            hold 3 (payNum p 4 4 = 0) (
                              hold 3 (good = true) (
                                (hold 1 (s.banks.pend.isSome) ([true])) ++
                                (hold 2 (s.banks.pend = none) (
                                    (hold 1 (k < t.size) ([true])) ++
                                    (hold 1 (k < t.size) ([true]))))))))))))))) ++
          (hold 3 (admitted 0x0400 r s = true) (
              (hold 1 (spanOk (payNum p 0 2) (payNum p 2 2) 112 1100 = false ∨ payNum p 4 4 ≠ 0) ([true])) ++
              (hold 2 (spanOk (payNum p 0 2) (payNum p 2 2) 112 1100 = true) (
                  hold 2 (payNum p 4 4 = 0) (
                    (hold 1 (lockHeld s = true ∨ pstate s ≠ 0) ([true])) ++
                    (hold 1 (lockHeld s = false) (hold 1 (pstate s = 0) ([true])))))))) ++
          (hold 8 (armExpired s = false) (
              (hold 2 (admitted 0x0401 r s = true) (
                  (hold 1 (pstate s ≠ 0) ([true])) ++
                  (hold 1 (pstate s = 0) ([true])))) ++
              (hold 4 (admitted 0x0402 r s = true) (
                  (hold 1 (s.prot.change = none) ([true])) ++
                  (match s.prot.change with
                    | some c => ((hold 1 (pstate s ≠ 2) ([true])) ++
                      (hold 1 (pstate s = 2) (hold 1 (c.fm = true ∨ c.dig ≠ payNum p 0 8 ∨ c.nonce ≠ payNum p 8 8) ([true]))) ++
                      (hold 1 (pstate s = 2) (hold 1 (c.fm = false) (hold 1 (c.dig = payNum p 0 8) (hold 1 (c.nonce = payNum p 8 8) ([true]))))))
                    | _ => no 3))) ++
              (hold 2 (admitted 0x0403 r s = true) (
                  (hold 1 (pstate s ≠ 1) (hold 1 (pstate s ≠ 2) ([true]))) ++
                  (hold 1 (pstate s = 1 ∨ pstate s = 2) ([true])))))))))
    | _ => no 41)

theorem meets_PlovirkoOrders :
    met 41 [clauses 0 (rq 0x0300 0x200 ([255, 0, 1, 0, 0, 0, 0, 0] ++ leBytes 4 0x80000FFF) link),
      clauses 0 (rq 0x0102 0 [15, 0, 0, 0] run),
      clauses 0 (rq 0x0102 0 [4, 0, 0, 0] run),
      clauses 0 (rq 0x0102 0 [1, 0, 0, 0] run),
      clauses 0 (rq 0x0102 0 [5, 0, 0, 0] run),
      clauses 0 (rq 0x0102 0 [3, 0, 0, 0] testing),
      clauses 0 (rq 0x0103 0 [5, 0, 0, 0] boot),
      clauses 0 (rq 0x0103 0 [5, 0, 0, 0] (lockd boot)),
      clauses 0 (rq 0x0104 0 [1, 0, 0, 0, 2, 0, 0, 0] boot),
      clauses 0 (rq 0x0104 0 [1, 0, 0, 0, 2, 0, 0, 0] (lockd boot)),
      clauses 0 (rq 0x0201 0x200 [2, 0, 0, 0] link),
      clauses 0 (rq 0x0201 0x201 [0, 0, 0, 0] link),
      clauses 0 (rq 0x0201 0x200 [1, 0, 0, 0] link),
      clauses 0 (rq 0x0201 0x200 [0, 0, 0, 0] link),
      clauses 0 (rq 0x0202 0x200 [5, 0, 0, 0] link),
      clauses 0 (rq 0x0202 0x200 [4, 0, 0, 0] link),
      clauses 0 (rq 0x0202 0x201 [2, 0, 0, 0] link),
      clauses 0 (rq 0x0203 0x200 [] lost),
      clauses 0 (rq 0x0203 0x200 [] link),
      clauses 0 (rq 0x0204 0x200 [] link),
      clauses 0 (rq 0x0204 0x200 [] lost),
      clauses 0 (rq 0x0206 3 [] link),
      clauses 0 (rq 0x0206 3 [] failed),
      clauses 0 (rq 0x0207 0x300 [0, 0, 0, 0] link),
      clauses 0 (rq 0x0207 0x300 [0, 4, 0, 0] link),
      clauses 0 (rq 0x0208 0x407 [1, 0, 0, 0] out),
      clauses 0 (rq 0x0208 0x407 [1, 0, 0, 0] asked),
      clauses 0 (rq 0x0300 0x200 ([0, 1, 1, 0, 0, 0, 0, 0] ++ leBytes 4 0) link),
      clauses 0 (rq 0x0306 0 ([0, 0, 1, 0, 0, 0, 0, 0] ++ leBytes 4 7) pend),
      clauses 0 (tap rS (keyed 0 none run)),
      clauses 0 (tap rS (keyed 1 none run)),
      clauses 0 (tap (tagged 0x0400 ([4, 0, 1, 0, 1, 0, 0, 0] ++ leBytes 4 0x1029)) (keyed 0 none run)),
      clauses 0 (tap rA (keyed 0 none run)),
      clauses 0 (tap rA (keyed 1 none run)),
      clauses 0 (tap rC (keyed 0 none run)),
      clauses 0 (tap rC (keyed 1 (some cc) run)),
      clauses 0 (tap rC (keyed 2 (some {cc with dig := 78}) run)),
      clauses 0 (tap rC (keyed 2 (some cc) run)),
      clauses 0 (tap rX (keyed 0 none run)),
      clauses 0 (tap rX (keyed 2 (some cc) run))] = true := by
  decide +kernel

end PlovirkoOrders

namespace PlovirkoSettings

def rq (opc unit : Nat) (pay : List Nat) (s : State) : State := tap (ask opc unit pay) s
def testA : State := inState .test
def busyT : State := { testA with tst := { request := some { why := .run, unit := 0x880, budget := 9 } } }
def slc : Slice := { job := { why := .run, unit := 0x880, budget := 9 }, began := 0 }
def going (x : Slice) : State := { testA with tst := { run := some x } }
def softQ (r : BitVec 128) (s : State) : State := rq 0x0503 0 (leBytes 16 r.toNat) s
def fullS : State := { run with tst := { soft := List.replicate 128 column } }
def readyK : State := keyed 0 none (inState .ready)
def rB : List Nat := tagged 0x0504 (leBytes 16 column.toNat)
def r0 : List Nat := tagged 0x0504 (leBytes 16 0)
def armd (c : BitVec 128) (w : Bool) : State := { readyK with tst := { armed := some (c, w, readyK.tick) } }
def wr (a : Nat) (ws : List Nat) : State := rq 0x0703 0 (leBytes 4 a ++ leBytes 4 ws.length ++ ws.flatMap (leBytes 4)) run
def good : Nat := 0x00818064
def setP (e t d : Nat) : List Nat := leBytes 4 e ++ leBytes 4 0 ++ leBytes 8 t ++ leBytes 8 d
def pendA (t : Nat) : State := { run with banks := { pend := some { tick := t, epoch := 3, digest := 0 } } }

/-- Which clauses of `Obligations.PlovirkoSettings` have their hypotheses met; `good` stands for the staged digest being that of the
payload, of which `test_PlovirkoSettings_digest` shows one. -/
def clauses (s : State) (good : Bool) : List Bool :=
  (match nextReq s with
    | some r => ((let u := takenUp r s;
        (let p := plvPay r.bytes;
          (hold 6 (admitted 0x0500 r s = true) (
              (let m := (payNum p 2 1 == 1);
                (hold 1 (1 < payNum p 2 1 ∨ (if m then memoryUnit (plvUnit r.bytes) else logicUnit (plvUnit r.bytes)) = false) ([true])) ++
                (hold 5 (payNum p 2 1 ≤ 1) (
                    hold 5 ((if m then memoryUnit (plvUnit r.bytes) else logicUnit (plvUnit r.bytes)) = true) (
                      (hold 1 (testState m (plvUnit r.bytes) s = false) ([true])) ++
                      (hold 1 (testState m (plvUnit r.bytes) s = true) (hold 1 (payNum p 0 2 < 1 ∨ 1024 < payNum p 0 2 ∨ payNum p 3 1 ≠ 0) ([true]))) ++
                      (hold 3 (testState m (plvUnit r.bytes) s = true) (
                          hold 3 (1 ≤ payNum p 0 2) (
                            hold 3 (payNum p 0 2 ≤ 1024) (
                              hold 3 (payNum p 3 1 = 0) (
                                (hold 1 (testBusy s = true) ([true])) ++
                                (hold 1 (testBusy s = false) (hold 1 (s.tst.broken = true) ([true]))) ++
                                (hold 1 (testBusy s = false) (hold 1 (s.tst.broken = false) ([true])))))))))))))) ++
          (hold 2 (admitted 0x0502 r s = true) (
              (hold 1 ((s.tst.run.all (fun x => x.stepsDone)) = true) ([true])) ++
              (match s.tst.run with
                | some x => (hold 1 (x.stepsDone = false) ([true]))
                | _ => no 1))) ++
          (let rec_ : BitVec 128 := BitVec.ofNat 128 (payNum p 0 16);
            (hold 4 (admitted 0x0503 r s = true) (
                (hold 1 (recOk rec_ = false ∨ recKind rec_ = 8) ([true])) ++
                (hold 3 (recOk rec_ = true) (
                    hold 3 (recKind rec_ ≠ 8) (
                      (hold 1 (128 ≤ s.tst.soft.length) ([true])) ++
                      (hold 2 (s.tst.soft.length < 128) (
                          (hold 1 ((if isSram rec_ then spareUsed rec_ none s else !isOut rec_ s) = true) ([true])) ++
                          (hold 1 ((if isSram rec_ then spareUsed rec_ none s else !isOut rec_ s) = false) ([true]))))))))) ++
            (hold 8 (admitted 0x0504 r s = true) (
                (hold 1 (plvTag r.bytes = false) ([true])) ++
                (hold 1 (plvTag r.bytes = true) (hold 1 (rec_ = 0) (hold 1 (s.tst.armed = none) ([true])))) ++
                (hold 1 (plvTag r.bytes = true) (hold 1 (rec_ = 0) (hold 1 (s.tst.armed.isSome) ([true])))) ++
                (hold 5 (plvTag r.bytes = true) (
                    hold 5 (rec_ ≠ 0) (
                      hold 5 (burnExpired s = false) (
                        (hold 1 (s.tst.burning.isSome) ([true])) ++
                        (hold 2 (s.tst.burning = none) (
                            hold 2 (s.tst.armed = none) (
                              (hold 1 ((recOk rec_ && burnRoom rec_ s.efuse && !spareUsed rec_ (some rec_) s) = true) ([true])) ++
                              (hold 1 ((recOk rec_ && burnRoom rec_ s.efuse && !spareUsed rec_ (some rec_) s) = false) ([true]))))) ++
                        (match s.tst.armed with
                          | some a => (hold 2 (s.tst.burning = none) (
                              (hold 1 (rec_ = a.1) (hold 1 (a.2.1 = false) ([true]))) ++
                              (hold 1 (rec_ ≠ a.1 ∨ a.2.1 = true) ([true]))))
                          | _ => no 2)))))))) ++
          (hold 1 (admitted 0x0600 r s = true) ([true])) ++
          (hold 3 (admitted 0x0601 r s = true) (
              (let bad := (fieldRange ((regFields calCfg).getD []) (BitVec.ofNat 32 (payNum p 0 4)) || fieldRange ((regFields calThr).getD []) (BitVec.ofNat 32 (payNum p 4 4)));
                (hold 1 (bad = true) ([true])) ++
                (hold 2 (bad = false) (
                    hold 2 (s.bumps = []) (
                      (anyOf 1 ((regFields calCfg).getD []) (fun f =>
                          hold 1 (f.acc = .rw) ([true]))) ++
                      (anyOf 1 ((regFields calThr).getD []) (fun f =>
                          hold 1 (f.acc = .rw) ([true]))))))))) ++
          (hold 2 (admitted 0x0701 r s = true) (
              (hold 1 (1 < payNum p 0 1 ∨ 1 < payNum p 1 1 ∨ payNum p 2 2 ≠ 0) ([true])) ++
              (hold 1 (payNum p 0 1 ≤ 1) (hold 1 (payNum p 1 1 ≤ 1) (hold 1 (payNum p 2 2 = 0) ([true])))))) ++
          (hold 4 (admitted 0x0703 r s = true) (
              (let a := payNum p 0 4;
                (let w0 : Word := BitVec.ofNat 32 (payNum p 8 4);
                  (hold 1 (addrOk a (payNum p 4 2) p = false ∨ (a < 0x3000 ∧ 0x2000 < a + 4 * payNum p 4 2)) ([true])) ++
                  (hold 3 (addrOk a (payNum p 4 2) p = true) (
                      hold 3 (0x3000 ≤ a ∨ a + 4 * payNum p 4 2 ≤ 0x2000) (
                        (hold 1 ((softWrite false a w0 u).1 = .rejected) ([true])) ++
                        (hold 1 (payNum p 4 2 = 1) (hold 1 ((softWrite false a w0 u).1 ≠ .rejected) ([true]))) ++
                        (hold 1 (payNum p 4 2 = 2) (hold 1 ((softWrite false a w0 u).1 ≠ .rejected) ([true])))))))))) ++
          (hold 3 (admitted 0x0801 r s = true) (
              (let d := (payNum p 0 4 + 2 ^ 32 - epochNow s) % 2 ^ 32;
                (hold 1 (payNum p 4 4 ≠ 0 ∨ d = 0 ∨ 2 ^ 31 ≤ d ∨ good = false ∨ payNum p 8 8 < s.tick + 2 ∨ 2 ^ 54 ≤ payNum p 8 8) ([true])) ++
                (hold 2 (payNum p 4 4 = 0) (
                    hold 2 (d ≠ 0) (
                      hold 2 (d < 2 ^ 31) (
                        hold 2 (good = true) (
                          hold 2 (s.tick + 2 ≤ payNum p 8 8) (
                            hold 2 (payNum p 8 8 < 2 ^ 54) (
                              (hold 1 (s.banks.pend.isSome ∨ pstate s ≠ 0) ([true])) ++
                              (hold 1 (s.banks.pend = none) (hold 1 (pstate s = 0) ([true]))))))))))))) ++
          (hold 3 (admitted 0x0802 r s = true) (
              (hold 1 (s.banks.pend = none) ([true])) ++
              (match s.banks.pend with
                | some a => ((hold 1 (a.tick ≤ s.tick + 1) ([true])) ++
                  (hold 1 (s.tick + 1 < a.tick) ([true])))
                | _ => no 2))) ++
          (hold 2 (admitted 0x0803 r s = true) (
              (let bad := (fieldRange ((regFields tbCfgStg).getD []) (BitVec.ofNat 32 (payNum p 0 4)) || specialRange tbCfgStg (BitVec.ofNat 32 (payNum p 0 4)) u);
                (hold 1 (bad = true) ([true])) ++
                (hold 1 (bad = false) (
                    hold 1 (s.bumps = []) (
                      anyOf 1 ((regFields tbCfgStg).getD []) (fun f =>
                        hold 1 (f.acc = .rw) ([true])))))))))))
    | _ => no 38)

theorem meets_PlovirkoSettings :
    met 38 [clauses (rq 0x0601 0 (leBytes 4 good ++ leBytes 4 0x400400) run) false,
      clauses (rq 0x0500 0x880 [1, 0, 2, 0] testA) false,
      clauses (rq 0x0500 0x880 [1, 0, 0, 0] run) false,
      clauses (rq 0x0500 0x880 [1, 4, 0, 0] testA) false,
      clauses (rq 0x0500 0x880 [0, 4, 0, 0] testA) false,
      clauses (rq 0x0500 0x880 [1, 0, 0, 0] busyT) false,
      clauses (rq 0x0500 0x880 [1, 0, 0, 0] { testA with tst := { broken := true } }) false,
      clauses (rq 0x0502 0 [] run) false,
      clauses (rq 0x0502 0 [] (going slc)) false,
      clauses (softQ 0 run) false,
      clauses (softQ column fullS) false,
      clauses (softQ laneOut run) false,
      clauses (softQ laneOut (setRole 3 .failed run)) false,
      clauses (rq 0x0504 0 (leBytes 16 laneOut.toNat) (inState .ready)) false,
      clauses (tap r0 readyK) false,
      clauses (tap r0 (armd column true)) false,
      clauses (tap rB readyK) false,
      clauses (tap rB (armd column true)) false,
      clauses (tap rB (armd column false)) false,
      clauses (tap rB { readyK with tst := { burning := some (column, 0) } }) false,
      clauses (tap (tagged 0x0504 (leBytes 16 5)) readyK) false,
      clauses (rq 0x0600 3 [] link) false,
      clauses (rq 0x0601 0 (leBytes 4 0 ++ leBytes 4 0) run) false,
      clauses (rq 0x0701 0 [2, 0, 0, 0] run) false,
      clauses (rq 0x0701 0 [1, 1, 0, 0] { run with flt := {count := 4} }) false,
      clauses (wr 0x2000 [0]) false,
      clauses (wr calCfg [0]) false,
      clauses (wr calCfg [good]) false,
      clauses (wr calCfg [good, 0]) false,
      clauses (rq 0x0803 0 (leBytes 4 0) run) false,
      clauses (rq 0x0803 0 (leBytes 4 0x100) run) false,
      clauses (rq 0x0801 0 (setP 1 0 9) run) true,
      clauses (rq 0x0801 0 (setP 1 (run.tick + 2) 0) run) true,
      clauses (rq 0x0801 0 (setP 4 (run.tick + 2) 0) (pendA 9)) true,
      clauses (rq 0x0802 0 [] run) false,
      clauses (rq 0x0802 0 [] (pendA (run.tick + 1))) false,
      clauses (rq 0x0802 0 [] (pendA (run.tick + 2))) false] = true := by
  decide +kernel

end PlovirkoSettings

namespace SelfTestSlices

def waitS (r : List (Nat × Nat)) (d : List (Nat × Nat)) (q : Option SliceJob) (w : Option (Nat × Nat)) : State := { run with tst := { rot := r, damage := d, request := q, sweep := w } }
def job : SliceJob := { why := .run, unit := 0x880, budget := 9 }
def used (kind : Nat) (k : Nat) : BitVec 128 := sealRec (kind + 2 ^ 8 * 3 + 2 ^ 30 * k)
def fullT : State := updTst (fun x => { x with soft := [used 1 0, used 1 1, used 1 2, used 1 3, used 2 0, used 2 1] }) (slicing (slice 1 39))
def lateS : Slice := { slice 2 1 with job := { (slice 2 1).job with budget := 0 } }
def spent (x : Slice) : Slice := { x with job := { x.job with budget := 0 } }
def timer : State := setF tstCtl 11 1 1 run
def gap : State := setF tstCtl 12 16 9 { timer with tst := { ended := some run.tick } }

/-- Which clauses of `Obligations.SelfTestSlices` have their hypotheses met. -/
def clauses (q : QuadId) (c : Nat) (fails : List (Fin 1024 × Fin 36)) (code : Nat) (x : Slice) (s : State) : List Bool :=
  hold 33 (s.acts = true) (
    (hold 2 (sliceState s = true) (
        hold 2 (s.tst.run = none) (
          hold 2 (s.tst.broken = false) (
            hold 2 ((s.tst.ended.all (fun d => decide (d < s.tick))) = true) (
              (match nextSlice s with
                | some (j, _) => ((match j.mem with
                    | some _ => ([true])
                    | _ => no 1))
                | _ => no 1) ++
              (hold 1 (nextSlice s = none) ([true]))))))) ++
    (hold 1 (s.tst.run.isSome = true ∨ s.tst.broken = true ∨ (s.tst.ended.any (fun d => decide (s.tick ≤ d))) = true) ([true])) ++
    (match s.tst.rot.find? (fun r => r.1 == q.val) with
      | some _ => (hold 1 ((List.range q.val).all (fun k => (s.tst.rot.find? (fun r => r.1 == k)).isNone) = true) ([true]))
      | _ => no 1) ++
    (match s.tst.damage.head? with
      | some _ => (hold 1 (s.tst.rot = []) ([true]))
      | _ => no 1) ++
    (match s.tst.request with
      | some _ => (hold 1 (s.tst.rot = []) (hold 1 (s.tst.damage = []) ([true])))
      | _ => no 1) ++
    (match s.tst.sweep with
      | some _ => (hold 1 (s.tst.rot = []) (hold 1 (s.tst.damage = []) (hold 1 (s.tst.request = none) ([true]))))
      | _ => no 1) ++
    (match s.tst.run with
      | some x => ((hold 1 (s.tick < x.next ∨ x.steps = stepsOf x) ([true])) ++
        (hold 9 (x.next ≤ s.tick) (
            hold 9 (x.steps < stepsOf x) (
              (hold 1 (x.job.mem = none) ([true])) ++
              (match x.job.mem with
                | some m => ((hold 2 (x.phase = 0) (
                      (hold 1 (x.steps < 3) ([true])) ++
                      (hold 1 (x.steps = 3) ([true])))) ++
                  (hold 4 (x.phase = 1) (
                      (let fs := (x.fails ++ fails.map (fun f => (f.1.val, f.2.val))).eraseDups;
                        (let al := allocate m fs s;
                          (hold 1 (x.steps < 39) ([true])) ++
                          (hold 3 (x.steps = 39) (
                              hold 3 (c = (if fs = [] then 2 else if al.isNone ∨ 128 < s.tst.soft.length + (al.getD []).length then 3 else 5)) (
                                (hold 1 (c = 2) ([true])) ++
                                (hold 1 (c = 3) ([true])) ++
                                (hold 1 (c = 5) ([true]))))))))) ++
                  (hold 2 (x.phase = 2) (
                      (let late := (!x.exceeded && decide (x.began + x.job.budget ≤ s.tick));
                        (hold 1 (late = true) ([true])) ++
                        (hold 1 (late = false) ([true]))))))
                | _ => no 8)))))
      | _ => no 10) ++
    (match s.tst.run with
      | some x => ((hold 1 (x.job.mem = none) (hold 1 (x.verdict = none) (hold 1 (x.began + x.job.budget ≤ s.tick) ([true])))) ++
        (hold 1 (x.job.mem.isSome) (hold 1 (x.phase = 0) (hold 1 (x.began + x.job.budget ≤ s.tick + 5) ([true])))) ++
        (hold 1 (x.job.mem.isSome) (hold 1 (x.phase = 1) (hold 1 (x.began + x.job.budget ≤ s.tick + 5) ([true])))) ++
        (hold 1 (s.tick + 5 < x.began + x.job.budget ∨ (x.job.mem.isSome ∧ 2 ≤ x.phase)) ([true])) ++
        (hold 2 (x.steps = stepsOf x) (
            (hold 1 (x.job.mem = none) ([true])) ++
            (hold 1 (x.job.mem.isSome) (hold 1 (x.phase = 2) ([true]))))) ++
        (hold 1 (x.steps ≠ stepsOf x) ([true])))
      | _ => no 7) ++
    (hold 1 (s.tst.run = none) ([true])) ++
    ((hold 1 (x.job.why = .damage ∨ x.job.why = .run ∨ x.job.why = .sweep) ([true])) ++
      (hold 1 (x.job.why = .giveBack) ([true])) ++
      (match x.job.why with
        | .rotation q e2 => (hold 3 (engIn q e2 s = true) (
            (hold 1 (code = 2) ([true])) ++
            (hold 1 (code = 3) ([true])) ++
            (hold 1 (code = 4) ([true]))))
        | _ => no 3)) ++
    (hold 2 (sliceState s = true) (
        hold 2 (s.tst.broken = false) (
          hold 2 (getF s tstCtl 11 1 = 1) (
            hold 2 (testBusy s = false) (
              hold 2 (s.tst.sweep = none) (
                (hold 1 (s.tst.ended.getD 0 + getF s tstCtl 12 16 ≤ s.tick) ([true])) ++
                (hold 1 (s.tick < s.tst.ended.getD 0 + getF s tstCtl 12 16) ([true])))))))) ++
    (hold 1 (getF s tstCtl 11 1 = 0 ∨ testBusy s = true) ([true])))

theorem meets_SelfTestSlices :
    met 33 [clauses 0 0 [] 0 { logic 48 with job := { why := .rotation 1 4, unit := unitEng 1 4, budget := 9 } } (slicing (logic 3)),
      clauses 0 0 [] 0 { logic 48 with job := { why := .rotation 1 4, unit := unitEng 1 4, budget := 9 } } (waitS [] [(1, 1)] (some job) none),
      clauses 0 0 [] 0 { logic 48 with job := { why := .rotation 1 4, unit := unitEng 1 4, budget := 9 } } (slicing (logic 48)),
      clauses 0 0 [] 0 { logic 48 with job := { why := .rotation 1 4, unit := unitEng 1 4, budget := 9 } } (slicing (spent (slice 0 1))),
      clauses 0 0 [] 0 { logic 48 with job := { why := .rotation 1 4, unit := unitEng 1 4, budget := 9 } } (slicing (spent (slice 1 1))),
      clauses 0 0 [] 0 { logic 48 with job := { why := .rotation 1 4, unit := unitEng 1 4, budget := 9 } } timer,
      clauses 0 0 [] 0 { logic 48 with job := { why := .rotation 1 4, unit := unitEng 1 4, budget := 9 } } (waitS [] [] (some job) (some (1, 1))),
      clauses 0 0 [] 0 { logic 48 with job := { why := .rotation 1 4, unit := unitEng 1 4, budget := 9 } } (waitS [] [] none (some (1, 1))),
      clauses 0 0 [] 0 { logic 48 with job := { why := .rotation 1 4, unit := unitEng 1 4, budget := 9 } } (slicing (slice 0 3)),
      clauses 0 0 [] 0 { logic 48 with job := { why := .rotation 1 4, unit := unitEng 1 4, budget := 9 } } (slicing (slice 2 1)),
      clauses 0 0 [] 0 { logic 48 with job := { why := .rotation 1 4, unit := unitEng 1 4, budget := 9 } } (slicing lateS),
      clauses 0 0 [] 0 { logic 48 with job := { why := .rotation 1 4, unit := unitEng 1 4, budget := 9 } } (slicing (spent (logic 5))),
      clauses 0 0 [] 0 { logic 48 with job := { why := .rotation 1 4, unit := unitEng 1 4, budget := 9 } } (slicing { slice 2 4 with verdict := some (2, 0) }),
      clauses 0 0 [] 0 { logic 48 with job := { why := .rotation 1 4, unit := unitEng 1 4, budget := 9 } } gap,
      clauses 0 0 [] 0 (slice 2 4) run,
      clauses 0 0 [] 0 { slice 2 4 with job := {(slice 2 4).job with why := .giveBack, unit := 0x400 }} run,
      clauses 0 0 [] 2 { logic 48 with job := { why := .rotation 1 4, unit := unitEng 1 4, budget := 9 } } run,
      clauses 0 0 [] 3 { logic 48 with job := { why := .rotation 1 4, unit := unitEng 1 4, budget := 9 } } run,
      clauses 0 0 [] 4 { logic 48 with job := { why := .rotation 1 4, unit := unitEng 1 4, budget := 9 } } run,
      clauses 0 2 [] 0 { logic 48 with job := { why := .rotation 1 4, unit := unitEng 1 4, budget := 9 } } (slicing (slice 1 39)),
      clauses 0 3 [(7, 2)] 0 { logic 48 with job := { why := .rotation 1 4, unit := unitEng 1 4, budget := 9 } } fullT,
      clauses 0 5 [(7, 2)] 0 { logic 48 with job := { why := .rotation 1 4, unit := unitEng 1 4, budget := 9 } } (slicing (slice 1 39)),
      clauses 2 0 [] 0 { logic 48 with job := { why := .rotation 1 4, unit := unitEng 1 4, budget := 9 } } (waitS [(3, 1), (2, 4)] [(1, 1)] (some job) none)] = true := by
  decide +kernel

end SelfTestSlices

namespace BurnsAndTestPort

def armedB (t : Nat) : State := burning column { armed := some (column, true, t) }
def busyB : State := burning column { burning := some (column, 5) }
def patch : BitVec 128 := sealRec (8 + 2^4 * 3 + 2^16 * 77)
def frz : State := inState .frozen
def opened : State := nx (.tapMemRead 8 0 3 true) { frz with flt := { ring := [(512, some { cts := 1 })], count := 1, poison := [513] } }

/-- Which clauses of `Obligations.BurnsAndTestPort` have their hypotheses met. -/
def clauses (j : Nat) (good : Bool) (ar : Fin 16) (inst : Fin 4096) (row : Fin 1024) (sv : Bool) (s : State) : List Bool :=
  (hold 9 (s.mready = true) (
      hold 9 (s.acts = true) (
        (anyOf 1 ([Instr.burnGo true, .burnAbort true]) (fun _ =>
            hold 1 (lockHeld s = false) ([true]))) ++
        (hold 8 (lockHeld s = true) (
            (hold 5 (burnExpired s = false) (
                (hold 1 (s.tst.burning.isSome) ([true])) ++
                (hold 2 (s.tst.burning = none) (
                    hold 2 (s.tst.armed = none) (
                      (let good := (recOk (burnRec s) && burnRoom (burnRec s) s.efuse && !spareUsed (burnRec s) (some (burnRec s)) s);
                        (hold 1 (good = true) ([true])) ++
                        (hold 1 (good = false) ([true])))))) ++
                (match s.tst.armed with
                  | some a => (hold 2 (s.tst.burning = none) (
                      (hold 1 (burnRec s = a.1) (hold 1 (a.2.1 = true) ([true]))) ++
                      (hold 1 (burnRec s ≠ a.1 ∨ a.2.1 = false) ([true]))))
                  | _ => no 2))) ++
            (hold 1 (burnExpired s = true) (
                hold 1 (s.tst.burning = none) (
                  hold 1 ((recOk (burnRec s) && burnRoom (burnRec s) s.efuse && !spareUsed (burnRec s) (some (burnRec s)) s) = true) ([true])))) ++
            (hold 1 (s.tst.armed.isSome) ([true])) ++
            (hold 1 (s.tst.armed = none) ([true]))))))) ++
  (hold 8 (s.acts = true) (
      (hold 1 (burnExpired s = true) ([true])) ++
      (hold 1 (burnExpired s = false) ([true])) ++
      (hold 1 (s.tst.burning = none) ([true])) ++
      (match s.tst.burning with
        | some b => ((match freeSlot s.efuse with
            | some k => (hold 3 (recKind b.1 ≠ 8) (
                (hold 1 (j ≠ k) ([true])) ++
                (hold 1 (good = true) ([true])) ++
                (hold 1 (good = false) ([true]))))
            | _ => no 3) ++
          (hold 2 (recKind b.1 = 8) (
              (hold 1 (good = true) ([true])) ++
              (hold 1 (good = false) ([true])))))
        | _ => no 5))) ++
  ((hold 1 (s.bnd.adp = .boot ∨ s.bnd.adp = .frozen) ([true])) ++
    (anyOf 1 ([(1 : Fin 3), 2]) (fun _ =>
        hold 1 (s.bnd.adp ≠ .boot) (hold 1 (s.bnd.adp ≠ .frozen) ([true]))))) ++
  (hold 1 (s.tst.wrapper = 0 ∨ (s.bnd.adp ≠ .boot ∧ s.bnd.adp ≠ .frozen)) ([true])) ++
  ((hold 1 (s.alive = false) ([true])) ++
    (hold 1 (s.alive = true) ([true])) ++
    (hold 1 (s.alive = true) ([true]))) ++
  ((anyOf 3 ([Instr.tapMemRead ar inst row sv, .tapScan]) (fun _ =>
        (hold 1 (s.bnd.adp ≠ .frozen) ([true])) ++
        (hold 1 (s.bnd.adp = .frozen) (hold 1 (s.tst.zeroed = false) ([true]))) ++
        (hold 1 (s.bnd.adp = .frozen) (hold 1 (s.tst.zeroed = true) ([true]))))) ++
    (hold 2 (s.bnd.adp = .frozen) (
        (hold 1 (ar.val = 8) ([true])) ++
        (hold 1 (ar.val = 9) (hold 1 (inst.val < 2) (hold 1 (sv = false) ([true])))))))

theorem meets_BurnsAndTestPort :
    met 28 [clauses 1 false 0 0 0 false busyB,
      clauses 0 false 0 0 0 false (armedB (run.tick - 65536)),
      clauses 0 false 8 0 0 false frz,
      clauses 0 false 0 0 0 false run,
      clauses 0 false 0 0 0 false (burning column {}),
      clauses 0 false 0 0 0 false (burning patch { burning := some (patch, 5) }),
      clauses 0 false 0 0 0 false (burning 0 {}),
      clauses 0 false 0 0 0 false (armedB run.tick),
      clauses 0 false 0 0 0 false (burning column { armed := some (column, false, run.tick) }),
      clauses 0 false 0 0 0 false opened,
      clauses 0 false 9 0 0 false frz,
      clauses 0 true 0 0 0 false busyB,
      clauses 0 true 0 0 0 false (burning patch { burning := some (patch, 5) })] = true := by
  decide +kernel

end BurnsAndTestPort

namespace FormsReadBack

/-- Which clauses of `Obligations.FormsReadBack` have their hypotheses met. -/
def clauses (h : FlitHdr) (h2 : PktHdr) (m : LaneMsg) (m2 : Marker) (m3 : TrainMsg) (l : Ledger) (h3 : IpHdr) (last : Nat) (r : Resp) : List Bool :=
  (hold 1 (h.kind < 16) (
      hold 1 (h.seq < 65536) (
        hold 1 (h.ack < 65536) (hold 1 (h.cpool < 16) (hold 1 (h.cred < 512) (hold 1 (h.nslot < 16) (hold 1 (h.hslot < 16) (hold 1 (h.low < 8) ([true]))))))))) ++
  (hold 1 (h2.opc < 256) (
      hold 1 (h2.len < 256) (
        hold 1 (h2.src < 2 ^ 18) (hold 1 (h2.dst < 2 ^ 18) (hold 1 (h2.cls < 8) (hold 1 (h2.txid < 2 ^ 20) (hold 1 (h2.addr < 2 ^ 48) ([true])))))))) ++
  (hold 1 (m.lane < 8) (hold 1 (m.sub < 8) (hold 1 (m.eff < 65536) ([true])))) ++
  (hold 1 (m2.ctsTx < 2 ^ 64) (
      hold 1 (m2.gmid < 2 ^ 18) (hold 1 (m2.stratum < 16) (hold 1 (m2.tq < 8) (hold 1 (m2.calph < 64) (hold 1 (m2.pwr < 65536) ([true]))))))) ++
  (hold 1 (m3.phase < 16) (
      hold 1 (m3.pass < 32) (
        hold 1 (m3.active < 32) (hold 1 (m3.wmax < 8) (hold 1 (m3.tref < 2 ^ 32) (hold 1 (m3.echo < 2 ^ 32) (hold 1 (m3.turn < 2 ^ 32) ([true])))))))) ++
  (hold 1 (l.valid = true) (
      hold 1 (l.rtick < 65536) (
        hold 1 (l.epoch < 2 ^ 32) (
          hold 1 (l.digest < 2 ^ 64) (
            hold 1 (l.hfreeCtl < 65536) (
              hold 1 (l.hfreePlv < 65536) (
                hold 1 (l.counts.length = 9) (
                  hold 1 (∀ c ∈ l.counts, c.1 < 2 ^ 32 ∧ c.2.1 < 2 ^ 32 ∧ c.2.2 < 2 ^ 32) (
                    hold 1 (l.summary.length = 3) (
                      hold 1 (l.cfg.vcmap < 2 ^ 24) (
                        hold 1 (l.cfg.limits.length = 8) (
                          hold 1 (∀ n ∈ l.cfg.limits, n < 8192) (hold 1 (l.cfg.priv = false → l.cfg.vcmap = 0 ∧ ∀ n ∈ l.cfg.limits, n = 0) ([true])))))))))))))) ++
  (hold 1 (l.valid = false) ([true])) ++
  (hold 1 (h3.kind < 256) (
      hold 1 (h3.tag < 1024) (hold 1 (h3.bytes < 8192) (hold 1 (h3.addr < 2 ^ 48) (hold 1 (h3.die < 2 ^ 18) (hold 1 (h3.resp < 16) ([true]))))))) ++
  (hold 1 (h2.addr = respAddr last r) ([true]))

theorem meets_FormsReadBack :
    met 9 [clauses { kind := 0 } { opc := 0 } ⟨.swapReq, 7, 3, true, 65535⟩ ⟨2^64-2, 2^18-1, 15, 6, true, 63, 65534⟩ ⟨15, 31, 30, 7, true, false, 2^32-1, 5, 2^32-2⟩ { valid := true, cfg := { priv := true, vcmap := 2^24-2, limits := [8191,1,2,3,4,5,6,7] }, rtick := 65535, epoch := 2^32-2, digest := 2^64-2, hfreeCtl := 65534, hfreePlv := 3, counts := (List.range 9).map (fun i => (i, 2^32-1-i, 7*i)), summary := [1,2,3] } ⟨255, 1023, 8191, 2^48-2, 2^18-1, 15, true⟩ 0 .ok,
      clauses { kind := 0 } { opc := 0 } ⟨.swapReq, 7, 3, true, 65535⟩ ⟨2^64-2, 2^18-1, 15, 6, true, 63, 65534⟩ ⟨15, 31, 30, 7, true, false, 2^32-1, 5, 2^32-2⟩ { valid := false, cfg := { priv := false, vcmap := 0, limits := List.replicate 8 0 }, rtick := 0, epoch := 0, digest := 0, hfreeCtl := 0, hfreePlv := 0, counts := [], summary := [] } ⟨255, 1023, 8191, 2^48-2, 2^18-1, 15, true⟩ 0 .ok] = true := by
  decide +kernel

end FormsReadBack

namespace FlitsReadBack

/-- Which clauses of `Obligations.FlitsReadBack` have their hypotheses met. -/
def clauses (f : Flit) : List Bool :=
  hold 1 (f.slots.length = 15) (
    hold 1 (f.hdr.kind < 16) (
      hold 1 (f.hdr.seq < 65536) (
        hold 1 (f.hdr.ack < 65536) (
          hold 1 (f.hdr.cpool < 16) (hold 1 (f.hdr.cred < 512) (hold 1 (f.hdr.nslot < 16) (hold 1 (f.hdr.hslot < 16) (hold 1 (f.hdr.low < 8) ([true])))))))))

theorem meets_FlitsReadBack :
    met 1 [clauses ⟨⟨15, true, false, true, true, 65535, 1, 15, 511, 15, 9, 7⟩, (List.range 15).map (fun i => BitVec.ofNat 128 (2^128 - 1 - i * 2^100))⟩] = true := by
  decide +kernel

end FlitsReadBack

end Sys2Proof.Tests
end

namespace Sys2Proof.Machine
open Host

/-! ### Writes of event blocks (R9 to R12, R38) -/

/-- The event block at base `b`, changed by `f`: every write of an event block is one of these. -/
def updEvt (b : Nat) (f : EvtBlock → EvtBlock) (s : State) : State := { s with evts := tmod evt0 s.evts b f }

@[simp] theorem getEvt_updEvt (b : Nat) (f : EvtBlock → EvtBlock) (s : State) : getEvt (updEvt b f s) b = f (getEvt s b) :=
  tget_tmod_self ..

theorem updEvt_keepsEvts (b : Nat) (f : EvtBlock → EvtBlock) (s : State) : KeepsEvts [b] s (updEvt b f s) :=
  fun _ hc => tget_tmod_ne _ _ _ (by simpa using hc)

theorem inEvt_iff {a b : Nat} : inEvt a b = true ↔ b ≤ a ∧ a < b + 0x40 := by simp [inEvt]

/-- The addresses of R487: what lies in the 64 bytes from a unit's base belongs to its event block, and to no other. Where a unit is one
of several, its number is the quotient by their distance. -/
theorem evtAt_evtBase_add (u : EvtUnit) {o : Nat} (ho : o < 0x40) : evtAt (evtBase u + o) = some (evtBase u) := by
  cases u <;>
    simp (disch := omega) only [evtAt, inEvt_iff, evtBase, evGlb, evTb, evMgt, evPro, evCal, evPwr, evDma, evWb, evAtm, evTst,
      evQd, evPrt, evLn, evDmaCh, qdBase, prtBase, lnBase, dmaChBase, if_pos, if_neg, Option.some.injEq]
  case qd | prt | ln | dmaCh => omega

/-- A write that the management port takes, not of MAGENT, is carried out in its cycle and finishes. -/
theorem portWrite_of_taken {a : Nat} {s : State} (h : WriteTaken a s) (v : Word) :
    portWrite false a v s = finishAccess false (writeReg false a v s).2 := by
  obtain ⟨hready, hmay, hmgt⟩ := h
  have hwait : (s.acts && inMgt a && s.lect.restart.isSome) = false := by
    cases hacts : s.acts
    · rfl
    · rcases hmgt hacts with hm | hr
      · simp [hm]
      · simp [hr]
  simp [portWrite, finishWrite, softWrite, hready, hwait, hmay]

/-- At an address of an event block there is nothing to check: the block takes the write. -/
theorem writeReg_of_evtAt {a b : Nat} (h : evtAt a = some b) (agent : Bool) (v : Word) (s : State) :
    (writeReg agent a v s).2 = writeEvt b (a - b) v s := by
  simp [writeReg, h]

/-- A write to offset `o` of a unit's event block whose effect on the block is `f`: the block is `f` of what it was, no other block and
no register changes, and the write finishes. -/
theorem portWrite_evtBase {u : EvtUnit} {o : Nat} {v : Word} {f : EvtBlock → EvtBlock} {s : State} (ho : o < 0x40)
    (h : WriteTaken (evtBase u + o) s) (hf : writeEvt (evtBase u) o v s = updEvt (evtBase u) f s) :
    let t := portWrite false (evtBase u + o) v s
    getEvt t (evtBase u) = f (getEvt s (evtBase u)) ∧ KeepsEvts [evtBase u] s t ∧ t.regs = s.regs ∧ Finished s t := by
  rw [portWrite_of_taken h, writeReg_of_evtAt (evtAt_evtBase_add u ho), Nat.add_sub_cancel_left, hf]
  exact ⟨getEvt_updEvt .., updEvt_keepsEvts _ f s, rfl, rfl, rfl⟩

/-! ### EVT_SET: several events occur -/

@[simp] theorem count_occur (k : EvtBlock) {e : Nat} (he : e < 32) : (k.occur e).count e = min (k.count e + 1) 255 :=
  (count_setCount k _ he).trans (Nat.mod_eq_of_lt (by omega))

theorem count_occur_ne (k : EvtBlock) {e j : Nat} (he : e < 32) (hj : j ≠ e) : (k.occur e).count j = k.count j :=
  count_setCount_ne k _ he hj

theorem raw_occur (k : EvtBlock) (e : Nat) {j : Nat} (hj : j < 32) :
    (k.occur e).raw.getLsbD j = (k.raw.getLsbD j || decide (j = e)) := by
  rw [EvtBlock.occur, BitVec.getLsbD_or, BitVec.getLsbD_ofNat, Nat.testBit_two_pow]
  simp [hj, eq_comm]

/-- A block after those of its first `n` events that `p` picks have occurred. -/
def EvtBlock.occurAll (p : Nat → Bool) (n : Nat) (k : EvtBlock) : EvtBlock :=
  (List.range n).foldl (fun k e => if p e then k.occur e else k) k

theorem occurAll_zero (p : Nat → Bool) (k : EvtBlock) : k.occurAll p 0 = k := rfl

theorem occurAll_succ (p : Nat → Bool) (n : Nat) (k : EvtBlock) :
    k.occurAll p (n + 1) = if p n then (k.occurAll p n).occur n else k.occurAll p n := by
  simp [EvtBlock.occurAll, List.range_succ]

theorem raw_occurAll (p : Nat → Bool) (n : Nat) (k : EvtBlock) {e : Nat} (he : e < 32) :
    (k.occurAll p n).raw.getLsbD e = (k.raw.getLsbD e || (decide (e < n) && p e)) := by
  induction n with
  | zero => simp [occurAll_zero]
  | succ n ih =>
    rw [occurAll_succ]
    by_cases hen : e = n
    · subst hen
      cases hp : p e <;> simp [raw_occur _ _ he, ih, hp]
    · have hlt : e < n + 1 ↔ e < n := by omega
      cases hp : p n <;> simp [raw_occur _ _ he, ih, hen, hlt]

/-- Every event that is picked is counted once. -/
theorem count_occurAll (p : Nat → Bool) {n : Nat} (hn : n ≤ 32) (k : EvtBlock) (e : Nat) :
    (k.occurAll p n).count e = if decide (e < n) && p e then min (k.count e + 1) 255 else k.count e := by
  induction n with
  | zero => simp [occurAll_zero]
  | succ n ih =>
    have ih := ih (by omega)
    have hn : n < 32 := hn
    rw [occurAll_succ]
    by_cases hen : e = n
    · subst hen
      cases hp : p e <;> simp [count_occur _ hn, ih, hp]
    · have hlt : e < n + 1 ↔ e < n := by omega
      cases hp : p n <;> simp [count_occur_ne _ hn hen, ih, hlt]

theorem evtCount_le (b : Nat) : evtCount b ≤ 32 := by
  unfold evtCount
  iterate 13 refine iteInduction (motive := (· ≤ 32)) (fun _ => by decide) fun _ => ?_
  decide

theorem evtDefined_lt {b e : Nat} (h : evtDefined b e = true) : e < evtCount b :=
  of_decide_eq_true (Bool.and_eq_true_iff.mp h).1

/-- An event is set where it is assigned and its bit is written 1; that it is one of those counted through says no more. -/
theorem evtSet_picks (b e : Nat) (v : Word) :
    (decide (e < evtCount b) && (evtDefined b e && v.getLsbD e)) = (v.getLsbD e && evtDefined b e) := by
  cases h : evtDefined b e
  · simp
  · simp [evtDefined_lt h]

/-! ### EVT_CNT[k]: four counters are written -/

/-- What counter `j` of those of EVT_CNT[k] takes: the value written, plus one for an event of the same cycle (R11). -/
def cntTaken (k : Nat) (v : Word) (hw : BitVec 32) (j : Nat) : Nat := min 255 (fld v (8 * j) 8 + bit (hw.getLsbD (4 * k + j)))

/-- A block after the first `n` counters of EVT_CNT[k] have been written, those whose event `p` picks. -/
def EvtBlock.cntWritten (p : Nat → Bool) (k : Nat) (v : Word) (n : Nat) (x : EvtBlock) : EvtBlock :=
  (List.range n).foldl (fun x j => if p (4 * k + j) then x.setCount (4 * k + j) (cntTaken k v x.hw j) else x) x

section
variable (p : Nat → Bool) (k : Nat) (v : Word) (n : Nat) (x : EvtBlock)

theorem cntWritten_zero : x.cntWritten p k v 0 = x := rfl

theorem cntWritten_succ :
    x.cntWritten p k v (n + 1) =
      if p (4 * k + n) then (x.cntWritten p k v n).setCount (4 * k + n) (cntTaken k v (x.cntWritten p k v n).hw n)
      else x.cntWritten p k v n := by
  simp [EvtBlock.cntWritten, List.range_succ]

theorem raw_cntWritten : (x.cntWritten p k v n).raw = x.raw := by
  induction n with
  | zero => rfl
  | succ n ih => rw [cntWritten_succ]; split <;> exact ih

theorem hw_cntWritten : (x.cntWritten p k v n).hw = x.hw := by
  induction n with
  | zero => rfl
  | succ n ih => rw [cntWritten_succ]; split <;> exact ih

end

/-- Outside the counters gone through, none changes. -/
theorem count_cntWritten_ne (p : Nat → Bool) {k n : Nat} (v : Word) (x : EvtBlock) {e : Nat} (hn : 4 * k + n ≤ 32)
    (he : e < 4 * k ∨ 4 * k + n ≤ e) : (x.cntWritten p k v n).count e = x.count e := by
  induction n with
  | zero => rfl
  | succ n ih =>
    have ih := ih (by omega) (by omega)
    rw [cntWritten_succ]
    split
    · rw [count_setCount_ne _ _ (by omega) (by omega), ih]
    · exact ih

/-- A counter whose event is picked takes its value. -/
theorem count_cntWritten (p : Nat → Bool) {k n j : Nat} (v : Word) (x : EvtBlock) (hn : 4 * k + n ≤ 32) (hj : j < n)
    (hp : p (4 * k + j) = true) : (x.cntWritten p k v n).count (4 * k + j) = cntTaken k v x.hw j := by
  induction n with
  | zero => omega
  | succ n ih =>
    rw [cntWritten_succ]
    by_cases hjn : j = n
    · subst hjn
      have hlt : cntTaken k v x.hw j < 256 := by unfold cntTaken; omega
      rw [if_pos hp, count_setCount _ _ (by omega), hw_cntWritten, Nat.mod_eq_of_lt hlt]
    · have ih := ih (by omega) (by omega)
      split
      · rw [count_setCount_ne _ _ (by omega) (by omega), ih]
      · exact ih

/-! ### The three writes -/

theorem writeEvt_clr (b : Nat) (v : Word) (s : State) :
    writeEvt b 0x0C v s = updEvt b (fun k => { k with raw := k.raw &&& (~~~v ||| k.hw) }) s := rfl

theorem writeEvt_set (b : Nat) (v : Word) (s : State) :
    writeEvt b 0x10 v s = updEvt b (EvtBlock.occurAll (fun e => evtDefined b e && v.getLsbD e) (evtCount b)) s := rfl

theorem writeEvt_cnt (b : Nat) (k : Fin 8) (v : Word) (s : State) :
    writeEvt b (0x20 + 4 * k) v s = updEvt b (EvtBlock.cntWritten (evtDefined b) k v 4) s := by
  have hk := k.isLt
  have hidx : (0x20 + 4 * k.val - 0x20) / 4 = k.val := by omega
  unfold writeEvt
  rw [if_neg (by omega), if_neg (by omega), if_neg (by omega), if_pos (by omega), hidx]
  rfl

/-- A clear loses to an event of the same cycle (R11). -/
theorem exec_evtClrWrite {u : EvtUnit} {s : State} (v : Word) (h : WriteTaken (evtBase u + 0x0C) s) :
    ∃ t, exec (.evtClrWrite u v) s = .next t ∧
      getEvt t (evtBase u) = { getEvt s (evtBase u) with raw := (getEvt s (evtBase u)).raw &&& (~~~v ||| (getEvt s (evtBase u)).hw) } ∧
      KeepsEvts [evtBase u] s t ∧ t.regs = s.regs ∧ Finished s t :=
  ⟨_, rfl, portWrite_evtBase (by decide) h (writeEvt_clr ..)⟩

/-- A set is each written event's occurring (R10). -/
theorem exec_evtSetWrite {u : EvtUnit} {s : State} (v : Word) (h : WriteTaken (evtBase u + 0x10) s) :
    ∃ t, exec (.evtSetWrite u v) s = .next t ∧
      getEvt t (evtBase u) =
        (getEvt s (evtBase u)).occurAll (fun e => evtDefined (evtBase u) e && v.getLsbD e) (evtCount (evtBase u)) ∧
      KeepsEvts [evtBase u] s t ∧ t.regs = s.regs ∧ Finished s t :=
  ⟨_, rfl, portWrite_evtBase (by decide) h (writeEvt_set ..)⟩

/-- The four counters of EVT_CNT[k] are written (R11). -/
theorem exec_evtCntWrite {u : EvtUnit} {k : Fin 8} {s : State} (v : Word) (h : WriteTaken (evtBase u + 0x20 + 4 * k) s) :
    ∃ t, exec (.evtCntWrite u k v) s = .next t ∧
      getEvt t (evtBase u) = (getEvt s (evtBase u)).cntWritten (evtDefined (evtBase u)) k v 4 ∧
      KeepsEvts [evtBase u] s t ∧ t.regs = s.regs ∧ Finished s t := by
  refine ⟨portWrite false (evtBase u + 0x20 + 4 * k) v s, rfl, ?_⟩
  rw [Nat.add_assoc] at h ⊢
  exact portWrite_evtBase (by omega) h (writeEvt_cnt ..)

/-- Settles O15: an event raised is `raise_raised`; each write is one change of the unit's own block, whose raw bits and counters the
lemmas on `occurAll` and `cntWritten` give. -/
theorem eventBlockWrites : Obligations.EventBlockWrites := by
  unfold Obligations.EventBlockWrites
  intro u v s
  refine ⟨fun e he => raise_raised _ he s, exec_evtClrWrite v, fun h => ?set, fun k h => ?cnt⟩
  case set =>
    obtain ⟨t, hexec, hblock, hkept⟩ := exec_evtSetWrite v h
    refine ⟨t, hexec, fun e he => ?_, fun e _ => ?_, hkept⟩
    · rw [hblock, raw_occurAll _ _ _ he, evtSet_picks]
    · rw [hblock, count_occurAll _ (evtCount_le _), evtSet_picks]
  case cnt =>
    have hk := k.isLt
    obtain ⟨t, hexec, hblock, hkept⟩ := exec_evtCntWrite v h
    refine ⟨t, hexec, ?_, fun j hj hdef => ?_, fun e _ hne => ?_, hkept⟩
    · rw [hblock, raw_cntWritten]
    · rw [hblock]; exact count_cntWritten _ v _ (by omega) hj hdef
    · rw [hblock]; exact count_cntWritten_ne _ v _ (by omega) (by omega)

end Sys2Proof.Machine

namespace Sys2Proof.Machine
open Host

/-! ### Cycle 0 of a tick (R66, R422, R483) -/

section
variable {P : Part → Bool} [Off P .regs] [Off P .bumps] [Off P .evts] [Off P .flt] [Off P .tb] [Off P .lanes] [Off P .ports] [Off P .banks]
  [Off P .ips] [Off P .tx] [Off P .wb] [Off P .col] [Off P .dma] [Off P .quads] [Off P .leaving] [Off P .returning] [Off P .bring]

/-- Where no change of the adapter's state is ordered, its boundary comes through cycle 0 as it was (R422): `tickEffects_mask` with the
boundary asked about. -/
theorem tickEffects_mask_of_no_order (hP : P .bnd = true) (old : State) {s : State} (h : s.bnd.nextState = none) :
    mask P (tickEffects old s) = mask P s := by
  unfold tickEffects
  extract_lets s1 s2
  have hpre : mask P (bootTime (decide (old.bnd.adp = .boot)) (moveUnits s2)) = mask P s := by simp [s2, s1]
  have hbnd := congrArg State.bnd hpre
  simp only [mask, hP, cond_true] at hbnd
  rw [settle_mask, adapterTick, hbnd, h, beginOthers_mask, hpre]

end

theorem tickEffects_bnd (old : State) {s : State} (h : s.bnd.nextState = none) : (tickEffects old s).bnd = s.bnd :=
  Part.same_of_mask (q := .bnd) (@tickEffects_mask_of_no_order _ ⟨rfl⟩ ⟨rfl⟩ ⟨rfl⟩ ⟨rfl⟩ ⟨rfl⟩ ⟨rfl⟩ ⟨rfl⟩ ⟨rfl⟩
    ⟨rfl⟩ ⟨rfl⟩ ⟨rfl⟩ ⟨rfl⟩ ⟨rfl⟩ ⟨rfl⟩ ⟨rfl⟩ ⟨rfl⟩ ⟨rfl⟩ rfl old s h)

/-- The time, and the values in force, are what `nextTick` made them. -/
theorem tickEffects_same {q : Part} (hq : q = .cts ∨ q = .inForce) (old s : State) : q.same s (tickEffects old s) := by
  rcases hq with rfl | rfl <;>
    exact Part.same_of_mask (@tickEffects_mask _ ⟨rfl⟩ ⟨rfl⟩ ⟨rfl⟩ ⟨rfl⟩ ⟨rfl⟩ ⟨rfl⟩ ⟨rfl⟩ ⟨rfl⟩ ⟨rfl⟩
      ⟨rfl⟩ ⟨rfl⟩ ⟨rfl⟩ ⟨rfl⟩ ⟨rfl⟩ ⟨rfl⟩ ⟨rfl⟩ ⟨rfl⟩ ⟨rfl⟩ old s)

theorem tickEffects_cts (old s : State) : (tickEffects old s).cts = s.cts := tickEffects_same (q := .cts) (.inl rfl) old s
theorem tickEffects_inForce (old s : State) : (tickEffects old s).inForce = s.inForce := tickEffects_same (q := .inForce) (.inr rfl) old s

theorem tickBoundary_of_not_counts {s : State} (h : s.counts = false) : tickBoundary s = s := by simp [tickBoundary, h]

theorem tickBoundary_of_not_acts {s : State} (h : s.counts = true) (ha : s.acts = false) : tickBoundary s = nextTick s := by
  simp [tickBoundary, h, ha]

theorem tickBoundary_of_acts {s : State} (h : s.counts = true) (ha : s.acts = true) : tickBoundary s = tickEffects s (nextTick s) := by
  simp [tickBoundary, h, ha]

theorem tickBoundary_cts {s : State} (h : s.counts = true) : (tickBoundary s).cts = (s.tick + 1) * 1024 := by
  cases ha : s.acts
  · rw [tickBoundary_of_not_acts h ha]; rfl
  · rw [tickBoundary_of_acts h ha, tickEffects_cts]; rfl

theorem tickBoundary_inForce {s : State} (h : s.counts = true) : (tickBoundary s).inForce = s.regs := by
  cases ha : s.acts
  · rw [tickBoundary_of_not_acts h ha]; rfl
  · rw [tickBoundary_of_acts h ha, tickEffects_inForce]; rfl

theorem tickBoundary_adp_of_no_order {s : State} (h : s.counts = true) (ha : s.acts = true) (hn : s.bnd.nextState = none) :
    (tickBoundary s).bnd.adp = s.bnd.adp := by
  rw [tickBoundary_of_acts h ha, tickEffects_bnd s (s := nextTick s) hn]; rfl

/-! ### What the failure of a unit leaves as it was (R17, R86) -/

/-- The records of overruns that wait for the fault log. -/
def overrunRecs (s : State) : List FaultRec := s.flt.held.filter (fun r => r.code = 0x0406)

/-- The registers below those of the quads, the time base's among them; the event block of the time base; and the records of overruns.
No failure of a unit changes any of them: one equation for each operation of which a failure is made up says so. -/
def tbView (s : State) : (Nat → Word) × EvtBlock × List FaultRec :=
  (fun a => if a < 0x8000 then getReg s a else 0, getEvt s evTb, overrunRecs s)

/-- Part by part: an operation's equation by `rfl` alone would have the kernel evaluate what the operation is applied to. -/
theorem tbView_congr {s t : State} (hr : ∀ a, a < 0x8000 → getReg t a = getReg s a) (he : getEvt t evTb = getEvt s evTb)
    (hf : overrunRecs t = overrunRecs s) : tbView t = tbView s := by
  unfold tbView
  rw [he, hf]
  congr 1
  funext a
  exact ite_congr rfl (hr a) fun _ => rfl

theorem getReg_of_tbView {s t : State} (h : tbView t = tbView s) {a : Nat} (ha : a < 0x8000) : getReg t a = getReg s a := by
  simpa [tbView, ha] using congrFun (congrArg Prod.fst h) a

theorem getEvt_of_tbView {s t : State} (h : tbView t = tbView s) : getEvt t evTb = getEvt s evTb := congrArg (·.2.1) h

theorem mem_held_of_tbView {s t : State} (h : tbView t = tbView s) {r : FaultRec} (hc : r.code = 0x0406) (hr : r ∈ s.flt.held) :
    r ∈ t.flt.held := by
  have hmem : r ∈ overrunRecs s := by simp [overrunRecs, hr, hc]
  have hrecs : overrunRecs t = overrunRecs s := congrArg (·.2.2) h
  rw [← hrecs] at hmem
  exact (List.mem_filter.mp hmem).1

theorem tbView_setF {a : Nat} (ha : 0x8000 ≤ a) (lo w x : Nat) (s : State) : tbView (setF a lo w x s) = tbView s :=
  tbView_congr (fun _ _ => getReg_setF_ne (by omega) ..) rfl rfl

theorem tbView_bump {a : Nat} (ha : 0x8000 ≤ a) (lo w : Nat) (s : State) : tbView (bump a lo w s) = tbView s :=
  tbView_setF ha lo w _ s

theorem tbView_raise {b : Nat} (hb : evTb ≠ b) (e : Nat) (s : State) : tbView (raise b e s) = tbView s :=
  tbView_congr (fun _ _ => rfl) (getEvt_raise_ne hb e s) rfl

theorem tbView_handOver {code : Nat} (hc : code ≠ 0x0406) (src unit : Nat) (lvl : FaultLevel) (act : FaultAct) (detail : Nat) (s : State) :
    tbView (handOver src unit lvl code act detail s) = tbView s := by
  refine tbView_congr (fun _ _ => rfl) rfl ?_
  simp [overrunRecs, handOver, hc]

@[simp] theorem tbView_updPort (p : Nat) (f : Port → Port) (s : State) : tbView (updPort p f s) = tbView s :=
  tbView_congr (fun _ _ => rfl) rfl rfl
@[simp] theorem tbView_updLn (p : Nat) (f : PortLane → PortLane) (s : State) : tbView (updLn p f s) = tbView s :=
  tbView_congr (fun _ _ => rfl) rfl rfl
@[simp] theorem tbView_updQuad (q : Nat) (f : Quad → Quad) (s : State) : tbView (updQuad q f s) = tbView s :=
  tbView_congr (fun _ _ => rfl) rfl rfl
@[simp] theorem tbView_updTst (f : TestCtl → TestCtl) (s : State) : tbView (updTst f s) = tbView s := tbView_congr (fun _ _ => rfl) rfl rfl
@[simp] theorem tbView_tst (x : TestCtl) (s : State) : tbView { s with tst := x } = tbView s := tbView_congr (fun _ _ => rfl) rfl rfl
@[simp] theorem tbView_returning (l : List (Nat × Nat)) (s : State) : tbView { s with returning := l } = tbView s :=
  tbView_congr (fun _ _ => rfl) rfl rfl

@[simp] theorem tbView_foldl {β : Type} (f : State → β → State) (l : List β) (s : State) (h : ∀ t e, tbView (f t e) = tbView t) :
    tbView (l.foldl f s) = tbView s := by
  induction l generalizing s with
  | nil => rfl
  | cons e l ih => rw [List.foldl_cons, ih, h]

/-! #### Port engines -/

theorem le_qdBase (q : Nat) : 0x8000 ≤ qdBase q := by unfold qdBase; omega
theorem le_prtBase (p : Nat) : 0x10000 ≤ prtBase p := by unfold prtBase; omega
theorem evTb_ne_evQd (q : Nat) : evTb ≠ evQd q := by unfold evTb evQd qdBase; omega
theorem evTb_ne_evPrt (p : Nat) : evTb ≠ evPrt p := by unfold evTb evPrt prtBase; omega

@[simp] theorem tbView_raise_qd (q e : Nat) (s : State) : tbView (raise (evQd q) e s) = tbView s := tbView_raise (evTb_ne_evQd q) e s

@[simp] theorem tbView_bump_engCnt (q lo w : Nat) (s : State) : tbView (bump (qdEngCnt q) lo w s) = tbView s :=
  tbView_bump (Nat.le_add_right_of_le (le_qdBase q)) lo w s

@[simp] theorem tbView_setF_shdSts (q lo w x : Nat) (s : State) : tbView (setF (qdShdSts q) lo w x s) = tbView s :=
  tbView_setF (Nat.le_add_right_of_le (le_qdBase q)) lo w x s

@[simp] theorem tbView_setF_engSts (q lo w x : Nat) (s : State) : tbView (setF (qdEngSts q) lo w x s) = tbView s :=
  tbView_setF (Nat.le_add_right_of_le (le_qdBase q)) lo w x s

@[simp] theorem tbView_setEng (p e : Nat) (s : State) : tbView (setEng p e s) = tbView s := by
  have := le_prtBase p
  unfold setEng
  split
  · rfl
  · rw [tbView_raise (evTb_ne_evPrt p), tbView_setF (by unfold prtEng; omega)]

@[simp] theorem tbView_retireEng (q e : Nat) (s : State) : tbView (retireEng q e s) = tbView s := by simp [retireEng]
@[simp] theorem tbView_noShadow (q : Nat) (s : State) : tbView (noShadow q s) = tbView s := by simp [noShadow]
@[simp] theorem tbView_detach (q : Nat) (s : State) : tbView (detach q s) = tbView s := tbView_congr (fun _ _ => rfl) rfl rfl
@[simp] theorem tbView_stopPort (p : Nat) (s : State) : tbView (stopPort p s) = tbView s := tbView_congr (fun _ _ => rfl) rfl rfl
@[simp] theorem tbView_loseForEngine (q p : Nat) (s : State) : tbView (loseForEngine q p s) = tbView s := by simp [loseForEngine]

@[simp] theorem tbView_takeOver (q e p : Nat) (s : State) : tbView (takeOver q e p s) = tbView s := by
  unfold takeOver
  dsimp only
  split
  · simp
  · split <;> simp

@[simp] theorem tbView_noteSelf (q e cause : Nat) (act : FaultAct) (s : State) : tbView (noteSelf q e cause act s) = tbView s := by
  simp [noteSelf, tbView_handOver]

@[simp] theorem tbView_mismatch (q p : Nat) (eF sF : Bool) (s : State) : tbView (mismatch q p eF sF s) = tbView s := by
  unfold mismatch
  dsimp only
  split <;> simp [tbView_handOver]

@[simp] theorem tbView_engFails (q e cause : Nat) (s : State) : tbView (engFails q e cause s) = tbView s := by
  unfold engFails
  dsimp only
  (repeat' split) <;> simp

/-! #### Lanes, the test controller, the time base -/

/-- What `Laws/Frame.lean` says of an operation that touches no register, event block or fault log serves here. -/
theorem tbView_of_same {s t : State} (hr : Part.regs.same s t) (he : Part.evts.same s t) (hf : Part.flt.same s t) : tbView t = tbView s :=
  tbView_congr (fun a _ => congrArg (fun r => tget regReset r a) hr) (congrArg (fun t => tget evt0 t evTb) he)
    (by rw [overrunRecs, show t.flt = s.flt from hf]; rfl)

@[simp] theorem tbView_planSwap (p lane sub : Nat) (abort : Bool) (c : RepairCause) (s : State) :
    tbView (planSwap p lane sub abort c s) = tbView s := by
  apply tbView_of_same <;> exact Part.same_of_mask (@planSwap_mask _ ⟨rfl⟩ ⟨rfl⟩ p lane sub abort c s)

@[simp] theorem tbView_failNext (l : Nat) (c : RepairCause) (s : State) : tbView (failNext l c s) = tbView s :=
  tbView_congr (fun _ _ => rfl) rfl rfl
@[simp] theorem tbView_failAndReset (l : Nat) (c : RepairCause) (s : State) : tbView (failAndReset l c s) = tbView s :=
  tbView_congr (fun _ _ => rfl) rfl rfl
@[simp] theorem tbView_raise_cal (e : Nat) (s : State) : tbView (raise evCal e s) = tbView s := tbView_raise (by decide) e s

@[simp] theorem tbView_requestRepair (l : Nat) (c : RepairCause) (s : State) : tbView (requestRepair l c s) = tbView s := by
  unfold requestRepair repair
  dsimp only
  (repeat' split) <;> simp

theorem tget_foldl_tmod_ne {α β : Type} [DecidableEq α] (d : Nat → α) (key : β → Nat) (f : α → α) {a : Nat} (l : List β) (t : Tab α)
    (h : ∀ e, a ≠ key e) : tget d (l.foldl (fun t e => tmod d t (key e) f) t) a = tget d t a := by
  induction l generalizing t with
  | nil => rfl
  | cons e l ih => rw [List.foldl_cons, ih, tget_tmod_ne _ _ _ (h e)]

@[simp] theorem tbView_endTrainings (s : State) : tbView (endTrainings s) = tbView s := by
  refine tbView_congr (fun a ha => tget_foldl_tmod_ne regReset prtLtrn _ _ _ fun p => ?_) rfl rfl
  have := le_prtBase p
  unfold prtLtrn; omega

@[simp] theorem tbView_enterFault (s : State) : tbView (enterFault s) = tbView s := by
  unfold enterFault
  split
  · rfl
  · rw [tbView_raise (by decide)]; exact tbView_endTrainings s

@[simp] theorem tbView_loseTb (s : State) : tbView (loseTb s) = tbView s := by
  rw [loseTb, tbView_enterFault, tbView_handOver (by decide)]; rfl

@[simp] theorem tbView_returnEng (q e : Nat) (back : Bool) (s : State) : tbView (returnEng q e back s) = tbView s := by
  unfold returnEng
  dsimp only
  (repeat' split) <;> simp

@[simp] theorem tbView_engBist (q e code : Nat) (s : State) : tbView (engBist q e code s) = tbView s := tbView_handOver (by decide) ..

@[simp] theorem tbView_settleUnit (x : Slice) (code : Nat) (s : State) : tbView (settleUnit x code s) = tbView s := by
  unfold settleUnit
  dsimp only
  (repeat' split) <;> simp

@[simp] theorem tbView_endSlice (x : Slice) (code cause : Nat) (s : State) : tbView (endSlice x code cause s) = tbView s := by
  have hraise (e : Nat) (t : State) : tbView (raise evTst e t) = tbView t := tbView_raise (by decide) e t
  unfold endSlice
  dsimp only
  rw [tbView_settleUnit]
  split <;> simp [hraise, tbView_bump, tbView_setF, tstCnt0, tstCnt1, tstSts]

@[simp] theorem tbView_unitFails (u : Nat) (s : State) : tbView (unitFails u s) = tbView s := by
  unfold unitFails
  (repeat' split) <;> simp

/-! ### Overruns (R85, R86) -/

/-- What an overrun of an item does in its unit leaves the registers, the event blocks and the fault log alone. -/
theorem overrun_same {q : Part} (hq : q = .regs ∨ q = .evts ∨ q = .flt) (item : Nat) (p : Option Nat) (s : State) :
    q.same s (overrun item p s) := by
  rcases hq with rfl | rfl | rfl <;> exact Part.same_of_mask (@overrun_mask _ ⟨rfl⟩ ⟨rfl⟩ ⟨rfl⟩ ⟨rfl⟩ item p s)

theorem tbView_overrun (item : Nat) (p : Option Nat) (s : State) : tbView (overrun item p s) = tbView s :=
  tbView_of_same (overrun_same (by simp) ..) (overrun_same (by simp) ..) (overrun_same (by simp) ..)

/-- An overrun is counted: how many ticks running, and in the item's counter. -/
def overrunCounted (item unit : Nat) (s : State) : State :=
  bump (tbOvrCnt (item / 4)) (8 * (item % 4)) 8
    { s with tb := { s.tb with overruns := tset (fun _ => (0, 0)) s.tb.overruns (item * 16384 + unit) (s.tick, overrunRun item unit s) } }

/-- An overrun is counted, shown in TB_OVR_STS and raised. -/
def overrunNoted (item unit : Nat) (s : State) : State := raise evTb 0 (recordOverrun item unit (overrunCounted item unit s))

/-- The raw bit of the event raised is set, and one that was set stays so (R10). -/
theorem raw_getLsbD_raise (b : Nat) {e : Nat} (he : e < 32) (s : State) {i : Nat} (hi : i = e ∨ (getEvt s b).raw.getLsbD i = true) :
    (getEvt (raise b e s) b).raw.getLsbD i = true := by
  obtain ⟨hraw, -⟩ := raise_raised b he s
  rw [hraw, BitVec.getLsbD_or, BitVec.getLsbD_ofNat, Nat.testBit_two_pow]
  rcases hi with rfl | hi
  · simp [he]
  · simp [hi]

theorem recordOverrun_flt (item unit : Nat) (s : State) : (recordOverrun item unit s).flt = s.flt :=
  Part.same_of_mask (q := .flt) (@recordOverrun_mask _ ⟨rfl⟩ ⟨rfl⟩ item unit s)

theorem overrunNoted_flt (item unit : Nat) (s : State) : (overrunNoted item unit s).flt = s.flt :=
  recordOverrun_flt item unit (overrunCounted item unit s)

theorem overrunNoted_raised (item unit : Nat) (s : State) : (getEvt (overrunNoted item unit s) evTb).raw.getLsbD 0 = true :=
  raw_getLsbD_raise _ (by decide) _ (.inl rfl)

theorem getF_bump (a lo w : Nat) (s : State) (h : lo + w ≤ 32) : getF (bump a lo w s) a lo w = min (getF s a lo w + 1) (2 ^ w - 1) := by
  have hpos := Nat.two_pow_pos w
  exact (getF_setF a _ s h).trans (Nat.mod_eq_of_lt (by omega))

theorem getF_bump_ne {a b : Nat} (hb : b ≠ a) (lo w l u : Nat) (s : State) : getF (bump a lo w s) b l u = getF s b l u :=
  getF_setF_ne hb lo w _ l u s

theorem tbOvrCnt_ne_tbOvrSts (k : Nat) : tbOvrCnt k ≠ tbOvrSts := by unfold tbOvrCnt tbOvrSts; omega

/-- TB_OVR_STS is all that showing an overrun writes. -/
theorem getF_recordOverrun_ne {a : Nat} (ha : a ≠ tbOvrSts) (item unit lo w : Nat) (s : State) :
    getF (recordOverrun item unit s) a lo w = getF s a lo w := by
  unfold recordOverrun
  split
  · rfl
  · rw [getF_setF_ne ha, getF_setF_ne ha]; rfl

/-- TB_OVR_STS shows the overrun, unless it shows one of the same cycle that comes later in the order of R89. -/
theorem recordOverrun_shows {item unit : Nat} {s : State} (hi : item < 8) (hu : unit < 2 ^ 14)
    (h : s.tb.ovrAt ≠ some s.cts ∨ getF s tbOvrSts 3 14 ≤ unit) :
    getF (recordOverrun item unit s) tbOvrSts 0 3 = item ∧ getF (recordOverrun item unit s) tbOvrSts 3 14 = unit := by
  have hshown : ¬ (s.tb.ovrAt = some s.cts ∧ unit < getF s tbOvrSts 3 14) := by
    rintro ⟨hat, hlt⟩
    exact h.elim (absurd hat) (Nat.not_le_of_lt hlt)
  rw [recordOverrun, if_neg hshown]
  refine ⟨(getF_setF _ _ _ (by decide)).trans (Nat.mod_eq_of_lt hi), ?_⟩
  rw [getF_setF_other _ _ _ (by decide) (by decide)]
  exact (getF_setF _ _ _ (by decide)).trans (Nat.mod_eq_of_lt hu)

theorem overrunNoted_counter (item unit : Nat) (s : State) :
    getF (overrunNoted item unit s) (tbOvrCnt (item / 4)) (8 * (item % 4)) 8 =
      min (getF s (tbOvrCnt (item / 4)) (8 * (item % 4)) 8 + 1) 255 :=
  (getF_recordOverrun_ne (tbOvrCnt_ne_tbOvrSts _) item unit _ _ (overrunCounted item unit s)).trans (getF_bump _ _ _ _ (by omega))

theorem overrunNoted_shows {item unit : Nat} {s : State} (hi : item < 8) (hu : unit < 2 ^ 14)
    (h : s.tb.ovrAt ≠ some s.cts ∨ getF s tbOvrSts 3 14 ≤ unit) :
    getF (overrunNoted item unit s) tbOvrSts 0 3 = item ∧ getF (overrunNoted item unit s) tbOvrSts 3 14 = unit := by
  refine recordOverrun_shows (s := overrunCounted item unit s) hi hu (h.imp id fun hle => ?_)
  rwa [overrunCounted, getF_bump_ne (tbOvrCnt_ne_tbOvrSts _).symm]

/-- An overrun noted, with what it does in its unit. -/
def overrunDone (item unit : Nat) (s : State) : State :=
  overrun item (if isEngine unit then servedBy ((unit - 0x300) / 32) ((unit - 0x300) % 32) s else none) (overrunNoted item unit s)

/-- The 16th in a row: it is handed to the fault log, and the count begins again. -/
def overrunHanded (item unit : Nat) (s : State) : State :=
  let v := overrunDone item unit s
  handOver unitTb unit (unitLevel unit) 0x0406 .none item { v with tb := { v.tb with overruns := tdrop v.tb.overruns (item * 16384 + unit) } }

theorem exec_tickOverrun (item : Fin 8) (unit : BitVec 14) {s : State} (h : s.acts = true) :
    exec (.tickOverrun item unit) s =
      if overrunRun item unit.toNat s = 16 then .next (unitFails unit.toNat (overrunHanded item unit.toNat s))
      else .next (overrunDone item unit.toNat s) := by
  show execTickOverrun item unit s = _
  rw [execTickOverrun, h]
  rfl

/-- In the time base's registers and event block the overrun stands as it was noted. -/
theorem overrunDone_tb (item unit : Nat) (s : State) :
    (∀ a, a < 0x8000 → getReg (overrunDone item unit s) a = getReg (overrunNoted item unit s) a) ∧
      getEvt (overrunDone item unit s) evTb = getEvt (overrunNoted item unit s) evTb :=
  ⟨fun _ => getReg_of_tbView (tbView_overrun ..), getEvt_of_tbView (tbView_overrun ..)⟩

theorem overrunDone_flt (item unit : Nat) (s : State) : (overrunDone item unit s).flt = s.flt :=
  (overrun_same (q := .flt) (by simp) ..).trans (overrunNoted_flt ..)

theorem overrunHanded_held (item unit : Nat) (s : State) : ∃ r ∈ (overrunHanded item unit s).flt.held, r.unit = unit ∧ r.code = 0x0406 :=
  ⟨_, List.mem_append_right _ (List.mem_singleton_self _), rfl, rfl⟩

/-- The failure of the unit after the 16th overrun in a row takes none of it back. -/
theorem unitFails_overrunHanded (item unit : Nat) (s : State) :
    (∀ a, a < 0x8000 → getReg (unitFails unit (overrunHanded item unit s)) a = getReg (overrunNoted item unit s) a) ∧
      getEvt (unitFails unit (overrunHanded item unit s)) evTb = getEvt (overrunNoted item unit s) evTb ∧
      ∃ r ∈ (unitFails unit (overrunHanded item unit s)).flt.held, r.unit = unit ∧ r.code = 0x0406 := by
  have hkept := tbView_unitFails unit (overrunHanded item unit s)
  obtain ⟨hregs, hevts⟩ := overrunDone_tb item unit s
  obtain ⟨r, hr, hunit, hcode⟩ := overrunHanded_held item unit s
  exact ⟨fun a ha => (getReg_of_tbView hkept ha).trans (hregs a ha), (getEvt_of_tbView hkept).trans hevts,
    r, mem_held_of_tbView hkept hcode hr, hunit, hcode⟩

/-- R85, R86: what TICK_OVERRUN leaves. -/
theorem tickOverrun_outcome (item : Fin 8) (unit : BitVec 14) {s : State} (h : s.acts = true) :
    ∃ t, exec (.tickOverrun item unit) s = .next t ∧
      (∀ a, a < 0x8000 → getReg t a = getReg (overrunNoted item unit.toNat s) a) ∧
      getEvt t evTb = getEvt (overrunNoted item unit.toNat s) evTb ∧
      (overrunRun item unit.toNat s = 16 → ∃ r ∈ t.flt.held, r.unit = unit.toNat ∧ r.code = 0x0406) ∧
      (overrunRun item unit.toNat s ≠ 16 → t.flt = s.flt) := by
  rw [exec_tickOverrun item unit h]
  split
  case isTrue h16 =>
    obtain ⟨hregs, hevts, hrec⟩ := unitFails_overrunHanded item unit.toNat s
    exact ⟨_, rfl, hregs, hevts, fun _ => hrec, fun hn => absurd h16 hn⟩
  case isFalse h16 =>
    obtain ⟨hregs, hevts⟩ := overrunDone_tb item unit.toNat s
    exact ⟨_, rfl, hregs, hevts, fun hn => absurd hn h16, fun _ => overrunDone_flt ..⟩

/-! ### A tick without a valid upstream marker (R78, R79) -/

theorem arrive_tb (c : Nat) (s : State) : (arrive c s).tb = s.tb := by
  unfold arrive; split <;> rfl

/-- A lost marker is counted and raised before the time state is looked at. -/
def markerCounted (s : State) : State :=
  raise evTb 1 { s with tb := { s.tb with miss := min (s.tb.miss + 1) 255, lostTick := some s.tick } }

theorem markerCounted_raised (s : State) : (getEvt (markerCounted s) evTb).raw.getLsbD 1 = true := raw_getLsbD_raise _ (by decide) _ (.inl rfl)

theorem markerCounted_state (s : State) : (markerCounted s).tb.state = s.tb.state := rfl

/-- Fewer than eight in a row. -/
theorem markerLost_of_few {s : State} (h : s.tb.miss < 7) : markerLost s = markerCounted s := if_pos (by omega)

/-- The eighth in a row and those after it. -/
theorem markerLost_of_many {s : State} (h : 7 ≤ s.tb.miss) :
    markerLost s = match s.tb.state with
      | .acquiring => { toTime .free (markerCounted s) with tb :=
          { (toTime .free (markerCounted s)).tb with trim := 0, estimate := [], stepped := false, acc := 0 } }
      | .locked => raise evTb 3 { toTime .holdover (markerCounted s) with tb :=
          { (toTime .holdover (markerCounted s)).tb with trim := meanInt s.tb.trims } }
      | _ => markerCounted s := if_neg (by omega)

theorem markerLost_raised (s : State) : (getEvt (markerLost s) evTb).raw.getLsbD 1 = true := by
  have hcounted := markerCounted_raised s
  by_cases h : s.tb.miss < 7
  · rwa [markerLost_of_few h]
  · rw [markerLost_of_many (by omega)]
    split
    · exact hcounted
    · exact raw_getLsbD_raise _ (by decide) _ (.inr hcounted)
    · exact hcounted

theorem markerLost_miss (s : State) : (markerLost s).tb.miss = min (s.tb.miss + 1) 255 := by
  by_cases h : s.tb.miss < 7
  · rw [markerLost_of_few h]; rfl
  · rw [markerLost_of_many (by omega)]
    split <;> rfl

theorem markerLost_state {s : State} (h : 7 ≤ s.tb.miss) :
    (markerLost s).tb.state = match s.tb.state with | .acquiring => .free | .locked => .holdover | x => x := by
  rw [markerLost_of_many h]
  cases hs : s.tb.state <;> simp [toTime, markerCounted, hs]

theorem markerLost_of_locked {s : State} (h : 7 ≤ s.tb.miss) (hl : s.tb.state = .locked) :
    (markerLost s).tb.trim = meanInt s.tb.trims ∧ (getEvt (markerLost s) evTb).raw.getLsbD 3 = true := by
  rw [markerLost_of_many h, hl]
  exact ⟨rfl, raw_getLsbD_raise _ (by decide) _ (.inl rfl)⟩

theorem exec_markerLost {s : State} (ha : s.acts = true) (hu : s.upstream.isSome = true) (hm : s.markerSeen = false)
    (hl : s.tb.lostTick ≠ some s.tick) : exec .markerLost s = .next (markerLost (arrive 1023 s)) := by
  show execMarkerLost s = _
  simp [execMarkerLost, ha, hu, hm, hl]

theorem exec_holdoverExpired {s : State} (ha : s.acts = true) (hh : s.tb.state = .holdover) (he : s.tb.expired = false)
    (hl : 2 ^ getF s tbLimits 8 5 ≤ s.tb.hold) :
    exec .holdoverExpired s = .next (raise evTb 4 { s with tb := { s.tb with expired := true } }) := by
  show execHoldoverExpired s = _
  simp [execHoldoverExpired, ha, hh, he, hl]

theorem exec_holdoverExpired_again {s : State} (he : s.tb.expired = true) : exec .holdoverExpired s = .next s := by
  show execHoldoverExpired s = _
  simp [execHoldoverExpired, he]

/-! ### The halves of the time base (R383) -/

theorem handOver_recorded (src unit : Nat) (lvl : FaultLevel) (code : Nat) (act : FaultAct) (detail : Nat) (s : State) :
    Recorded unit code act s (handOver src unit lvl code act detail s) :=
  ⟨_, rfl, rfl, rfl, rfl, _, rfl⟩

/-- `Recorded` speaks of the time and the fault log only. -/
theorem Recorded.of_flt {unit code : Nat} {act : FaultAct} {s s' t t' : State} (h : Recorded unit code act s t) (hc : s'.cts = s.cts)
    (hs : s'.flt = s.flt) (ht : t'.flt = t.flt) : Recorded unit code act s' t' := by
  unfold Recorded Handed at *
  rwa [hc, hs, ht]

theorem enterFault_adp (s : State) : (enterFault s).bnd.adp = .fault := by
  unfold enterFault
  split
  · assumption
  · rfl

theorem enterFault_tb (s : State) : (enterFault s).tb = s.tb := by unfold enterFault; split <;> rfl
theorem enterFault_flt (s : State) : (enterFault s).flt = s.flt := by unfold enterFault; split <;> rfl

theorem loseTb_adp (s : State) : (loseTb s).bnd.adp = .fault := enterFault_adp _
theorem loseTb_dead (s : State) : (loseTb s).tb.dead = true := by rw [loseTb, enterFault_tb]; rfl

theorem loseTb_recorded (s : State) : Recorded unitTb 0x0401 .adapterFault s (loseTb s) :=
  (handOver_recorded unitTb unitTb .adapter 0x0401 .adapterFault 0 { s with tb := { s.tb with dead := true } }).of_flt rfl rfl
    (enterFault_flt _)

/-- The half in use where one goes on alone, B (`true`) or A: mode, TB_MODE and the unit of the record. -/
theorem surviveTb_outcome (b : Bool) (s : State) :
    (surviveTb b s).tb = { s.tb with mode := if b then .bOnly else .aOnly } ∧
      FieldSet glbLock 0 2 (if b then 2 else 1) s (surviveTb b s) ∧ Raised evTb 8 s (surviveTb b s) ∧
      Recorded (unitTb + if b then 1 else 2) 0x0401 .survivor s (surviveTb b s) ∧ (surviveTb b s).bnd = s.bnd :=
  ⟨rfl, .of_regs rfl (by decide) (by cases b <;> decide), .of_evts rfl (by decide), ⟨_, rfl, rfl, rfl, rfl, _, rfl⟩, rfl⟩

theorem surviveTb_mode (b : Bool) (s : State) : (surviveTb b s).tb.mode = .aOnly ∨ (surviveTb b s).tb.mode = .bOnly := by
  cases b
  · exact .inl rfl
  · exact .inr rfl

section
variable {s : State} (ha : s.alive = true) (hd : s.tb.dead = false)
include ha hd

/-- A verdict on the pair, by the halves that fail and the CTS that continues. -/
theorem exec_tbMismatch_pair (hm : s.tb.mode = .pair) (aF bF aC bC : Bool) :
    exec (.tbMismatch aF bF aC bC) s =
      if aF ∧ bF then .next (raise evTb 8 (loseTb s))
      else if aF then .next (surviveTb true s)
      else if bF then .next (surviveTb false s)
      else if aC then .next (surviveTb false s)
      else if bC then .next (surviveTb true s)
      else .next (surviveTb ((takeFree s).1 % 2 == 1) (takeFree s).2) := by
  show execTbMismatch aF bF aC bC s = _
  rw [execTbMismatch, ha, hd, hm]
  rfl

theorem exec_tbMismatch_aOnly (hm : s.tb.mode = .aOnly) (aF bF aC bC : Bool) :
    exec (.tbMismatch aF bF aC bC) s = .next (if aF then loseTb s else s) := by
  show execTbMismatch aF bF aC bC s = _
  simp [execTbMismatch, ha, hd, hm]

theorem exec_tbMismatch_bOnly (hm : s.tb.mode = .bOnly) (aF bF aC bC : Bool) :
    exec (.tbMismatch aF bF aC bC) s = .next (if bF then loseTb s else s) := by
  show execTbMismatch aF bF aC bC s = _
  simp [execTbMismatch, ha, hd, hm]

end

/-- Settles O25: the tick by what `tickEffects` leaves of the time and the boundary; an overrun by what is noted of it, which neither its
outcome nor the failure of its unit takes back (`tbView_unitFails`); a lost marker by the number of those lost; and the pair by the cases of
its verdicts. -/
theorem ticksAndTime : Obligations.TicksAndTime := by
  unfold Obligations.TicksAndTime
  refine ⟨fun s => ⟨?tick, ?order, ?stopped, ?overrun⟩, fun s => ⟨?lost, ?expired, ?again, ?pair, ?alone⟩⟩
  case tick =>
    exact fun hc => ⟨_, rfl, tickBoundary_cts hc, tickBoundary_inForce hc,
      fun ha => by rw [tickBoundary_of_not_acts hc ha]; exact ⟨rfl, rfl, rfl, rfl⟩⟩
  case order => exact fun hc ha hn => ⟨_, rfl, tickBoundary_adp_of_no_order hc ha hn⟩
  case stopped => exact fun hc => congrArg Outcome.next (tickBoundary_of_not_counts hc)
  case overrun =>
    intro item unit ha
    obtain ⟨t, hexec, hregs, hevts, hrec, hnone⟩ := tickOverrun_outcome item unit ha
    have hfield (a : Nat) (h : a < 0x8000) (lo w : Nat) : getF t a lo w = getF (overrunNoted item unit.toNat s) a lo w :=
      congrArg (fld · lo w) (hregs a h)
    refine ⟨t, hexec, ?_, ?_, fun h => ?_, hrec, hnone⟩
    · rw [hevts]; exact overrunNoted_raised ..
    · rw [hfield _ (by unfold tbOvrCnt; omega)]; exact overrunNoted_counter ..
    · rw [hfield _ (by decide), hfield _ (by decide)]; exact overrunNoted_shows item.isLt unit.isLt h
  case lost =>
    intro ha hu hm hl
    have htb := arrive_tb 1023 s
    refine ⟨_, exec_markerLost ha hu hm hl, markerLost_raised _, ?_, fun h => ?_, fun h => ?_, fun h hs => ?_⟩
    · rw [markerLost_miss, htb]
    · rw [markerLost_of_few (by rwa [htb]), markerCounted_state, htb]
    · have hstate := markerLost_state (s := arrive 1023 s) (by rwa [htb])
      rw [htb] at hstate
      exact hstate
    · rw [← htb] at h hs ⊢
      exact markerLost_of_locked h hs
  case expired => exact fun ha hh he hl => ⟨_, exec_holdoverExpired ha hh he hl, rfl, .of_evts rfl (by decide)⟩
  case again => exact exec_holdoverExpired_again
  case pair =>
    intro aF bF aC bC ha hd hm
    have hexec := exec_tbMismatch_pair ha hd hm aF bF aC bC
    refine ⟨?_, ?_, ?_, ?_⟩
    · rintro rfl rfl
      exact ⟨_, hexec, loseTb_adp s, loseTb_dead s, loseTb_recorded s⟩
    · rintro (⟨rfl, rfl⟩ | ⟨rfl, rfl, rfl, rfl⟩) <;> exact ⟨_, hexec, surviveTb_outcome true s⟩
    · rintro (⟨rfl, rfl⟩ | ⟨rfl, rfl, rfl⟩) <;> exact ⟨_, hexec, surviveTb_outcome false s⟩
    · rintro rfl rfl rfl rfl
      obtain ⟨-, -, hraised, -, hbnd⟩ := surviveTb_outcome ((takeFree s).1 % 2 == 1) (takeFree s).2
      exact ⟨_, hexec, surviveTb_mode .., hraised, hbnd⟩
  case alone =>
    intro f g aC bC ha hd
    refine ⟨fun hm => ⟨exec_tbMismatch_aOnly ha hd hm .., _, exec_tbMismatch_aOnly ha hd hm .., ?_⟩,
      fun hm => ⟨exec_tbMismatch_bOnly ha hd hm .., _, exec_tbMismatch_bOnly ha hd hm .., ?_⟩⟩
    all_goals exact ⟨loseTb_adp s, loseTb_dead s⟩

end Sys2Proof.Machine

namespace Sys2Proof.Machine
open Host

/-! ### Reading the Workbench units (R290) -/

theorem wbUnit_congr {s t : State} (h : t.wb = s.wb) (v : Nat) : t.wbUnit v = s.wbUnit v := by rw [State.wbUnit, h]; rfl

@[simp] theorem wbUnit_raise (b e : Nat) (s : State) (v : Nat) : (raise b e s).wbUnit v = s.wbUnit v :=
  wbUnit_congr (raise_wb ..) v
@[simp] theorem wbUnit_bump (a lo w : Nat) (s : State) (v : Nat) : (bump a lo w s).wbUnit v = s.wbUnit v :=
  wbUnit_congr (bump_wb ..) v
@[simp] theorem wbUnit_bumpN (a lo w n : Nat) (s : State) (v : Nat) : (bumpN a lo w n s).wbUnit v = s.wbUnit v :=
  wbUnit_congr (bumpN_wb ..) v
@[simp] theorem wbUnit_bumpWrap (a n : Nat) (s : State) (v : Nat) : (bumpWrap a n s).wbUnit v = s.wbUnit v :=
  wbUnit_congr (bumpWrap_wb ..) v
@[simp] theorem wbUnit_peak (a lo w n : Nat) (s : State) (v : Nat) : (peak a lo w n s).wbUnit v = s.wbUnit v :=
  wbUnit_congr (peak_wb ..) v
@[simp] theorem wbUnit_updStream (u : Nat) (f : Stream → Stream) (s : State) (v : Nat) : (updStream u f s).wbUnit v = s.wbUnit v :=
  wbUnit_congr (updStream_wb ..) v

@[simp] theorem wbUnit_freeBytes (n : Nat) (s : State) (v : Nat) : (freeBytes n s).2.wbUnit v = s.wbUnit v :=
  wbUnit_congr (Part.same_of_mask (q := .wb) (@freeBytes_mask _ ⟨rfl⟩ n s)) v

@[simp] theorem wbUnit_sramUncorr (src owner : Nat) (lvl : FaultLevel) (array : Nat) (act : FaultAct) (s : State) (v : Nat) :
    (sramUncorr src owner lvl array act s).wbUnit v = s.wbUnit v :=
  wbUnit_congr (Part.same_of_mask (q := .wb) (@sramUncorr_mask _ ⟨rfl⟩ ⟨rfl⟩ ⟨rfl⟩ src owner lvl array act s)) v

@[simp] theorem wbUnit_acceptContrib (c : Contrib) (s : State) (v : Nat) : (acceptContrib c s).wbUnit v = s.wbUnit v :=
  wbUnit_congr (Part.same_of_mask (q := .wb) (@acceptContrib_mask _ ⟨rfl⟩ ⟨rfl⟩ ⟨rfl⟩ ⟨rfl⟩ ⟨rfl⟩ ⟨rfl⟩ c s)) v

@[simp] theorem wbUnit_updSeg (u : Nat) (k : SegUse) (f : WbSeg → WbSeg) (s : State) :
    (updSeg u k f s).wbUnit u = { s.wbUnit u with segs := (s.wbUnit u).segs.map (fun g => if g.use = k then f g else g) } :=
  wbUnit_updWb ..

/-- Where no segment has that use, nothing changes. -/
theorem wbUnit_updSeg_of_absent {u : Nat} {k : SegUse} {s : State} (h : ∀ g ∈ (s.wbUnit u).segs, g.use ≠ k) (f : WbSeg → WbSeg) :
    (updSeg u k f s).wbUnit u = s.wbUnit u := by
  have hsame : (s.wbUnit u).segs.map (fun g => if g.use = k then f g else g) = (s.wbUnit u).segs :=
    (List.map_congr_left fun g hg => if_neg (h g hg)).trans (List.map_id _)
  rw [wbUnit_updSeg, hsame]

/-! ### Counting overflows and NaNs (R275, R277)

`noteValues` counts two things in the same way: `n` of them in a counter, and an event once for the segment. -/

/-- `n` elements are counted in 16 bits of WB_CNT_VAL; the first time, event `e` is raised and the segment marked by `mark`. -/
def noteOnce (u : Nat) (k : SegUse) (lo e n : Nat) (said : Bool) (mark : WbSeg → WbSeg) (s : State) : State :=
  if n = 0 then s
  else if said then bumpN (wbCntVal u) lo 16 n s
  else raise evWb e (updSeg u k mark (bumpN (wbCntVal u) lo 16 n s))

theorem noteValues_eq (u : Nat) (g : WbSeg) (ovf nan : Nat) (s : State) :
    noteValues u g ovf nan s =
      noteOnce u g.use 0 0 nan g.saidNan (fun x => { x with saidNan := true })
        (noteOnce u g.use 16 1 ovf g.saidOvf (fun x => { x with saidOvf := true }) s) := rfl

/-! ### The other units -/

section
variable {u v : Nat} (h : v ≠ u)
include h

theorem wbUnit_updSeg_ne (k : SegUse) (f : WbSeg → WbSeg) (s : State) : (updSeg u k f s).wbUnit v = s.wbUnit v := wbUnit_updWb_ne h ..

theorem wbUnit_poisonSeg_ne (g : WbSeg) (s : State) : (poisonSeg u g s).wbUnit v = s.wbUnit v := by
  unfold poisonSeg; split <;> simp [wbUnit_updSeg_ne h]

theorem wbUnit_noteOnce_ne (k : SegUse) (lo e n : Nat) (said : Bool) (mark : WbSeg → WbSeg) (s : State) :
    (noteOnce u k lo e n said mark s).wbUnit v = s.wbUnit v := by
  unfold noteOnce; (repeat' split) <;> simp [wbUnit_updSeg_ne h]

theorem wbUnit_noteValues_ne (g : WbSeg) (ovf nan : Nat) (s : State) : (noteValues u g ovf nan s).wbUnit v = s.wbUnit v := by
  simp [noteValues_eq, wbUnit_noteOnce_ne h]

theorem wbUnit_noteEnc_ne (g : WbSeg) (c : EncCount) (s : State) : (noteEnc u g c s).wbUnit v = s.wbUnit v := by
  unfold noteEnc; (repeat' split) <;> simp [wbUnit_noteValues_ne h]

theorem wbUnit_issueFold_ne (k : SegUse) (c : Contrib) (s : State) : (issueFold u k c s).wbUnit v = s.wbUnit v := by
  simp [issueFold, wbUnit_updSeg_ne h]

theorem wbUnit_updateAcc_ne (g : WbSeg) (c : Contrib) (s : State) : (updateAcc u g c s).wbUnit v = s.wbUnit v := by
  unfold updateAcc
  split
  · exact wbUnit_poisonSeg_ne h g s
  · simp [wbUnit_noteValues_ne h, wbUnit_updSeg_ne h]

theorem wbUnit_advanceSeg_ne (g : WbSeg) (s : State) : (advanceSeg u g s).wbUnit v = s.wbUnit v := by
  unfold advanceSeg
  dsimp only
  (repeat' split) <;> simp [wbUnit_issueFold_ne h, wbUnit_updSeg_ne h]

end

/-! ### What every segment of a use has in common

Folds and counts change a segment by its use, so what they establish is said of every segment of that use. -/

/-- Every segment of use `k` on unit `u` satisfies `P`. -/
def SegsOf (u : Nat) (k : SegUse) (P : WbSeg → Prop) (s : State) : Prop := ∀ g ∈ (s.wbUnit u).segs, g.use = k → P g

section
variable {u : Nat} {k : SegUse} {P Q : WbSeg → Prop} {s t : State}

theorem SegsOf.congr (h : SegsOf u k P s) (ht : t.wbUnit u = s.wbUnit u) : SegsOf u k P t := by unfold SegsOf; rwa [ht]

/-- A change of the segments of the use establishes what it makes of each of them. -/
theorem SegsOf.after_updSeg {f : WbSeg → WbSeg} (h : SegsOf u k P s) (hf : ∀ g, P g → Q (f g)) : SegsOf u k Q (updSeg u k f s) := by
  intro g hg hk
  rw [wbUnit_updSeg] at hg
  obtain ⟨g0, hg0, rfl⟩ := List.mem_map.mp hg
  by_cases huse : g0.use = k
  · rw [if_pos huse]; exact hf g0 (h g0 hg0 huse)
  · rw [if_neg huse] at hk; exact absurd hk huse

theorem SegsOf.of_updSeg {f : WbSeg → WbSeg} (hf : ∀ g, Q (f g)) : SegsOf u k Q (updSeg u k f s) :=
  SegsOf.after_updSeg (P := fun _ => True) (fun _ _ _ => trivial) fun g _ => hf g

theorem SegsOf.after_noteOnce (h : SegsOf u k P s) {mark : WbSeg → WbSeg} (hm : ∀ g, P g → P (mark g)) (lo e n : Nat) (said : Bool) :
    SegsOf u k P (noteOnce u k lo e n said mark s) := by
  unfold noteOnce
  have hcount : SegsOf u k P (bumpN (wbCntVal u) lo 16 n s) := h.congr (wbUnit_bumpN ..)
  split
  · exact h
  split
  · exact hcount
  · exact (hcount.after_updSeg hm).congr (wbUnit_raise ..)

end

/-- Counting overflows and NaNs leaves the accumulator. -/
theorem SegsOf.after_noteValues {u : Nat} {g : WbSeg} {A : List Nat → Prop} {s : State} (h : SegsOf u g.use (fun k => A k.acc) s) (ovf nan : Nat) :
    SegsOf u g.use (fun k => A k.acc) (noteValues u g ovf nan s) := by
  rw [noteValues_eq]
  have hovf := h.after_noteOnce (mark := fun x => { x with saidOvf := true }) (fun _ ha => ha) 16 1 ovf g.saidOvf
  exact hovf.after_noteOnce (mark := fun x => { x with saidNan := true }) (fun _ ha => ha) 0 0 nan g.saidNan

/-! ### What encoding leaves of a unit (R281, R283, R296, R297) -/

section
variable {u : Nat} {s : State}

theorem wbUnit_noteOnce_of_absent {k : SegUse} (h : ∀ g ∈ (s.wbUnit u).segs, g.use ≠ k) (lo e n : Nat) (said : Bool) (mark : WbSeg → WbSeg) :
    (noteOnce u k lo e n said mark s).wbUnit u = s.wbUnit u := by
  unfold noteOnce
  split
  · rfl
  split
  · simp
  · rw [wbUnit_raise, wbUnit_updSeg_of_absent (by simpa using h), wbUnit_bumpN]

theorem wbUnit_noteValues_of_absent {g : WbSeg} (h : ∀ k ∈ (s.wbUnit u).segs, k.use ≠ g.use) (ovf nan : Nat) :
    (noteValues u g ovf nan s).wbUnit u = s.wbUnit u := by
  have hovf := wbUnit_noteOnce_of_absent h 16 1 ovf g.saidOvf fun x => { x with saidOvf := true }
  rw [noteValues_eq, wbUnit_noteOnce_of_absent (by rwa [hovf]), hovf]

/-- Of a segment that has left its unit, what encoding counts changes no segment. -/
theorem wbUnit_noteEnc_of_absent {g : WbSeg} (h : ∀ k ∈ (s.wbUnit u).segs, k.use ≠ g.use) (c : EncCount) :
    (noteEnc u g c s).wbUnit u = s.wbUnit u := by
  unfold noteEnc
  extract_lets s1 s2
  have hs2 : s2.wbUnit u = s.wbUnit u := by unfold s2 s1; (repeat' split) <;> simp
  rw [wbUnit_bumpWrap, wbUnit_noteValues_of_absent (by rwa [hs2]), hs2]

end

/-- The segments of use `k` leave unit `u`. -/
def dropSeg (u : Nat) (k : SegUse) (s : State) : State := updWb u (fun x => { x with segs := x.segs.filter (fun g => decide (g.use ≠ k)) }) s

theorem wbUnit_dropSeg (u : Nat) (k : SegUse) (s : State) :
    (dropSeg u k s).wbUnit u = { s.wbUnit u with segs := (s.wbUnit u).segs.filter (fun g => decide (g.use ≠ k)) } := wbUnit_updWb ..

theorem dropSeg_absent (u : Nat) (k : SegUse) (s : State) : ∀ g ∈ ((dropSeg u k s).wbUnit u).segs, g.use ≠ k := by
  intro g hg
  rw [wbUnit_dropSeg] at hg
  exact of_decide_eq_true (List.mem_filter.mp hg).2

/-- A segment taken has left its unit; beside that its bytes are free ones, or what encoding them counts is noted. -/
theorem takeEncoded_cases {u : Nat} {s t : State} {g : WbSeg} {data : List Byte} (h : takeEncoded u s = some (g, data, t)) :
    (∃ n, t = (freeBytes n (dropSeg u g.use s)).2) ∨ ∃ c, t = noteEnc u g c (dropSeg u g.use s) := by
  unfold takeEncoded at h
  split at h
  · cases h
  · dsimp only at h
    split at h <;> cases h
    · exact .inl ⟨_, rfl⟩
    · exact .inr ⟨_, rfl⟩

theorem takeEncoded_segs {u : Nat} {s t : State} {g : WbSeg} {data : List Byte} (h : takeEncoded u s = some (g, data, t)) :
    (t.wbUnit u).segs = (s.wbUnit u).segs.filter (fun k => decide (k.use ≠ g.use)) := by
  obtain ⟨n, rfl⟩ | ⟨c, rfl⟩ := takeEncoded_cases h
  · rw [wbUnit_freeBytes, wbUnit_dropSeg]
  · rw [wbUnit_noteEnc_of_absent (dropSeg_absent u g.use s), wbUnit_dropSeg]

theorem takeEncoded_keepsWbs {u : Nat} {s t : State} {g : WbSeg} {data : List Byte} (h : takeEncoded u s = some (g, data, t)) :
    KeepsWbs [u] s t := by
  intro v hv
  have hv : v ≠ u := by simpa using hv
  have hdrop : (dropSeg u g.use s).wbUnit v = s.wbUnit v := wbUnit_updWb_ne hv ..
  obtain ⟨n, rfl⟩ | ⟨c, rfl⟩ := takeEncoded_cases h
  · rw [wbUnit_freeBytes, hdrop]
  · rw [wbUnit_noteEnc_ne hv, hdrop]

theorem exec_segmentEncoded {u : WbId} {s t : State} {g : WbSeg} {data : List Byte} (ha : s.acts = true)
    (h : takeEncoded u s = some (g, data, t)) :
    exec (.segmentEncoded u) s = .next (allProgress (match g.use with
      | .col v c sg l => settle (streamSegment v c sg l g.gen data g.poison t)
      | .chan c n => chanEncoded c n data g.poison t)) := by
  show execSegmentEncoded u s = _
  unfold execSegmentEncoded
  rw [ha, h]
  dsimp only
  cases g.use <;> rfl

/-! ### Acceptance (R166, R292, R293, R295) -/

theorem getReg_bump_ne {a b : Nat} (h : b ≠ a) (lo w : Nat) (s : State) : getReg (bump a lo w s) b = getReg s b :=
  getReg_setF_ne h lo w (min (getF s a lo w + 1) (2 ^ w - 1)) s

theorem getF_bumpWrap (a n : Nat) (s : State) : getF (bumpWrap a n s) a 0 32 = (getF s a 0 32 + n) % 2 ^ 32 :=
  getF_setF a (getF s a 0 32 + n) s (by decide)

theorem getReg_sendResponse {a : Nat} (ha : a ≠ glbTxCnt 6) (q : Packet) (merges : Bool) (s : State) :
    getReg (sendResponse q merges s) a = getReg s a := by
  unfold sendResponse
  split
  · split <;> rfl
  · exact getReg_bump_ne ha 0 16 s

theorem getReg_chestSettle {a : Nat} (ha : a ≠ atmCntRel) (src txid r : Nat) (data : List Byte) (s : State) :
    getReg (chestSettle src txid r data s) a = getReg s a := by
  unfold chestSettle
  split
  · rfl
  · split
    · rfl
    · dsimp only
      split
      · rw [getReg_bump_ne ha]; rfl
      · rfl

theorem getReg_settleTxid (src txid r : Nat) (s : State) (a : Nat) : getReg (settleTxid src txid r s) a = getReg s a :=
  congrArg (tget regReset · a) (Part.same_of_mask (q := .regs) (@settleTxid_mask _ ⟨rfl⟩ src txid r s))

theorem getReg_dropNumbered (p id : Nat) (s : State) (a : Nat) : getReg (dropNumbered p id s) a = getReg s a :=
  congrArg (tget regReset · a) (Part.same_of_mask (q := .regs) (@dropNumbered_mask _ ⟨rfl⟩ p id s))

/-- What an answer of OK settles of its request's TXID and of its Chest entry, before the response is sent. -/
def settleOk (q : RemoteReq) (data : List Byte) (s : State) : State :=
  let t := if q.dup then s else settleTxid q.src q.txid 0 s
  if q.opc = opAtomic ∧ !q.dup then chestSettle q.src q.txid 0 data t else t

/-- An answer of OK to a request from the fabric raises no event and counts nothing of its code. -/
theorem finish_ok (q : RemoteReq) (data : List Byte) (s : State) :
    ∃ p merges, finish (.remote q) 0 data none s = sendResponse p merges (settleOk q data s) := ⟨_, _, rfl⟩

theorem getReg_settleOk {a : Nat} (ha : a ≠ atmCntRel) (q : RemoteReq) (data : List Byte) (s : State) :
    getReg (settleOk q data s) a = getReg s a := by
  unfold settleOk
  (repeat' split) <;> simp [getReg_chestSettle ha, getReg_settleTxid]

theorem settleOk_evts (q : RemoteReq) (data : List Byte) (s : State) : (settleOk q data s).evts = s.evts := by
  have hregs : Off (fun p => decide (p = Part.evts)) .regs := ⟨rfl⟩
  have hbumps : Off (fun p => decide (p = Part.evts)) .bumps := ⟨rfl⟩
  have htx : Off (fun p => decide (p = Part.evts)) .tx := ⟨rfl⟩
  exact Part.same_of_mask (q := .evts) (by unfold settleOk; (repeat' split) <;> simp)

theorem getReg_acceptContrib {a : Nat} (hroute : a ≠ glbTxCnt 6) (hchest : a ≠ atmCntRel) (c : Contrib) (s : State) :
    getReg (acceptContrib c s) a = getReg s a := by
  unfold acceptContrib
  split
  · rfl
  next x _ =>
    obtain ⟨p, merges, hfinish⟩ := finish_ok x.2.2 [] s
    rw [getReg_dropNumbered, hfinish, getReg_sendResponse hroute, getReg_settleOk hchest]

/-- Accepting a contribution raises no event. -/
theorem acceptContrib_evts (c : Contrib) (s : State) : (acceptContrib c s).evts = s.evts := by
  unfold acceptContrib
  split
  · rfl
  next x _ =>
    obtain ⟨p, merges, hfinish⟩ := finish_ok x.2.2 [] s
    calc (dropNumbered x.1 x.2.1 (finish (.remote x.2.2) 0 [] none s)).evts
        = (finish (.remote x.2.2) 0 [] none s).evts := Part.same_of_mask (q := .evts) (@dropNumbered_mask _ ⟨rfl⟩ ..)
      _ = (sendResponse p merges (settleOk x.2.2 [] s)).evts := by rw [hfinish]
      _ = (settleOk x.2.2 [] s).evts := Part.same_of_mask (q := .evts) (@sendResponse_mask _ ⟨rfl⟩ ⟨rfl⟩ ⟨rfl⟩ ..)
      _ = s.evts := settleOk_evts ..

theorem getEvt_acceptContrib (c : Contrib) (s : State) (b : Nat) : getEvt (acceptContrib c s) b = getEvt s b :=
  congrArg (tget evt0 · b) (acceptContrib_evts c s)

/-! ### CONTRIBUTION_ARRIVAL (R253, R292, R293, R388) -/

/-- What the port of a contribution taken up notes first: damage of the words read for it, and a delivery after its cycle. -/
def noteArrival (c : Contrib) (a : Admit) (bad : Bool) (s : State) : State :=
  match c.pkt with
  | some (p, _, _) =>
    let t := if bad then sramUncorr (unitPort p) (unitPort p) .port 1 .poisoned s else s
    if c.timed && decide (c.due < s.cts) && a != .full then lateDelivery p t else t
  | none => s

theorem noteArrival_same {q : Part} (hq : q = .cts ∨ q = .wb) (c : Contrib) (a : Admit) (bad : Bool) (s : State) :
    q.same s (noteArrival c a bad s) := by
  have hoff (r : Part) (hr : r ≠ .cts ∧ r ≠ .wb) : Off (fun p => decide (p = q)) r := by
    refine ⟨decide_eq_false ?_⟩
    rcases hq with rfl | rfl
    · exact hr.1
    · exact hr.2
  have := hoff .free (by decide); have := hoff .regs (by decide); have := hoff .bumps (by decide)
  have := hoff .evts (by decide); have := hoff .flt (by decide); have := hoff .ports (by decide); have := hoff .tst (by decide)
  refine Part.same_of_mask ?_
  unfold noteArrival
  split
  · dsimp only
    (repeat' split) <;> simp
  · rfl

@[simp] theorem noteArrival_cts (c : Contrib) (a : Admit) (bad : Bool) (s : State) : (noteArrival c a bad s).cts = s.cts :=
  noteArrival_same (q := .cts) (.inl rfl) c a bad s

@[simp] theorem wbUnit_noteArrival (c : Contrib) (a : Admit) (bad : Bool) (s : State) (v : Nat) :
    (noteArrival c a bad s).wbUnit v = s.wbUnit v := wbUnit_congr (noteArrival_same (q := .wb) (.inr rfl) c a bad s) v

theorem getReg_sramUncorr (src owner : Nat) (lvl : FaultLevel) (array : Nat) (act : FaultAct) (s : State) (a : Nat) :
    getReg (sramUncorr src owner lvl array act s) a = getReg s a :=
  congrArg (tget regReset · a) (Part.same_of_mask (q := .regs) (@sramUncorr_mask _ ⟨rfl⟩ ⟨rfl⟩ ⟨rfl⟩ src owner lvl array act s))

theorem getReg_lateDelivery {a p : Nat} (ha : a ≠ prtSchedCnt p 3) (s : State) : getReg (lateDelivery p s) a = getReg s a := by
  have hregs : (lateDelivery p s).regs = (bump (prtSchedCnt p 3) 16 16 s).regs := by
    unfold lateDelivery
    dsimp only
    split <;> simp
  rw [getReg, hregs]
  exact getReg_bump_ne ha 16 16 s

/-- No port's counter of late deliveries is a unit's counter of folds. -/
theorem wbCntFold_ne_prtSchedCnt (u p : Nat) : wbCntFold u ≠ prtSchedCnt p 3 := by
  unfold wbCntFold wbBase prtSchedCnt prtBase; omega

theorem getReg_wbCntFold_noteArrival (u : Nat) (c : Contrib) (a : Admit) (bad : Bool) (s : State) :
    getReg (noteArrival c a bad s) (wbCntFold u) = getReg s (wbCntFold u) := by
  unfold noteArrival
  split
  · dsimp only
    (repeat' split) <;> simp [getReg_lateDelivery (wbCntFold_ne_prtSchedCnt u _), getReg_sramUncorr]
  · rfl

/-- The contribution as its segment gets it: damaged where words read for it are. -/
def Contrib.asRead (c : Contrib) (bad : Bool) : Contrib := { c with poison := c.poison || bad }

/-- A contribution that is accepted in cycle `now` has left those that wait, and the input is busy while its data comes in. -/
def takeIn (u : Nat) (c : Contrib) (now : Nat) (s : State) : State :=
  updWb u (fun y => { y with
    wait := y.wait.erase c, inFree := now + (c.data.length + 511) / 512
    lastPort := if c.timed then y.lastPort else c.client16 % 64 }) s

/-- What becomes of contribution `c`, read as `d`, that its segment `g` admits so, with `n` entries of the window in use. -/
def admitted (u : Nat) (c d : Contrib) (g : WbSeg) (now n : Nat) : Admit → State → State
  | .fold, s => acceptContrib d (issueFold u g.use d (takeIn u c now s))
  | .hold, s => acceptContrib d (bump (wbCntOrd u) 0 16 (peak (wbOcc u) 24 7 (n + 1)
      (updSeg u g.use (fun k => { k with held := k.held ++ [d] }) (takeIn u c now s))))
  | .dup, s => acceptContrib d (raise evWb 7 (bump (wbCntErr u) 16 16 (takeIn u c now s)))
  | .full, s => raise evWb 4 (bump (wbCntOrd u) 16 16
      (updWb u (fun y => { y with wait := y.wait.map (fun k => if k = c then { k with refused := true } else k) }) s))

theorem exec_contributionArrival {u : WbId} {s : State} {c : Contrib} {g : WbSeg} {a : Admit} (b : Bool) (ha : s.acts = true)
    (hf : (s.wbUnit u).inFree ≤ s.cts) (h : nextContrib (s.wbUnit u) s.cts = some (c, g, a)) :
    exec (.contributionArrival u b) s =
      .next (admitted u c (c.asRead b) g s.cts (wbHeld (s.wbUnit u)) a (noteArrival c a b s)) := by
  show execContributionArrival u b s = _
  unfold execContributionArrival
  dsimp only
  rw [if_neg (by simp [ha, hf]), h]
  cases a <;> rfl

@[simp] theorem wbUnit_takeIn (u : Nat) (c : Contrib) (now : Nat) (s : State) :
    (takeIn u c now s).wbUnit u = { s.wbUnit u with
      wait := (s.wbUnit u).wait.erase c, inFree := now + (c.data.length + 511) / 512
      lastPort := if c.timed then (s.wbUnit u).lastPort else c.client16 % 64 } := wbUnit_updWb ..

theorem wbUnit_admitted_ne {u v : Nat} (h : v ≠ u) (c d : Contrib) (g : WbSeg) (now n : Nat) (a : Admit) (s : State) :
    (admitted u c d g now n a s).wbUnit v = s.wbUnit v := by
  have htake : (takeIn u c now s).wbUnit v = s.wbUnit v := wbUnit_updWb_ne h ..
  cases a <;> simp [admitted, wbUnit_issueFold_ne h, wbUnit_updSeg_ne h, wbUnit_updWb_ne h, htake]

theorem admitted_keepsWbs (u : Nat) (c d : Contrib) (g : WbSeg) (now n : Nat) (a : Admit) (b : Bool) (s : State) :
    KeepsWbs [u] s (admitted u c d g now n a (noteArrival c a b s)) := by
  intro v hv
  rw [wbUnit_admitted_ne (by simpa using hv), wbUnit_noteArrival]

theorem wbUnit_issueFold (u : Nat) (k : SegUse) (c : Contrib) (s : State) :
    (issueFold u k c s).wbUnit u = { s.wbUnit u with segs := (s.wbUnit u).segs.map (fun g => if g.use = k then
      { g with folding := some (s.cts + (if g.op.rop = ropLse then 28 else 12), c), last := s.tick, stalled := false } else g) } := by
  rw [issueFold, wbUnit_bumpWrap, wbUnit_updSeg]

theorem wbUnit_admitted_fold (u : Nat) (c d : Contrib) (g : WbSeg) (n : Nat) (s : State) :
    (admitted u c d g s.cts n .fold s).wbUnit u = { s.wbUnit u with
      wait := (s.wbUnit u).wait.erase c, inFree := s.cts + (c.data.length + 511) / 512
      lastPort := if c.timed then (s.wbUnit u).lastPort else c.client16 % 64
      segs := (s.wbUnit u).segs.map (fun k => if k.use = g.use then
        { k with folding := some (s.cts + (if k.op.rop = ropLse then 28 else 12), d), last := s.tick, stalled := false } else k) } := by
  rw [admitted, wbUnit_acceptContrib, wbUnit_issueFold, wbUnit_takeIn]
  rfl

/-- A fold that issues is counted. -/
theorem getF_wbCntFold_admitted_fold (u : Nat) (c d : Contrib) (g : WbSeg) (now n : Nat) (s : State) :
    getF (admitted u c d g now n .fold s) (wbCntFold u) 0 32 = (getF s (wbCntFold u) 0 32 + 1) % 2 ^ 32 := by
  have hroute : wbCntFold u ≠ glbTxCnt 6 := by unfold wbCntFold wbBase glbTxCnt; omega
  have hchest : wbCntFold u ≠ atmCntRel := by unfold wbCntFold wbBase atmCntRel; omega
  rw [admitted, getF, getReg_acceptContrib hroute hchest]
  exact getF_bumpWrap (wbCntFold u) 1 (updSeg u g.use _ (takeIn u c now s))

theorem admitted_dup_raised (u : Nat) (c d : Contrib) (g : WbSeg) (now n : Nat) (s : State) :
    (getEvt (admitted u c d g now n .dup s) evWb).raw.getLsbD 7 = true := by
  rw [admitted, getEvt_acceptContrib]
  exact raw_getLsbD_raise _ (by decide) _ (.inl rfl)

theorem admitted_full_raised (u : Nat) (c d : Contrib) (g : WbSeg) (now n : Nat) (s : State) :
    (getEvt (admitted u c d g now n .full s) evWb).raw.getLsbD 4 = true := raw_getLsbD_raise _ (by decide) _ (.inl rfl)

/-! ### ORDER_STALL (R294, R318) -/

theorem exec_orderStall_of_none {u : WbId} {s : State} (h : stalledSeg u s = none) : exec (.orderStall u) s = .next s := by
  show execOrderStall u s = _
  simp [execOrderStall, h]

/-- A segment's stall is told once. -/
def tellStall (u : Nat) (g : WbSeg) (s : State) : State := raise evWb 5 (updSeg u g.use (fun x => { x with stalled := true }) s)

section
variable {u : WbId} {s : State} {g : WbSeg} (ha : s.acts = true) (h : stalledSeg u s = some g)
include ha h

theorem exec_orderStall_chan {c n : Nat} (huse : g.use = .chan c n) : exec (.orderStall u) s = .next (tellStall u g s) := by
  show execOrderStall u s = _
  simp [execOrderStall, ha, h, huse, tellStall]

/-- The stream shows a die and the index awaited. -/
theorem exec_orderStall_col {v c sg level : Nat} (huse : g.use = .col v c sg level) :
    ∃ d, exec (.orderStall u) s = .next (updStream v (fun y => { y with stall := some (d, g.next) }) (tellStall u g s)) := by
  show ∃ d, execOrderStall u s = _
  simp only [execOrderStall, ha, h, huse, tellStall]
  exact ⟨_, rfl⟩

theorem exec_orderStall :
    ∃ t, exec (.orderStall u) s = .next t ∧ t.evts = (tellStall u g s).evts ∧ (∀ v, t.wbUnit v = (tellStall u g s).wbUnit v) ∧
      (match g.use with | .col v _ _ _ => (t.stream v).stall.map (·.2) | .chan _ _ => some g.next) = some g.next := by
  cases huse : g.use with
  | col v c sg level =>
    obtain ⟨d, hexec⟩ := exec_orderStall_col ha h huse
    exact ⟨_, hexec, rfl, fun _ => wbUnit_updStream .., by simp⟩
  | chan c n => exact ⟨_, exec_orderStall_chan ha h huse, rfl, fun _ => rfl, rfl⟩

end

/-! ### FOLD_COMPLETE (R277, R292, R295, R296) -/

theorem SegsOf.after_issueFold {u : Nat} {k : SegUse} {P : WbSeg → Prop} {s : State} (h : SegsOf u k P s) (c : Contrib)
    (hP : ∀ g, P g → ∀ f l, P { g with folding := f, last := l, stalled := false }) : SegsOf u k P (issueFold u k c s) := by
  unfold issueFold
  exact (h.after_updSeg fun g hg => hP g hg ..).congr (wbUnit_bumpWrap ..)

/-- The accumulator after a fold of `c` on `g`, known where the data is undamaged. -/
def Folded (g : WbSeg) (c : Contrib) (acc : List Nat) : Prop := c.poison = false → acc = (foldInto g c).1

theorem updateAcc_acc (u : Nat) (g : WbSeg) (c : Contrib) (s : State) : SegsOf u g.use (fun k => Folded g c k.acc) (updateAcc u g c s) := by
  unfold updateAcc
  split
  case isTrue hp => exact fun k _ _ hc => absurd hp (by simp [hc])
  case isFalse hp =>
    rcases hfold : foldInto g c with ⟨acc, ovf⟩
    have hacc : SegsOf u g.use (fun k => Folded g c k.acc) (updSeg u g.use (fun x => { x with acc := acc }) s) :=
      SegsOf.of_updSeg fun _ _ => by rw [hfold]
    exact SegsOf.after_noteValues (A := Folded g c) hacc _ _

theorem poisonSeg_evts (u : Nat) (g : WbSeg) (s : State) : (poisonSeg u g s).evts = (raise evWb 6 s).evts := by
  unfold poisonSeg
  dsimp only
  split <;> simp [updSeg]

/-- Damaged data poisons the result. -/
theorem updateAcc_poison {u : Nat} {g : WbSeg} {c : Contrib} (h : c.poison = true) (s : State) :
    (getEvt (updateAcc u g c s) evWb).raw.getLsbD 6 = true := by
  rw [updateAcc, if_pos h, getEvt, poisonSeg_evts]
  exact raw_getLsbD_raise evWb (by decide) s (.inl rfl)

/-- Segment `g` after NEXT advances in cycle `now`: the accumulator satisfies `A`, and where the segment is complete its output is ready
8 cc and the time of its bytes later (R296). -/
def Advanced (g : WbSeg) (now : Nat) (A : List Nat → Prop) (k : WbSeg) : Prop :=
  k.next = g.next + 1 ∧ A k.acc ∧ (g.ncont ≤ g.next + 1 → k.ready = some (now + 8 + (g.op.bytesIn g.op.out + 511) / 512))

/-- NEXT advances, and what is known of the accumulator stands. -/
theorem advanceSeg_segs {u : Nat} {g : WbSeg} {A : List Nat → Prop} {s : State} (h : SegsOf u g.use (fun k => A k.acc) s) :
    SegsOf u g.use (Advanced g s.cts A) (advanceSeg u g s) := by
  unfold advanceSeg
  dsimp only
  by_cases hall : g.ncont ≤ g.next + 1
  · rw [if_pos hall]
    have hnext : SegsOf u g.use (fun k => k.next = g.next + 1 ∧ A k.acc)
        (updSeg u g.use (fun x => { x with next := g.next + 1, folding := none }) s) := h.after_updSeg fun _ ha => ⟨rfl, ha⟩
    exact hnext.after_updSeg fun _ ⟨hn, ha⟩ => ⟨hn, ha, fun _ => rfl⟩
  · rw [if_neg hall]
    have hopen : SegsOf u g.use (Advanced g s.cts A) (updSeg u g.use (fun x => { x with next := g.next + 1, folding := none }) s) :=
      h.after_updSeg fun _ ha => ⟨rfl, ha, fun hle => absurd hle hall⟩
    split
    · refine SegsOf.after_issueFold (P := Advanced g s.cts A) ?_ _ fun _ ⟨hn, ha, hr⟩ _ _ => ⟨hn, ha, hr⟩
      exact SegsOf.after_updSeg hopen fun _ ⟨hn, ha, hr⟩ => ⟨hn, ha, hr⟩
    · exact hopen

theorem advanceSeg_evts (u : Nat) (g : WbSeg) (s : State) : (advanceSeg u g s).evts = s.evts :=
  Part.same_of_mask (q := .evts) (@advanceSeg_mask _ ⟨rfl⟩ ⟨rfl⟩ ⟨rfl⟩ u g s)

theorem updateAcc_cts (u : Nat) (g : WbSeg) (c : Contrib) (s : State) : (updateAcc u g c s).cts = s.cts :=
  Part.same_of_mask (q := .cts) (@updateAcc_mask _ ⟨rfl⟩ ⟨rfl⟩ ⟨rfl⟩ ⟨rfl⟩ u g c s)

/-- What damage of the unit's own scratch or window leaves on record. -/
def noteScratch (u : Nat) (bad : Bool) (s : State) : State := if bad then sramUncorr (unitWb u) (unitWb u) .adapter 4 .poisoned s else s

theorem noteScratch_cts (u : Nat) (bad : Bool) (s : State) : (noteScratch u bad s).cts = s.cts := by
  unfold noteScratch
  split
  · exact Part.same_of_mask (q := .cts) (@sramUncorr_mask _ ⟨rfl⟩ ⟨rfl⟩ ⟨rfl⟩ ..)
  · rfl

theorem wbUnit_noteScratch (u : Nat) (bad : Bool) (s : State) (v : Nat) : (noteScratch u bad s).wbUnit v = s.wbUnit v := by
  unfold noteScratch; split <;> simp

theorem exec_foldComplete {u : WbId} {s : State} {g : WbSeg} {c : Contrib} (b : Bool) (ha : s.acts = true)
    (h : foldDue (s.wbUnit u) s.cts = some (g, c)) :
    exec (.foldComplete u b) s = .next (advanceSeg u g (updateAcc u g (c.asRead b) (noteScratch u b s))) := by
  show execFoldComplete u b s = _
  unfold execFoldComplete
  rw [ha, h]
  rfl

theorem foldComplete_keepsWbs (u : Nat) (g : WbSeg) (c : Contrib) (b : Bool) (s : State) :
    KeepsWbs [u] s (advanceSeg u g (updateAcc u g c (noteScratch u b s))) := by
  intro v hv
  have hv : v ≠ u := by simpa using hv
  rw [wbUnit_advanceSeg_ne hv, wbUnit_updateAcc_ne hv, wbUnit_noteScratch]

/-- What a fold that is due makes of its segment. -/
theorem foldComplete_segs (u : Nat) (g : WbSeg) (c : Contrib) (b : Bool) (s : State) :
    SegsOf u g.use (Advanced g s.cts (Folded g c)) (advanceSeg u g (updateAcc u g c (noteScratch u b s))) := by
  have hsegs := advanceSeg_segs (A := Folded g c) (updateAcc_acc u g c (noteScratch u b s))
  rwa [updateAcc_cts, noteScratch_cts] at hsegs

/-- Settles O41: an arrival by what becomes of the contribution on its segment (`admitted`), which neither its port's note nor the answer to
its sender touches; a fold that is due by what `updateAcc` and `advanceSeg` establish of the segments of its use; a segment that leaves by
`takeEncoded_cases`; and a stall by the use of its segment. -/
theorem workbenchUnits : Obligations.WorkbenchUnits := by
  unfold Obligations.WorkbenchUnits
  intro u b s ha
  refine ⟨?arrival, ?due, ?encoded, exec_orderStall_of_none, ?stall⟩
  case arrival =>
    rintro ⟨c, g, a⟩ h hf d hd
    obtain rfl : d = c.asRead b := hd
    have hexec := exec_contributionArrival b ha hf h
    have hkeeps := admitted_keepsWbs u c (c.asRead b) g s.cts (wbHeld (s.wbUnit u)) a b s
    refine ⟨?fold, ?hold, ?dup, ?full⟩ <;> rintro rfl
    case fold =>
      have hunit := wbUnit_admitted_fold u c (c.asRead b) g (wbHeld (s.wbUnit u)) (noteArrival c .fold b s)
      rw [noteArrival_cts, wbUnit_noteArrival, State.tick, noteArrival_cts] at hunit
      refine ⟨_, hexec, ?_, ?_, ?_, hkeeps, ?_⟩
      · rw [hunit]
      · rw [hunit]
      · rw [hunit]; rfl
      · rw [getF_wbCntFold_admitted_fold, getF, getReg_wbCntFold_noteArrival]; rfl
    case hold => refine ⟨_, hexec, ?_, ?_, hkeeps⟩ <;> simp [admitted]
    case dup => exact ⟨_, hexec, by simp [admitted], by simp [admitted], admitted_dup_raised .., hkeeps⟩
    case full => exact ⟨_, hexec, admitted_full_raised .., by simp [admitted], by simp [admitted], hkeeps⟩
  case due =>
    rintro ⟨g, c⟩ h
    have hexec := exec_foldComplete b ha h
    refine ⟨_, hexec, ?segs, ?damaged, foldComplete_keepsWbs u g (c.asRead b) b s, ?ports⟩
    case segs =>
      intro k hk huse
      obtain ⟨hnext, hacc, hready⟩ := foldComplete_segs u g (c.asRead b) b s k hk huse
      refine ⟨hnext, fun (hc : c.poison = false) hb => hacc ?_, hready⟩
      simp [Contrib.asRead, hc, hb]
    case damaged =>
      intro hp
      rw [getEvt, advanceSeg_evts]
      exact updateAcc_poison (by simpa [Contrib.asRead] using hp) _
    case ports =>
      exact Part.same_of_mask (q := .ports) (@execFoldComplete_mask _ ⟨rfl⟩ ⟨rfl⟩ ⟨rfl⟩ ⟨rfl⟩ ⟨rfl⟩ ⟨rfl⟩ ⟨rfl⟩ u b s _ hexec)
  case encoded =>
    rintro ⟨g, data, t⟩ h
    exact ⟨takeEncoded_segs h, takeEncoded_keepsWbs h, exec_segmentEncoded ha h⟩
  case stall =>
    intro g h
    obtain ⟨t, hexec, hevts, hwb, hshown⟩ := exec_orderStall ha h
    refine ⟨t, hexec, .of_evts hevts (by decide), ?_, fun v hv => ?_, hshown⟩
    · rw [hwb, tellStall, wbUnit_raise, wbUnit_updSeg]
    · rw [hwb, tellStall, wbUnit_raise, wbUnit_updSeg_ne (by simpa using hv)]

end Sys2Proof.Machine
